-- ==== Sys2Proof/Word.lean ====
section
/-!
DEFINITION. The word types of the BY-960 model (spec/00_scope.md, R6) and the canonical sparse table.
-/

namespace Sys2Proof

/-- A byte. -/
abbrev Byte := BitVec 8

/-- A word of a descriptor is 32 bits (R6). -/
abbrev Word := BitVec 32

/-- The 64 bytes of a tray line, byte 0 in bits 7:0 (R64, R6). -/
abbrev LineData := BitVec 512

/-- A sparse table: pairs of key and value, keys strictly rising. Its operations stand in Machine/Tab.lean. -/
abbrev Tab (α : Type) := List (Nat × α)

end Sys2Proof
end

