-- ==== Sys2Proof/Syntax.lean ====
section
/-!
DEFINITION. The commands of the BY-960 (spec/opcode_table.json) with their operands, and the types of those operands.
What only the surroundings can know (what a host read returns, what an error-correcting code finds, whether training
or a signature check succeeds) is an operand of the command that brings it into the device.
-/

namespace Sys2Proof

/-- Where a submission item comes from (R343, R364, R463, R313). -/
inductive Src where
  /-- the admin queue of a sluice. -/
  | admin (port : Fin 17) (ld : Fin 16)
  /-- a data queue pair of a sluice. -/
  | data (port : Fin 17) (ld : Fin 16) (qp : BitVec 8)
  /-- the MCTP tunnel of R364. -/
  | tunnel
  /-- the JTAG mailbox of R463. -/
  | jtag
  /-- a crown core of the run with this serial. -/
  | crown (run : Nat) (core : Fin 32)
deriving DecidableEq, Repr

/-- A byte of host memory that a CXL.io read of the device returns; `ep` is the EP (poisoned) indication (Table 7.2). -/
structure HostByte where
  hid : BitVec 8
  hpa : Nat
  val : Byte
  ep : Bool := false
deriving DecidableEq, Repr

/-- A submission item as the device has read it: its source, its words (R347), and what the device's own reads of
host memory return while it runs. A host address that is not listed returns no completion (R100). -/
structure Item where
  src : Src
  words : List Word
  host : List HostByte := []
deriving DecidableEq, Repr

/-- What SEC finds when it checks a bundle (R383): the manifest's fields and the outcome of the signature and digest checks. -/
structure BundleRead where
  version : BitVec 64
  ifVersion : BitVec 32
  arith : BitVec 16
  svn : BitVec 16
  handoffMin : BitVec 16
  handoffMax : BitVec 16
  /-- handoff format that the bundle's own images write. -/
  handoff : BitVec 16
  /-- signature and component digests check. -/
  signed : Bool
  /-- every repetition in the component headers equals the manifest. -/
  consistent : Bool
  /-- digests of SEC, PMC, SCH, cluster control cores and manifest (measurement blocks 2 to 6). -/
  digests : List (BitVec 256)
deriving DecidableEq, Repr

/-- MetaValue of a CXL.mem request (Table 4.3). -/
inductive MetaValue where
  | any | shared | invalid
deriving DecidableEq, Repr

/-- A CXL.mem request or response of a host (R37, R69). -/
structure MemReq where
  port : Fin 17
  ld : Fin 16
  tag : BitVec 16
  /-- the DPA that the LD's HDM decoder produces, which is the TPA (R26). -/
  tpa : BitVec 50
  /-- the decoder is set HDM-DB (BI enabled) (R333, R398). -/
  bi : Bool
  /-- the IDE stream that carries it (R164). -/
  stream : Option (BitVec 8)
deriving DecidableEq, Repr

/-- The PCIe request that reaches BAR2 (R77). -/
inductive HostAtomic where
  | fetchAdd | swap | cas | notAtomic
deriving DecidableEq, Repr

/-- Operand size of a host AtomicOp (R77). -/
inductive AtomicSize where
  | b4 | b8 | b16
deriving DecidableEq, Repr

/-- The atomic operations of Table 4.5. -/
inductive AtomicKind where
  | fetchAdd | swap | cas | fetchMin | fetchMax
deriving DecidableEq, Repr

/-- A request on an unbound LD (R33). -/
inductive UnboundKind where
  | read | write | atomic
deriving DecidableEq, Repr

/-- A translating unit and stream, with the TCX and running command it works for (Table 3.10, R57, R58). -/
structure EngineRef where
  /-- Table 3.10 UNIT. -/
  unit : BitVec 8
  /-- Table 3.10 ENGINE. -/
  engine : BitVec 4
  stream : Fin 8
  tcx : BitVec 12
  /-- serial of the running command; 0 = none. -/
  serial : Nat
deriving DecidableEq, Repr

/-- What the code of the medium finds on a read (R128, R129, R132, R159). `otherOk`: the mirror copy, the stripe or the
home of a copy repairs it. -/
inductive Ecc where
  | clean
  | corrected (device : Fin 10)
  | uncorrectable (otherOk : Bool)
  | tagFail (otherOk : Bool)
deriving DecidableEq, Repr

/-- A DDR channel or HBM pseudo-channel (R140). -/
inductive MemChannel where
  | ddr (n : Fin 24)
  | hbm (n : Fin 256)
deriving DecidableEq, Repr

/-- A frame of the weir: the fields of its header (R170, Table 9.2). -/
structure Frame where
  cls : BitVec 3 := 0
  colour : BitVec 2 := 0
  len : BitVec 7 := 0
  kind : BitVec 4 := 0
  seq : BitVec 16 := 0
  srcDie : BitVec 2 := 0
  srcEp : BitVec 5 := 0
  dstDie : BitVec 2 := 0
  dstEp : BitVec 5 := 0
  tag : BitVec 18 := 0
  tcx : BitVec 12 := 0
  polder : BitVec 7 := 0
  host : Bool := false
  policer : BitVec 13 := 0
  hid : BitVec 8 := 0
  poison : Bool := false
  tpa : BitVec 50 := 0
  epoch : BitVec 16 := 0
  op : BitVec 8 := 0
  /-- some reserved field of the header is non-zero. -/
  reservedSet : Bool := false
deriving DecidableEq, Repr

/-- What reading a frame from frame memory finds (R183). -/
inductive FrameError where
  | none | corrected | payload | header
deriving DecidableEq, Repr

/-- A compute or crown core (R437). -/
inductive CoreRef where
  | compute (n : Fin 128)
  | crown (n : Fin 32)
deriving DecidableEq, Repr

/-- A byte of an item's output, by DVA (R323). -/
structure DvaByte where
  dva : BitVec 52
  val : Byte
  poison : Bool := false
deriving DecidableEq, Repr

/-- How a host-tier read completes (R100, Table 7.2). -/
inductive ThResult where
  | data (bytes : List Byte)
  | poisoned
  | refused
deriving DecidableEq, Repr

/-- How a page sense ends (R114): decoded at re-read level 0 to 7, or not decoded, with the outcome of the rebuild. -/
inductive SenseResult where
  | decoded (level : Fin 8)
  | rebuilt
  | lost
deriving DecidableEq, Repr

/-- What start-up finds of the two replicas of a map segment (Table 6.6). -/
inductive ReplicaPair where
  | same | higher | conflict | oneIntact | neither
deriving DecidableEq, Repr

/-- The replicas of one map segment of a channel (R124). -/
structure SegmentReplicas where
  segment : Nat
  pair : ReplicaPair
deriving DecidableEq, Repr

/-- What the terp finds when its supply comes into range (R386, R471, R480): fuses, straps and the interlock pins. -/
structure TerpInputs where
  /-- 16 bytes of package serial. -/
  serial : List Byte
  /-- 12 die records of 4 words. -/
  dies : List (List Word)
  minSvn : BitVec 16
  smbus : Bool
  clkMode : BitVec 2
  closedA : Bool
  closedB : Bool
deriving DecidableEq, Repr

/-- What is fitted on a DDR channel and how it answers at start-up (R28). -/
structure DdrFit where
  dimms : BitVec 2
  /-- capacity of one DIMM in GiB. -/
  gib : BitVec 16
  part : BitVec 32
  spdOk : Bool
  trained : Bool
deriving DecidableEq, Repr

/-- What is fitted on a NAND channel and how it answers at start-up (R110, R123). -/
structure NandFit where
  dies : BitVec 5
  part : BitVec 32
  /-- the parameter page passes its CRC. -/
  pageOk : Bool
  /-- it meets Table 6.1. -/
  limitsOk : Bool
  /-- dies that do not answer, or whose parameter page or checkpoint replicas are not read. -/
  badDies : BitVec 16
  /-- channel core and PHY pass their start-up test. -/
  coreOk : Bool
deriving DecidableEq, Repr

/-- What the device finds at its start-up (R384, R387, R28, R110). -/
structure TrayInputs where
  /-- 24 DDR channels. -/
  ddr : List DdrFit
  /-- 64 NAND channels. -/
  nand : List NandFit
  /-- raw capacity of a NAND channel in GiB. -/
  nandGib : BitVec 16
  /-- digest of the boot ROM (measurement block 1). -/
  bootRom : BitVec 256
  /-- SEC passes its self-test. -/
  secOk : Bool
  /-- what SEC reads of the NOR's bundle copies where the device has not written them itself. -/
  copyA : BundleRead
  copyB : BundleRead
deriving DecidableEq, Repr

/-- A slice whose zero-fill ends (R388). -/
inductive FillSlice where
  | ddr (n : Fin 24)
  | hbm (n : Fin 256)
  | row (n : Fin 53)
deriving DecidableEq, Repr

/-- A sensor reading in 1/64 °C, before its calibration offset: sensors 0 to 63 of the logic dies, 64 to 71 of the SRAM
stacks, 72 to 79 of the HBM stacks (R430, Table 24.1). -/
structure Reading where
  sensor : Fin 80
  raw : Int
deriving DecidableEq, Repr

/-- An SPDM endpoint (R162): DOE of an LD, or MCTP. -/
inductive SpdmEnd where
  | doe (port : Fin 17) (ld : Fin 16)
  | mctp
deriving DecidableEq, Repr

/-- What an MCTP packet on the BMC bus carries (R494, R399, R162). -/
inductive McptPayload where
  | fmApi (opcode : BitVec 16)
  | spdm (request : BitVec 8)
  | other (type : BitVec 8)
deriving DecidableEq, Repr

/-- The RC fields that a non-peek read returns and clears (R8, R491). -/
inductive RcReg where
  | orphanCount (port : Fin 17) (ld : Fin 16)
  | staleCount (port : Fin 17) (ld : Fin 16)
  | dbErrCount (port : Fin 17) (ld : Fin 16)
  | cqHoldCount (port : Fin 17) (ld : Fin 16)
  | asyncDropCount (port : Fin 17) (ld : Fin 16)
  | thermStatus
  | supplyStatus
  | recFullDrops
  | recFrozenDrops
  | interlockCount
  | ilWritesRefused
  | glitchCount
  | norStatus
  /-- counter at offset 0x04 × (n + 1) of the link block that LINK_SEL selects (R493). -/
  | linkCounter (n : Fin 7)
deriving DecidableEq, Repr

/-- The registers that a plain write reaches (R491): those with no row of their own, and the selectors. -/
inductive RwReg where
  | cohTimeout | burstHold | weirRedG | weirRedY | weirRedR | hostGrace | linkSel
  | portCtrl (port : Fin 17)
  | clkCtrl | govCtrl | thermCtrl
  | faultSummary | fmNotify
  | recWinSel | precSel
  | terpIrqStatus | ioCtrl | norAddr | norStatus
  | norBuf (word : Fin 64)
  | sluiceState (port : Fin 17) (ld : Fin 16)
  | asqBaseLo (port : Fin 17) (ld : Fin 16)
  | asqBaseHi (port : Fin 17) (ld : Fin 16)
  | acqBaseLo (port : Fin 17) (ld : Fin 16)
  | acqBaseHi (port : Fin 17) (ld : Fin 16)
  | adminCfg (port : Fin 17) (ld : Fin 16)
  /-- message address (0, 1) or data (2) word of an MSI-X table entry. -/
  | msixEntry (port : Fin 17) (ld : Fin 16) (vector : BitVec 11) (word : Fin 3)
  /-- vector control word of an MSI-X table entry. -/
  | msixControl (port : Fin 17) (ld : Fin 16) (vector : BitVec 11)
  /-- a 4-byte word of the device-SRAM ring window. -/
  | ringWindow (port : Fin 17) (ld : Fin 16) (offset : BitVec 16)
  /-- any other offset of the register space: RO, RC, RSV or unassigned. -/
  | other (offset : BitVec 24)
deriving DecidableEq, Repr

/-- A device-initiated NOR write (R457, R391, R470). -/
inductive NorWrite where
  | slotErase | fwStage | calImport
deriving DecidableEq, Repr

/-- An I3C common command code (R494). -/
inductive I3cCcc where
  | setdasa (address : BitVec 7)
  | entdaa (address : BitVec 7)
  | enec
deriving DecidableEq, Repr


/-- The commands of the BY-960: one constructor per row of spec/opcode_table.json, in the table's order. -/
inductive Instr where
  /-- `IDENTIFY` (R366). -/
  | identify (it : Item)
  /-- `VERSION_HANDSHAKE` (R390). -/
  | versionHandshake (it : Item)
  /-- `QP_CREATE` (R344). -/
  | qpCreate (it : Item)
  /-- `QP_DELETE` (R354). -/
  | qpDelete (it : Item)
  /-- `QP_FLUSH` (R354). -/
  | qpFlush (it : Item)
  /-- `POLDER_CREATE` (R369). -/
  | polderCreate (it : Item)
  /-- `POLDER_MODE_SET` (R335). -/
  | polderModeSet (it : Item)
  /-- `POLDER_DRAIN` (R370). -/
  | polderDrain (it : Item)
  /-- `HIT_WRITE` (R36). -/
  | hitWrite (it : Item)
  /-- `HIT_READ` (R371). -/
  | hitRead (it : Item)
  /-- `TENANT_CREATE` (R372). -/
  | tenantCreate (it : Item)
  /-- `TENANT_RESET` (R42). -/
  | tenantReset (it : Item)
  /-- `POLICER_SET` (R180). -/
  | policerSet (it : Item)
  /-- `SEG_WRITE` (R52). -/
  | segWrite (it : Item)
  /-- `SEG_SYNC` (R54). -/
  | segSync (it : Item)
  /-- `KEY_LOAD` (R156). -/
  | keyLoad (it : Item)
  /-- `CAL_EXPORT` (R470). -/
  | calExport (it : Item)
  /-- `CAL_IMPORT` (R470). -/
  | calImport (it : Item)
  /-- `COPY_ASYNC` (R192). -/
  | copyAsync (it : Item)
  /-- `FENCE` (R374). -/
  | fence (it : Item)
  /-- `COUNTER_WAIT` (R196). -/
  | counterWait (it : Item)
  /-- `ABORT` (R356). -/
  | abort (it : Item)
  /-- `ATOMIC` (R78). -/
  | atomic (it : Item)
  /-- `RESIL_STATS` (R148). -/
  | resilStats (it : Item)
  /-- `WEIR_STATS` (R184). -/
  | weirStats (it : Item)
  /-- `COPY_STATS` (R208). -/
  | copyStats (it : Item)
  /-- `TABLE_REFRESH_BEGIN` (R229). -/
  | tableRefreshBegin (it : Item)
  /-- `TABLE_REFRESH_COMMIT` (R231). -/
  | tableRefreshCommit (it : Item)
  /-- `TIER_PROMOTE` (R97). -/
  | tierPromote (it : Item)
  /-- `TIER_DEMOTE` (R97). -/
  | tierDemote (it : Item)
  /-- `TIER_STATS` (R108). -/
  | tierStats (it : Item)
  /-- `HTW_WRITE` (R99). -/
  | htwWrite (it : Item)
  /-- `HTW_READ` (R377). -/
  | htwRead (it : Item)
  /-- `FLASH_MANAGE` (R126). -/
  | flashManage (it : Item)
  /-- `TABLE_DEFINE` (R212). -/
  | tableDefine (it : Item)
  /-- `TABLE_WRITE` (R230). -/
  | tableWrite (it : Item)
  /-- `LOOKUP_STATS` (R234). -/
  | lookupStats (it : Item)
  /-- `LOOKUP_POOLED` (R219). -/
  | lookupPooled (it : Item)
  /-- `GATHER_ROWS` (R221). -/
  | gatherRows (it : Item)
  /-- `SEQ_POOL` (R240). -/
  | seqPool (it : Item)
  /-- `DECODE_ATTN` (R248). -/
  | decodeAttn (it : Item)
  /-- `SEARCH` (R261). -/
  | search (it : Item)
  /-- `SEARCH_COMPAT` (R275). -/
  | searchCompat (it : Item)
  /-- `KERNEL_LAUNCH` (R309). -/
  | kernelLaunch (it : Item)
  /-- `CROWN_RUN` (R312). -/
  | crownRun (it : Item)
  /-- `DIGEST_SETUP` (R316). -/
  | digestSetup (it : Item)
  /-- `REDUCE` (R202). -/
  | reduce (it : Item)
  /-- `GATHER_HOSTS` (R203). -/
  | gatherHosts (it : Item)
  /-- `FILTER_STREAM` (R203). -/
  | filterStream (it : Item)
  /-- `FW_STAGE` (R391). -/
  | fwStage (it : Item) (bundle : BundleRead)
  /-- `FW_ACTIVATE` (R392): the digests of step 3 and the handoff sections of step 4 check, and every core resumes by 15 ms. -/
  | fwActivate (it : Item) (digestsOk sectionsOk resumed : Bool)
  /-- `ACTIVATION_RESUME_TIMEOUT` (R393). -/
  | activationResumeTimeout
  /-- `REC_FREEZE` (R455). -/
  | recFreeze (it : Item)
  /-- `REC_READ` (R376). -/
  | recRead (it : Item)
  /-- `REC_THAW` (R455). -/
  | recThaw (it : Item)
  /-- `DBG_STATUS` (R461). -/
  | dbgStatus (it : Item)
  /-- `DBG_CHALLENGE` (R460). -/
  | dbgChallenge (it : Item)
  /-- `DBG_UNLOCK` (R460); `verifies`: the token's signature checks against the latest NONCE. -/
  | dbgUnlock (it : Item) (verifies : Bool)
  /-- `DBG_LOCK` (R460). -/
  | dbgLock (it : Item)
  /-- `DBG_PEEK` (R462). -/
  | dbgPeek (it : Item)
  /-- `DBG_POKE` (R461). -/
  | dbgPoke (it : Item)
  /-- `DBG_HALT` (R464); `lock`: the locked sequence that the core is in and that does not end at once: partner core and
  serial of the command it serves. -/
  | dbgHalt (it : Item) (lock : Option (Fin 28 × Nat))
  /-- `DBG_RESUME` (R464). -/
  | dbgResume (it : Item)
  /-- `HALT_DEFER_TIMEOUT` (R464). -/
  | haltDeferTimeout (core : Fin 28)
  /-- `ASQ_TAIL` (R346). -/
  | asqTail (port : Fin 17) (ld : Fin 16) (tail : BitVec 16)
  /-- `ACQ_HEAD` (R351). -/
  | acqHead (port : Fin 17) (ld : Fin 16) (head : BitVec 16)
  /-- `SQ_TAIL` (R346). -/
  | sqTail (port : Fin 17) (ld : Fin 16) (qp : BitVec 8) (tail : BitVec 16)
  /-- `CQ_HEAD` (R351). -/
  | cqHead (port : Fin 17) (ld : Fin 16) (qp : BitVec 8) (head : BitVec 16)
  /-- `ADMIN_ENABLE` (R342). -/
  | adminEnable (port : Fin 17) (ld : Fin 16)
  /-- `ADMIN_DISABLE` (R342). -/
  | adminDisable (port : Fin 17) (ld : Fin 16)
  /-- `ENTRY_FETCH` (R348). -/
  | entryFetch (port : Fin 17) (ld : Fin 16) (qp : Option (BitVec 8)) (words : List Word) (host : List HostByte)
  /-- `PARTIAL_ITEM_EXPIRY` (R349). -/
  | partialItemExpiry (port : Fin 17) (ld : Fin 16) (qp : Option (BitVec 8))
  /-- `COMMAND_DISPATCH` (R347). -/
  | commandDispatch
  /-- `CQ_COALESCE_TIMEOUT` (R352). -/
  | cqCoalesceTimeout (port : Fin 17) (ld : Fin 16) (qp : BitVec 8)
  /-- `MSIX_UNMASK` (R352). -/
  | msixUnmask (port : Fin 17) (ld : Fin 16) (vector : BitVec 11)
  /-- `CROWN_SUBMIT` (R313). -/
  | crownSubmit (run : Nat) (core : Fin 32) (words : List Word)
  /-- `CROWN_WAIT` (R313). -/
  | crownWait (run : Nat) (core : Fin 32) (cid : BitVec 16)
  /-- `CROWN_COUNTER` (R313). -/
  | crownCounter (run : Nat) (core : Fin 32) (cnt : Fin 16) (threshold : BitVec 64)
  /-- `CROWN_FENCE` (R313). -/
  | crownFence (run : Nat) (core : Fin 32)
  /-- `CROWN_POLL` (R313). -/
  | crownPoll (run : Nat) (core : Fin 32) (cid : BitVec 16)
  /-- `CROWN_TIME` (R313). -/
  | crownTime (run : Nat) (core : Fin 32)
  /-- `CROWN_TDC_READ` (R313). -/
  | crownTdcRead (run : Nat) (core : Fin 32)
  /-- `CROWN_LOG` (R313). -/
  | crownLog (run : Nat) (core : Fin 32) (data : BitVec 128)
  /-- `CROWN_EXIT` (R314). -/
  | crownExit (run : Nat) (core : Fin 32) (value : Word)
  /-- `CROWN_TRAP` (R314). -/
  | crownTrap (run : Nat) (core : Fin 32)
  /-- `CROWN_TIME_LIMIT` (R314). -/
  | crownTimeLimit (run : Nat)
  /-- `CROWN_POISON_EXCEPTION` (R315). -/
  | crownPoisonException (run : Nat) (core : Fin 32) (dva : BitVec 52)
  /-- `CROWN_ATOMIC` (R80). -/
  | crownAtomic (run : Nat) (core : Fin 32) (dva : BitVec 52) (op : AtomicKind) (wide : Bool) (operand new : BitVec 64)
  /-- `MEM_RD` (R69); `lost`: ways of the set of its line whose slots are found uncorrectable (R438). -/
  | memRd (q : MemReq) (mv : MetaValue) (lost : List (Fin 16))
  /-- `MEM_RD_DATA` (R69). -/
  | memRdData (q : MemReq)
  /-- `MEM_INV` (R69). -/
  | memInv (q : MemReq)
  /-- `MEM_CLN_EVCT` (R67). -/
  | memClnEvct (q : MemReq)
  /-- `MEM_SPEC_RD` (R69). -/
  | memSpecRd (q : MemReq)
  /-- `BI_CONFLICT` (R69). -/
  | biConflict (q : MemReq)
  /-- `MEM_WR` (R71). -/
  | memWr (q : MemReq) (mv : MetaValue) (data : LineData) (poison : Bool)
  /-- `MEM_WR_PTL` (R136). -/
  | memWrPtl (q : MemReq) (mv : MetaValue) (mask : BitVec 64) (data : LineData) (poison : Bool)
  /-- `BI_RSP_I` (R69). -/
  | biRspI (q : MemReq)
  /-- `BI_RSP_S` (R69). -/
  | biRspS (q : MemReq)
  /-- `BI_RSP_E` (R69). -/
  | biRspE (q : MemReq)
  /-- `ATOMIC_OP` (R77). -/
  | atomicOp (q : MemReq) (op : HostAtomic) (size : AtomicSize) (operand new : BitVec 64)
  /-- `MALFORMED_TLP` (R418). -/
  | malformedTlp (port : Fin 17) (ld : Fin 16)
  /-- `UNBOUND_LD_REQUEST` (R33). -/
  | unboundLdRequest (q : MemReq) (kind : UnboundKind)
  /-- `ENGINE_READ` (R74); `lost`: ways of the set of its first line whose slots are found uncorrectable (R438). -/
  | engineRead (e : EngineRef) (dva : BitVec 52) (length : BitVec 17) (dest : BitVec 32) (lost : List (Fin 16))
  /-- `ENGINE_WRITE` (R73). -/
  | engineWrite (e : EngineRef) (dva : BitVec 52) (data : List Byte) (poison : Bool)
  /-- `ENGINE_ATOMIC` (R79). -/
  | engineAtomic (e : EngineRef) (dva : BitVec 52) (op : AtomicKind) (wide : Bool) (operand new : BitVec 64)
  /-- `SEGMENT_FILL_ARRIVAL` (R57). -/
  | segmentFillArrival (unit : BitVec 8) (engine : BitVec 4) (stream : Fin 8) (entry : BitVec 16)
  /-- `FETCH_ADD_BATCH_SEND` (R188). -/
  | fetchAddBatchSend (tpa : BitVec 50) (key : BitVec 13)
  /-- `ATOMIC_RESULT_RETURN` (R188). -/
  | atomicResultReturn (tpa : BitVec 50) (key : BitVec 13)
  /-- `MEDIUM_READ_COMPLETE` (R70). -/
  | mediumReadComplete (tpa : BitVec 50) (ecc : Ecc)
  /-- `MEDIUM_WRITE_COMPLETE` (R72). -/
  | mediumWriteComplete (tpa : BitVec 50)
  /-- `CHANNEL_FAILURE_DECLARED` (R140). -/
  | channelFailureDeclared (ch : MemChannel)
  /-- `PARITY_REBUILD_COMPLETE` (R141). -/
  | parityRebuildComplete (polder : BitVec 6)
  /-- `PATROL_READ` (R130). -/
  | patrolRead (tpa : BitVec 50) (ecc : Ecc) (differ : Bool)
  /-- `SNOOP_TIMEOUT` (R82). -/
  | snoopTimeout (hid : BitVec 8) (tpa : BitVec 50)
  /-- `DEAD_HOST_SWEEP_END` (R82). -/
  | deadHostSweepEnd (hid : BitVec 8)
  /-- `WEIR_FRAME_ARRIVAL` (R171). -/
  | weirFrameArrival (die : Fin 4) (att : Fin 33) (frame : Frame) (crcOk : Bool) (received : BitVec 7)
  /-- `FRAME_ADMIT_RETRY` (R178). -/
  | frameAdmitRetry (die : Fin 4) (att : Fin 33)
  /-- `WEIR_FRAME_DELIVER` (R179). -/
  | weirFrameDeliver (die : Fin 4) (att : Fin 33) (err : FrameError)
  /-- `DROP_NOTICE` (R192). -/
  | dropNotice (serial : Nat) (frame : Frame)
  /-- `BEST_EFFORT_RESEND` (R192). -/
  | bestEffortResend (serial : Nat) (tag : BitVec 18)
  /-- `WEIR_STATS_PERIOD` (R184). -/
  | weirStatsPeriod (tcx : BitVec 12)
  /-- `LEVEE_FRAME_RECEIVED` (R16). -/
  | leveeFrameReceived (link : Fin 6) (up : Bool) (seq : BitVec 16) (crcOk : Bool)
  /-- `LEVEE_LANE_FAILURE` (R16). -/
  | leveeLaneFailure (link : Fin 6) (up : Bool) (group : Fin 8)
  /-- `LEVEE_RETRAIN_END` (R16). -/
  | leveeRetrainEnd (link : Fin 6) (ok : Bool)
  /-- `DIE_PLL_LOCK_LOSS` (R439). -/
  | diePllLockLoss (die : Fin 4)
  /-- `COMPUTE_CORE_FAULT` (R437). -/
  | computeCoreFault (core : CoreRef)
  /-- `TILE_PROGRESS_TIMEOUT` (R437). -/
  | tileProgressTimeout (core : Fin 128)
  /-- `HBM_STACK_FAULT` (R437). -/
  | hbmStackFault (stack : Fin 8)
  /-- `WATCHDOG_EXPIRY` (R381). -/
  | watchdogExpiry (core : Fin 28)
  /-- `SCH_HEARTBEAT_MISS` (R381). -/
  | schHeartbeatMiss
  /-- `NOTICE_WINDOW_END` (R441). -/
  | noticeWindowEnd (kind : BitVec 8) (polder : BitVec 7) (port : BitVec 5) (hid : BitVec 8) (unit : BitVec 20) (tcx : BitVec 12)
  /-- `MIGRATION_CUTOVER` (R323). -/
  | migrationCutover (serial : Nat)
  /-- `ITEM_RESULT_LANDED` (R323); `overflow`: an accumulation of the item fell back (R294). -/
  | itemResultLanded (serial : Nat) (item : BitVec 24) (core : Fin 128) (out : List DvaByte) (overflow : Bool)
  /-- `RESET_ENGINE_CUTOFF` (R42). -/
  | resetEngineCutoff (tcx : BitVec 12)
  /-- `REMAP_ENGINE_CUTOFF` (R52). -/
  | remapEngineCutoff (tcx : BitVec 12) (seg : Fin 16)
  /-- `DRAIN_COMPLETE` (R31). -/
  | drainComplete (polder : BitVec 6)
  /-- `SCRUB_COMPLETE` (R32). -/
  | scrubComplete (polder : BitVec 6)
  /-- `GRANULE_FILL_COMPLETE` (R152). -/
  | granuleFillComplete (tpa : BitVec 50)
  /-- `OVERLAY_MERGE_END` (R232). -/
  | overlayMergeEnd (tcx : BitVec 12) (table : BitVec 6)
  /-- `PROMOTION_SAMPLE_PERIOD` (R94). -/
  | promotionSamplePeriod (polder : BitVec 6)
  /-- `PROMOTION_COPY_COMPLETE` (R95). -/
  | promotionCopyComplete (tpa : BitVec 50)
  /-- `SKETCH_HALVING` (R225). -/
  | sketchHalving (polder : BitVec 6)
  /-- `WORK_POOL_SPACE_FREE` (R146). -/
  | workPoolSpaceFree (polder : BitVec 6)
  /-- `CHUNK_LANDED` (R194). -/
  | chunkLanded (serial : Nat) (host : List HostByte)
  /-- `WAIT_TIMEOUT` (R196). -/
  | waitTimeout (serial : Nat)
  /-- `PUSH_SLOT_WRITE` (R197). -/
  | pushSlotWrite (port : Fin 17) (ld : Fin 16) (slot : Fin 16) (offset : BitVec 16) (data : List Byte)
  /-- `PUSH_BURST_EXPIRY` (R198). -/
  | pushBurstExpiry (port : Fin 17) (ld : Fin 16) (slot : Fin 16)
  /-- `JOIN_TIMEOUT` (R201). -/
  | joinTimeout (polder : BitVec 6) (group : Word)
  /-- `ZERO_LENGTH_READ_RETURN` (R89). -/
  | zeroLengthReadReturn (serial : Nat) (hid : BitVec 8)
  /-- `TH_READ_COMPLETION` (R100). -/
  | thReadCompletion (tile : Nat) (res : ThResult)
  /-- `TH_READ_TIMEOUT` (R100). -/
  | thReadTimeout (tile : Nat)
  /-- `SPILL_CUTOFF` (R103). -/
  | spillCutoff (serial : Nat)
  /-- `TAU_EXCHANGE` (R260). -/
  | tauExchange (serial : Nat) (channel : Fin 64)
  /-- `SEARCH_STAGE3_START` (R261). -/
  | searchStage3Start (serial : Nat)
  /-- `SCAN_START` (R268). -/
  | scanStart (channel : Fin 64)
  /-- `KERNEL_PHASE_START` (R309). -/
  | kernelPhaseStart (serial : Nat)
  /-- `FLASH_READ_REQUEST` (R116). -/
  | flashReadRequest (serial : Nat) (tpa : BitVec 50)
  /-- `FLASH_DIE_OPERATION_START` (R116). -/
  | flashDieOperationStart (channel : Fin 64) (die : Fin 16) (remaining : Nat)
  /-- `FLASH_SENSE_COMPLETE` (R114). -/
  | flashSenseComplete (channel : Fin 64) (die : Fin 16) (res : SenseResult)
  /-- `FLASH_READ_DELIVER` (R115). -/
  | flashReadDeliver (serial : Nat) (tpa : BitVec 50)
  /-- `FLASH_WRITE_ARRIVAL` (R117). -/
  | flashWriteArrival (tile : Nat) (tpa : BitVec 50) (data : List Byte) (poison : Bool)
  /-- `FLASH_PROGRAM_COMPLETE` (R117). -/
  | flashProgramComplete (channel : Fin 64) (die : Fin 16) (ok : Bool)
  /-- `FLASH_ERASE_COMPLETE` (R122). -/
  | flashEraseComplete (channel : Fin 64) (die : Fin 16) (ok : Bool)
  /-- `PROGRAM_STARVATION_TIMEOUT` (R116). -/
  | programStarvationTimeout (channel : Fin 64) (die : Fin 16)
  /-- `GARBAGE_COLLECTION_START` (R122). -/
  | garbageCollectionStart (channel : Fin 64) (die : Fin 16)
  /-- `FLASH_PATROL` (R122). -/
  | flashPatrol (channel : Fin 64) (die : Fin 16) (block : BitVec 10) (level : Fin 9)
  /-- `NAND_DIE_TIMEOUT` (R123). -/
  | nandDieTimeout (channel : Fin 64) (die : Fin 16)
  /-- `MAP_CHECKPOINT` (R124). -/
  | mapCheckpoint (channel : Fin 64) (segment : Nat)
  /-- `MAP_LOAD_COMPLETE` (R124). -/
  | mapLoadComplete (channel : Fin 64) (replicas : List SegmentReplicas)
  /-- `HOLDUP_OK_ASSERT` (R117). -/
  | holdupOkAssert
  /-- `STAGED_MODE_ENTRY` (R117). -/
  | stagedModeEntry
  /-- `HOLDUP_OK_DEASSERT` (R118). -/
  | holdupOkDeassert
  /-- `POWER_LOSS_DETECT` (R447). -/
  | powerLossDetect
  /-- `POWER_RESTORE_TIMEOUT` (R447). -/
  | powerRestoreTimeout
  /-- `TERP_SUPPLY_VALID` (R386). -/
  | terpSupplyValid (f : TerpInputs)
  /-- `TERP_RESET` (R395). -/
  | terpReset
  /-- `SYS_RESET_ASSERT` (R395). -/
  | sysResetAssert (short : Bool)
  /-- `SYS_RESET_RELEASE` (R387). -/
  | sysResetRelease (t : TrayInputs)
  /-- `START_UP_STEP_TIMEOUT` (R387). -/
  | startUpStepTimeout (step : BitVec 8)
  /-- `ZERO_FILL_COMPLETE` (R388). -/
  | zeroFillComplete (slice : FillSlice) (readBackOk : Bool)
  /-- `THERMAL_SAMPLE` (R430). -/
  | thermalSample (readings : List Reading)
  /-- `THROTTLE_STEP` (R430). -/
  | throttleStep
  /-- `HBM_CATASTROPHIC_TEMP` (R431). -/
  | hbmCatastrophicTemp (stack : Fin 8)
  /-- `SUPPLY_WARNING_CROSSING` (R433). -/
  | supplyWarningCrossing (die : Fin 4) (pct : BitVec 8)
  /-- `SUPPLY_ABOVE_WARNING` (R433). -/
  | supplyAboveWarning (pct : BitVec 8)
  /-- `RESTORE_WINDOW_EXPIRY` (R433). -/
  | restoreWindowExpiry
  /-- `SUPPLY_RESET_CROSSING` (R434). -/
  | supplyResetCrossing (die : Fin 4) (pct : BitVec 8)
  /-- `RAIL_OUT_OF_WINDOW` (R477). -/
  | railOutOfWindow (monitor : Fin 16)
  /-- `GOVERNOR_SAMPLE` (R428). -/
  | governorSample (watts : BitVec 16)
  /-- `GOVERNOR_STEP_DOWN` (R428). -/
  | governorStepDown
  /-- `GOVERNOR_STEP_UP` (R428). -/
  | governorStepUp
  /-- `GOVERNOR_EVACUATION` (R428). -/
  | governorEvacuation (cluster : Fin 16)
  /-- `EVACUATION_RELEASE` (R428). -/
  | evacuationRelease
  /-- `CLUSTER_IDLE_TIMEOUT` (R425). -/
  | clusterIdleTimeout (cluster : Fin 24) (long : Bool)
  /-- `CROWN_L2_FLUSH_COMPLETE` (R424). -/
  | crownL2FlushComplete (cluster : Fin 4)
  /-- `CLUSTER_WAKE_COMPLETE` (R424). -/
  | clusterWakeComplete (cluster : Fin 24)
  /-- `START_BEAT` (R324). -/
  | startBeat
  /-- `CONTROL_DOMAIN_DOZE` (R426). -/
  | controlDomainDoze
  /-- `PORT_ENABLE` (R404). -/
  | portEnable (port : Fin 17)
  /-- `PORT_DISABLE` (R404). -/
  | portDisable (port : Fin 17)
  /-- `PORT_WIDTH_WRITE` (R404). -/
  | portWidthWrite (port : Fin 17) (width : BitVec 2)
  /-- `LOSS_OF_SIGNAL` (R403). -/
  | lossOfSignal (port : Fin 17) (lane : Fin 16)
  /-- `LASER_LOW` (R403). -/
  | laserLow (port : Fin 17) (lane : Fin 16)
  /-- `LINK_UP` (R407). -/
  | linkUp (port : Fin 17) (link : Fin 4) (fast : Bool) (width : BitVec 5) (ptm : Bool)
  /-- `TRAINING_TIMEOUT` (R407). -/
  | trainingTimeout (port : Fin 17) (link : Fin 4)
  /-- `TRAINING_SET_RECEIVED` (R409). -/
  | trainingSetReceived (port : Fin 17) (link : Fin 4)
  /-- `DETACHED_RETRY` (R408). -/
  | detachedRetry (port : Fin 17) (link : Fin 4)
  /-- `HOST_GRACE_EXPIRY` (R411). -/
  | hostGraceExpiry (port : Fin 17) (link : Fin 4)
  /-- `L0P_NARROW` (R413). -/
  | l0pNarrow (port : Fin 17) (link : Fin 4)
  /-- `L0P_WIDEN` (R413). -/
  | l0pWiden (port : Fin 17) (link : Fin 4)
  /-- `L1_IDLE_TIMEOUT` (R414). -/
  | l1IdleTimeout (port : Fin 17) (link : Fin 4) (origin : BitVec 64)
  /-- `RDV_ACCEPT` (R415). -/
  | rdvAccept (port : Fin 17) (link : Fin 4) (payload : BitVec 128)
  /-- `RDV_OFFER_TIMEOUT` (R414). -/
  | rdvOfferTimeout (port : Fin 17) (link : Fin 4)
  /-- `RDV_GRID_ACK` (R415). -/
  | rdvGridAck (port : Fin 17) (link : Fin 4) (payload : BitVec 128)
  /-- `RDV_GRID_TIMEOUT` (R415). -/
  | rdvGridTimeout (port : Fin 17) (link : Fin 4)
  /-- `L1_WAKE` (R414). -/
  | l1Wake (port : Fin 17) (link : Fin 4) (withinGuard : Bool)
  /-- `L1_RESYNC` (R416). -/
  | l1Resync (port : Fin 17) (link : Fin 4) (withinGuard : Bool)
  /-- `CREDIT_STALL_TIMEOUT` (R418). -/
  | creditStallTimeout (port : Fin 17) (link : Fin 4)
  /-- `CREDIT_RECOVERY_TIMEOUT` (R418). -/
  | creditRecoveryTimeout (port : Fin 17) (link : Fin 4)
  /-- `REPLAY_FAILURE` (R417). -/
  | replayFailure (port : Fin 17) (link : Fin 4)
  /-- `FLIT_ERROR` (R417). -/
  | flitError (port : Fin 17) (link : Fin 4) (corrected : Bool) (newEpisode : Bool)
  /-- `RECEIVER_OVERFLOW` (R418). -/
  | receiverOverflow (port : Fin 17) (link : Fin 4)
  /-- `FUNCTION_LEVEL_RESET` (R418). -/
  | functionLevelReset (port : Fin 17) (ld : Fin 16)
  /-- `HOT_RESET` (R418). -/
  | hotReset (port : Fin 17) (link : Fin 4)
  /-- `PTM_NO_RESPONSE` (R418). -/
  | ptmNoResponse (port : Fin 17) (link : Fin 4)
  /-- `GET_VERSION` (R162). -/
  | getVersion (ep : SpdmEnd)
  /-- `GET_CAPABILITIES` (R162). -/
  | getCapabilities (ep : SpdmEnd)
  /-- `NEGOTIATE_ALGORITHMS` (R162). -/
  | negotiateAlgorithms (ep : SpdmEnd) (supported : Bool)
  /-- `GET_DIGESTS` (R162). -/
  | getDigests (ep : SpdmEnd)
  /-- `GET_CERTIFICATE` (R162). -/
  | getCertificate (ep : SpdmEnd) (slot : BitVec 4) (offset length : BitVec 16)
  /-- `CHALLENGE` (R162). -/
  | challenge (ep : SpdmEnd) (slot : BitVec 4) (nonce : BitVec 256)
  /-- `GET_MEASUREMENTS` (R166). -/
  | getMeasurements (ep : SpdmEnd) (index : BitVec 8)
  /-- `KEY_EXCHANGE` (R162). -/
  | keyExchange (ep : SpdmEnd) (session : BitVec 32) (mutualAuth : Bool)
  /-- `FINISH` (R162). -/
  | finish (ep : SpdmEnd) (session : BitVec 32) (verifies : Bool)
  /-- `HEARTBEAT` (R162). -/
  | heartbeat (ep : SpdmEnd) (session : BitVec 32)
  /-- `KEY_UPDATE` (R162). -/
  | keyUpdate (ep : SpdmEnd) (session : BitVec 32)
  /-- `END_SESSION` (R165). -/
  | endSession (ep : SpdmEnd) (session : BitVec 32)
  /-- `SPDM_SESSION_TIMEOUT` (R162). -/
  | spdmSessionTimeout (ep : SpdmEnd) (session : BitVec 32)
  /-- `KEY_PROG` (R163). -/
  | keyProg (port : Fin 17) (ld : Fin 16) (stream : BitVec 8) (transmit : Bool) (session : BitVec 32)
  /-- `K_SET_GO` (R163). -/
  | kSetGo (port : Fin 17) (ld : Fin 16) (stream : BitVec 8) (transmit : Bool) (session : BitVec 32)
  /-- `K_SET_STOP` (R163). -/
  | kSetStop (port : Fin 17) (ld : Fin 16) (stream : BitVec 8) (session : BitVec 32)
  /-- `IDE_INTEGRITY_FAILURE` (R163). -/
  | ideIntegrityFailure (port : Fin 17) (ld : Fin 16) (stream : BitVec 8)
  /-- `FM_IDENTIFY` (R399). -/
  | fmIdentify (mctp : Bool)
  /-- `GET_LD_INFO` (R399). -/
  | getLdInfo (mctp : Bool) (port : Fin 17)
  /-- `GET_LD_ALLOCATIONS` (R399). -/
  | getLdAllocations (mctp : Bool) (port : Fin 17)
  /-- `SET_LD_ALLOCATIONS` (R399). -/
  | setLdAllocations (mctp : Bool) (port : Fin 17) (division : List (BitVec 8))
  /-- `GET_QOS_STATUS` (R399). -/
  | getQosStatus (mctp : Bool) (port : Fin 17) (ld : Fin 16)
  /-- `FM_TUNNEL_ITEM` (R364). -/
  | fmTunnelItem (words : List Word)
  /-- `BIND_HID` (R399). -/
  | bindHid (mctp : Bool) (b0 b1 b2 b3 : Byte)
  /-- `UNBIND_HID` (R399). -/
  | unbindHid (mctp : Bool) (b0 b1 b2 b3 : Byte)
  /-- `I3C_REGISTER_WRITE` (R494). -/
  | i3cRegisterWrite (offset : BitVec 16) (data : List Byte)
  /-- `I3C_REGISTER_READ` (R494). -/
  | i3cRegisterRead (count : BitVec 8)
  /-- `SMBUS_BLOCK_WRITE` (R494). -/
  | smbusBlockWrite (offset : BitVec 16) (data : List Byte) (pecOk : Bool)
  /-- `SMBUS_PROCESS_CALL` (R494). -/
  | smbusProcessCall (offset : BitVec 16) (length : BitVec 8) (pecOk : Bool)
  /-- `MCTP_PACKET` (R494). -/
  | mctpPacket (payload : McptPayload)
  /-- `BMC_BUS_TIMEOUT` (R485). -/
  | bmcBusTimeout
  /-- `I3C_TARGET_RESET` (R485). -/
  | i3cTargetReset
  /-- `IBI_RETRY` (R497). -/
  | ibiRetry (accepted : Bool)
  /-- `JTAG_DBGMBOX` (R463); `verifies` and `lock` as for `DBG_UNLOCK` and `DBG_HALT`. -/
  | jtagDbgmbox (words : List Word) (host : List HostByte) (verifies : Bool) (lock : Option (Fin 28 × Nat))
  /-- `JTAG_IDFUSE` (R472). -/
  | jtagIdfuse
  /-- `JTAG_EXTEST` (R459). -/
  | jtagExtest
  /-- `JTAG_TAP_RESET` (R463). -/
  | jtagTapReset
  /-- `BMC_RESET` (R496). -/
  | bmcReset (value : Word)
  /-- `INTERLOCK_CLEAR` (R488). -/
  | interlockClear
  /-- `NOR_READ` (R498). -/
  | norRead
  /-- `NOR_PROGRAM` (R498). -/
  | norProgram
  /-- `NOR_ERASE` (R498). -/
  | norErase
  /-- `NOR_COMMAND_COMPLETE` (R498). -/
  | norCommandComplete (ok : Bool)
  /-- `REC_WIN_LATCH` (R495). -/
  | recWinLatch (persistentWin : Bool)
  /-- `TIME_LO_READ` (R496). -/
  | timeLoRead
  /-- `BEAT_LO_READ` (R496). -/
  | beatLoRead
  /-- `RC_REGISTER_READ` (R491). -/
  | rcRegisterRead (reg : RcReg)
  /-- `WARN_STICKY_CLEAR` (R435). -/
  | warnStickyClear
  /-- `TERP_IRQ_ENABLE_WRITE` (R497). -/
  | terpIrqEnableWrite (value : Word)
  /-- `REGISTER_WRITE` (R491). -/
  | registerWrite (reg : RwReg) (value : Word)
  /-- `INTERLOCK_SAMPLE` (R486). -/
  | interlockSample (a b : Bool)
  /-- `INTERLOCK_CHANNEL_DEBOUNCED` (R486). -/
  | interlockChannelDebounced (b : Bool)
  /-- `INTERLOCK_DISAGREE_TIMEOUT` (R486). -/
  | interlockDisagreeTimeout
  /-- `CHANNEL_CORE_FAULT` (R437). -/
  | channelCoreFault (channel : Fin 64)
  /-- `SRAM_STACK_FAILURE` (R439). -/
  | sramStackFailure (stack : Fin 8)
  /-- `CLUSTER_SLEEP_ENTRY_END` (R424). -/
  | clusterSleepEntryEnd (cluster : Fin 24)
  /-- `DEVICE_NOR_WRITE_COMPLETE` (R457). -/
  | deviceNorWriteComplete (write : NorWrite) (ok : Bool)
  /-- `I3C_COMMON_COMMAND` (R494). -/
  | i3cCommonCommand (ccc : I3cCcc)
  /-- `SHADOW_HEARTBEAT_MISS` (R437). -/
  | shadowHeartbeatMiss
  /-- `PARTNER_L0P_CHANGE` (R413). -/
  | partnerL0pChange (port : Fin 17) (link : Fin 4) (width : BitVec 5)
deriving DecidableEq, Repr

end Sys2Proof
end

