-- ==== Sys2Proof/Machine/State.lean ====
section
/-!
DEFINITION. The state of the BY-960 as plain data: every register, table, queue and buffer that spec/ names, with its
width, the file and rule that name it and its reset value in the field's docstring.
-/

namespace Sys2Proof.Machine

/-! ### Polders, tenant contexts, hosts (02, 03) -/

/-- The states of a polder number (R30, Table 2.4). -/
inductive PolderState where
  | absent | live | draining | drained | scrubbing
deriving DecidableEq, Repr

/-- The action of a `POLDER_DRAIN` in progress (R370). -/
inductive DrainAction where
  | keep | release | reopen
deriving DecidableEq, Repr

/-- A polder range (R29): base TPA, size in bytes and the usable prefix that `POLDER_CREATE` reports. -/
structure PRange where
  base : Nat := 0
  size : Nat := 0
  usable : Nat := 0
deriving DecidableEq, Repr

/-- A PARITY rebuild in progress (R141): the failed channel and the bytes already rebuilt. -/
structure Rebuild where
  failed : Nat := 0
  done : Nat := 0
deriving DecidableEq, Repr

/-- Everything the device holds for one polder number. -/
structure Polder where
  /-- 3 b; 02 R30; reset ABSENT (device reset, R396). -/
  state : PolderState := .absent
  /-- 2 b; 02 R30, 18 R370; reset 0 (DESIGN CHOICE 2: meaningful only while draining). -/
  action : DrainAction := .keep
  /-- 32 b mode word; 16 R327; reset 0. -/
  modes : BitVec 32 := 0
  /-- 128 b slice set; 02 R21; reset empty. -/
  cores : BitVec 128 := 0
  /-- 128 b pool attribute, 1 = B; 02 R23; reset 0 (all C). -/
  poolB : BitVec 128 := 0
  /-- 24 b slice set; 02 R21; reset empty. -/
  ddr : BitVec 24 := 0
  /-- 64 b slice set; 02 R21; reset empty. -/
  nand : BitVec 64 := 0
  /-- 256 b slice set; 02 R21; reset empty. -/
  hbm : BitVec 256 := 0
  /-- 53 b slice set; 02 R21; reset empty. -/
  rows : BitVec 53 := 0
  /-- 32 b slice set; 02 R21; reset empty. -/
  crown : BitVec 32 := 0
  /-- 68 b slice set; 02 R21, R24; reset empty. -/
  quarters : BitVec 68 := 0
  /-- base, size, usable; 02 R29, Table 2.3; reset empty. -/
  dramRange : PRange := {}
  /-- base, size, usable; 02 R29, Table 2.3; reset empty. -/
  hbmRange : PRange := {}
  /-- base, size, usable; 02 R29, Table 2.3; reset empty. -/
  flashRange : PRange := {}
  /-- count of units; 05 R93; reset 0. -/
  rowCacheUnits : Nat := 0
  /-- GiB; 05 R93; reset 0. -/
  promoPool : Nat := 0
  /-- 1 b fatal latch; 07 R143, R148; reset 0. -/
  fatal : Bool := false
  /-- 5 b FAILED_CH; 07 R148 Table 7.8; reset 0x1F. -/
  failedCh : BitVec 5 := 0x1F
  /-- rebuild progress (REBUILDING); 07 R141; reset none. -/
  rebuild : Option Rebuild := none
  /-- 1 b SPARE_USED, with the position the spare took; 07 R141, R148; reset none. -/
  spareFor : Option Nat := none
  /-- 24 b failed DDR channels of the polder that are still lost; 07 R140 to R143; reset 0. -/
  lostDdr : BitVec 24 := 0
  /-- 256 b failed pseudo-channels of the polder; 07 R140; reset 0. -/
  lostHbm : BitVec 256 := 0
  /-- bytes of the work pool in use; 07 R146; reset 0. -/
  workUsed : Nat := 0
  /-- waits for work-pool space; 07 R146; reset 0. -/
  poolWaits : Nat := 0
  /-- 17 × 64 b saturating, by byte offset; 05 R108 Table 5.6; reset 0. -/
  tierCnt : Tab Nat := []
  /-- 12 × 64 b saturating, by byte offset; 06 R126 Table 6.9; reset 0. -/
  flashCnt : Tab Nat := []
  /-- 12 × 64 b saturating, by byte offset; 07 R148 Table 7.7; reset 0. -/
  resilCnt : Tab Nat := []
  /-- 12 × 64 b saturating, by byte offset; 09 R184; reset 0. -/
  weirCnt : Tab Nat := []
  /-- 8 × 64 b saturating, by byte offset; 10 R208; reset 0. -/
  copyCnt : Tab Nat := []
  /-- 13 × 64 b saturating, by byte offset; 11 R234; reset 0. -/
  lookupCnt : Tab Nat := []
  /-- a change into REPRODUCIBLE awaits REOPEN; 16 R333; reset 0. -/
  realign : Bool := false
  /-- key of the atomic predictor hash; 04 R80; drawn at POLDER_CREATE; reset 0. -/
  predictorKey : Nat := 0
  /-- key H of the row cache; 11 R224; drawn at POLDER_CREATE; reset 0. -/
  rowKey : Nat := 0
deriving DecidableEq, Repr

/-- The states of a TCX (R40 Table 2.6, R55 Table 3.6). -/
inductive TcxState where
  | free | bound | live | frozen | resetting
deriving DecidableEq, Repr

/-- A tenant key slot that holds a key (R151): the key's identity in the model and its KEY_ID. -/
structure KeySlot where
  /-- serial of the key drawn or imported (the value of K itself is never readable, R167). -/
  key : Nat := 0
  /-- 64 b; 08 R154. -/
  keyId : BitVec 64 := 0
  /-- the key has reached every key store. -/
  live : Bool := true
deriving DecidableEq, Repr

/-- A digest ring (R316). -/
structure DigestRing where
  enable : Bool := false
  /-- arrival counter that each record raises. -/
  cnt : Nat := 0
  base : Nat := 0
  entries : Nat := 0
  /-- k of the next record. -/
  seq : Nat := 0
deriving DecidableEq, Repr

/-- A tenant context. -/
structure Tcx where
  /-- 3 b; 02 R40; reset FREE. -/
  state : TcxState := .free
  /-- the state RESETTING returns to; 02 R40; reset FREE. -/
  back : TcxState := .free
  /-- 1 b: the reset in progress has RELEASE; 02 R42, R43; reset 0. -/
  release : Bool := false
  /-- 6 b; 02 R40; reset 0. -/
  polder : Nat := 0
  /-- 16 b; 02 R41; reset 0. -/
  epoch : BitVec 16 := 0
  /-- 16 × 64 b saturating; 10 R194; reset 0. -/
  arrival : Tab Nat := []
  /-- 64 b timing-dependent-choice counter; 15 R321; reset 0. -/
  tdc : Nat := 0
  /-- digest ring; 15 R316; reset disabled. -/
  digest : DigestRing := {}
  /-- 4 key slots; 08 R151; reset erased. -/
  keys : Tab KeySlot := []
  /-- tag failures; 08 R161; reset 0. -/
  tagFails : Nat := 0
  /-- sluice (port × 16 + LD) of the last successful `KEY_LOAD`; 08 R161; reset none. -/
  keySluice : Option Nat := none
deriving DecidableEq, Repr

/-- A segment entry (R46, Table 3.1), field by field. -/
structure Segment where
  valid : Bool := false
  dvaBase : BitVec 31 := 0
  a : Bool := false
  w : Bool := false
  r : Bool := false
  length : BitVec 29 := 0
  hint : BitVec 3 := 0
  tpaBase : BitVec 29 := 0
  fill : BitVec 32 := 0
  gen : BitVec 16 := 0
  fillPoison : Bool := false
  keySlot : BitVec 2 := 0
deriving DecidableEq, Repr

/-- One range of a HIT entry (R34, Table 2.5). -/
structure HitRange where
  a : Bool := false
  w : Bool := false
  r : Bool := false
  base : BitVec 29 := 0
  length : BitVec 29 := 0
deriving DecidableEq, Repr

/-- A HIT entry and the per-HID counters (R34, R38, R69, R83). -/
structure HitEntry where
  /-- 1 b; 02 R34; reset 0. -/
  valid : Bool := false
  /-- 1 b; 02 R34; reset 0. -/
  admin : Bool := false
  /-- 1 b; 02 R34, 04 R82; reset 0. -/
  dead : Bool := false
  /-- 1 b: the dead-host sweep has not reached step 4; 04 R82; reset 0. -/
  sweeping : Bool := false
  /-- 64 b; 02 R34; reset 0. -/
  mask : BitVec 64 := 0
  /-- 16 ranges; 02 R34; reset 0. -/
  ranges : List HitRange := []
  /-- HIT-violation counter; 02 R38; reset 0. -/
  violations : Nat := 0
  /-- snoop timeouts; 04 R83; reset 0. -/
  timeouts : Nat := 0
  /-- messages after DEAD; 04 R83; reset 0. -/
  late : Nat := 0
  /-- protocol violations; 04 R69, 20 Table 20.10; reset 0. -/
  protocol : Nat := 0
deriving DecidableEq, Repr

/-! ### The directory and the flows at the homes (04) -/

/-- STATE of a directory slot (Table 4.2). -/
inductive LineState where
  | invalid | shared | owned
deriving DecidableEq, Repr

/-- A directory slot with its extension when coarse (R66). Slots of a set stand least recently used first. -/
structure DirSlot where
  /-- way 0 to 15 (the even head way when coarse). -/
  way : Nat := 0
  state : LineState := .invalid
  /-- FMT: coarse, vector in way + 1. -/
  coarse : Bool := false
  /-- TAG, 24 b, L[43:20]. -/
  tag : Nat := 0
  /-- AGENT: holders are crown cores. -/
  crown : Bool := false
  /-- valid sharers, sharer 0 first; in OWNED the owner. For crown sharers least recently used first. -/
  ids : List Nat := []
  /-- 64 b group vector of a coarse slot. -/
  vec : BitVec 64 := 0
  /-- the polder the slot counts for (R68). -/
  polder : Nat := 0
deriving DecidableEq, Repr

/-- Who asked for a line. -/
inductive Asker where
  /-- a host CXL.mem request: HID, port, LD, tag. -/
  | host (hid port ld tag : Nat)
  /-- a line of an engine, crown or I/O access, by its tile number. -/
  | tile (id : Nat)
  /-- a line of the running command with this serial. -/
  | command (serial : Nat)
  /-- the device itself (directory eviction, HIT sweep, drain). -/
  | device
  /-- the combining stage for the fetch-adds of a (address, key, kind) (R188). -/
  | stage (tpa key kind : Nat)
deriving DecidableEq, Repr

/-- What was asked of the home of a line. -/
inductive LineOp where
  | readShared | readOwned | readAny | invOwned | engineRead | crownRead
  /-- a write; `meta` is the MetaValue of a host's (0 any, 1 shared, 2 invalid). -/
  | write (metaValue : Nat)
  | specRead
  /-- Table 4.5 OP and operand size in bytes. -/
  | atomic (op : Nat) (bytes : Nat) (operand new : Nat)
  /-- invalidation of every host copy (directory eviction, drain, recall for a command's write). -/
  | evict
  /-- invalidation of the copy of one host, where its HIT entry no longer lets it hold the line (R36). -/
  | evictHost (hid : Nat)
deriving DecidableEq, Repr

/-- A request at the home of a line (R70). -/
structure LineReq where
  op : LineOp
  asker : Asker
  /-- TPA of the access (its line is tpa / 64). -/
  tpa : Nat
  /-- byte enables of a write. -/
  mask : BitVec 64 := 0
  data : BitVec 512 := 0
  poison : Bool := false
deriving DecidableEq, Repr

/-- An outstanding BISnp (R69, R81). -/
structure Snoop where
  hid : Nat
  /-- `BISnpData` (otherwise `BISnpInv`). -/
  isData : Bool := false
  /-- timeout in force when it was sent, in units of 10 µs (R81). -/
  timeout : Nat := 200
  /-- held because the link of a bound LD is down (R82, R410). -/
  held : Bool := false
deriving DecidableEq, Repr

/-- What stands in the way of the end of a flow. -/
structure Flow where
  req : LineReq
  /-- outstanding snoops. -/
  snoops : List Snoop := []
  /-- the medium read is still outstanding. -/
  medium : Bool := false
  /-- the tag of the medium data failed and could not be repaired. -/
  bad : Bool := false
  /-- a writeback superseded the medium data. -/
  writeback : Bool := false
  /-- `BIConflict` messages to answer at the end: (port*16+LD, tag). -/
  conflicts : List (Nat × Nat) := []
  /-- requests waiting in the line queue, oldest first. -/
  queue : List LineReq := []
  /-- reads that the combining stage has merged with the one in service, oldest first (R187). -/
  members : List LineReq := []
  /-- tick at which the request in service passed the combining stage. -/
  opened : Nat := 0
  /-- the snoops look for unknown holders of a line in a set with a LOST way (R438). -/
  probe : Bool := false
deriving DecidableEq, Repr

/-- The coherence state of the four homes. -/
structure CohSt where
  /-- directory sets, die × 2^20 + set index; 04 R65, R66; reset all INVALID. -/
  sets : Tab (List DirSlot) := []
  /-- flows in service, by line number L; 04 R70; reset none. -/
  flows : Tab Flow := []
  /-- 512 per die: lines in the eviction buffers; 04 R68; reset empty. -/
  evicting : List Nat := []
  /-- 1,024 per die: lines in the forwarding buffers; 04 R72; reset empty. -/
  forwarding : List Nat := []
  /-- times a forwarding buffer was full; 04 R72; reset 0. -/
  fwdFull : Nat := 0
  /-- 256 per die: lines in the ALU line buffers, least recently used first; 04 R79; reset empty. -/
  alu : List Nat := []
  /-- 4 × 4,096 × 2 b, die × 4096 + index; 04 R80; reset 0. -/
  predictor : Tab (BitVec 2) := []
  /-- 14 b COH_TIMEOUT.TIMEOUT; 04 R81 Table 4.6; reset 200. -/
  timeout : BitVec 14 := 200
  /-- cross-polder evictions; 04 R68; reset 0. -/
  crossEvict : Nat := 0
  /-- directory ways out of use (LOST), die × 2^24 + set × 16 + way; 22 R437; reset none. -/
  lost : List Nat := []
deriving DecidableEq, Repr

/-! ### The tray: bytes, poison and their errors (07) -/

/-- Why a line is poisoned (R132, R136 separates two causes for the fatal latch). -/
inductive PoisonCause where
  | uncorrectable | written | deadHost | tagFail | diverged
deriving DecidableEq, Repr

structure MemSt where
  /-- tray bytes by cell address (the TPA; on flash the channel and its offset), as plaintext under the key that wrote them; 02 R26, 07 R128; reset: nothing listed, reads 0 (R388). -/
  bytes : List Host.Cell := []
  /-- poison marks by line of the cell address; 07 R132; reset none. -/
  poison : Tab PoisonCause := []
  /-- key under which a written flash line is stored, by line of the cell address (0 = in clear); 08 R150, R151, R154; kept on flash. -/
  sealed : Tab Nat := []
deriving DecidableEq, Repr

/-- Resilience state of the channels. -/
structure ResSt where
  /-- 24 b failed marks, kept by the terp; 07 R140; reset 0. -/
  failedDdr : BitVec 24 := 0
  /-- 256 b failed marks, kept by the terp; 07 R140; reset 0. -/
  failedHbm : BitVec 256 := 0
  /-- corrected errors per DDR channel (0 to 23) and pseudo-channel (256 + pc); 07 R129; reset 0. -/
  corrected : Tab Nat := []
  /-- when the corrected errors of each DRAM device within the last hour came, by channel × 64 + device; 07 R129; reset none. -/
  device : Tab (List Nat) := []
  /-- distinct lines found uncorrectable within 1 ms and when, by channel key; 07 R140; reset none. -/
  uncorrectable : Tab (List (Nat × Nat)) := []
  /-- commands waiting for work-pool space: running serials, oldest first; 07 R146; reset none. -/
  poolWaiters : List Nat := []
deriving DecidableEq, Repr

/-! ### Tiers (05) -/

/-- A promoted 64 KiB block (R94, R95). -/
structure Promoted where
  pin : Bool := false
  /-- the copy has been installed (otherwise the copy is being made). -/
  installed : Bool := false
  polder : Nat := 0
deriving DecidableEq, Repr

/-- A host-tier window descriptor (R98, Table 5.4). -/
structure Window where
  valid : Bool := false
  w : Bool := false
  r : Bool := false
  owner : BitVec 12 := 0
  hid : BitVec 8 := 0
  hpaBase : BitVec 52 := 0
  length : BitVec 16 := 0
deriving DecidableEq, Repr

structure TierSt where
  /-- 4,096 window descriptors; 05 R98; reset 0. -/
  windows : Tab Window := []
  /-- failed accesses per window; 05 R100; reset 0. -/
  windowFails : Tab Nat := []
  /-- tick after the last record of a window (one per 1 ms); 05 R100; reset none. -/
  windowNoted : Tab Nat := []
  /-- promoted blocks by TPA / 65536; 05 R94, R95; reset none. -/
  promoted : Tab Promoted := []
  /-- promoted blocks, least recently read first; 05 R94; reset none. -/
  promoLru : List Nat := []
  /-- reads of each block in the current sampling period; 05 R94; reset 0. -/
  sample : Tab Nat := []
  /-- TH reads outstanding by tile number: window, offset of the first such byte in the tile, bytes, second window + 1 (0 = none); 05 R100; reset none. -/
  thReads : Tab (Nat × Nat × Nat × Nat) := []
  /-- T3 reads of spilled items that have still to arrive: serial, TPA / 4096, polder; 05 R103; reset none. -/
  spilledReads : List (Nat × Nat × Nat) := []
deriving DecidableEq, Repr

/-! ### Flash (06) -/

/-- STATE of a map entry (Table 6.3). -/
inductive MapState where
  | unmapped | qlc | slc | sram | unreadable
deriving DecidableEq, Repr

/-- A map entry (R113, Table 6.3). -/
structure MapEntry where
  state : MapState := .unmapped
  die : Nat := 0
  plane : Nat := 0
  block : Nat := 0
  page : Nat := 0
deriving DecidableEq, Repr

/-- What a die is asked to do. -/
inductive DieOpKind where
  | read | programSlc | programQlc | erase
deriving DecidableEq, Repr

/-- An operation queued at or running on a die (R116). -/
structure DieOp where
  id : Nat
  kind : DieOpKind
  /-- the map unit concerned (R113), when any. -/
  unit : Nat := 0
  block : Nat := 0
  page : Nat := 0
  /-- tick at which it was issued at the channel core. -/
  issued : Nat := 0
  /-- times an erase has been suspended. -/
  suspends : Nat := 0
  /-- an erase is suspended. -/
  suspended : Bool := false
  /-- re-read level reached (R114). -/
  level : Nat := 0
  /-- an operation made next by starvation (R116). -/
  urgent : Bool := false
  /-- tick at which the operation under way ends, as the media engine reports it (R103, R116). -/
  until_ : Nat := 0
deriving DecidableEq, Repr

/-- One NAND die (R110, R116, R122). -/
structure Die where
  failed : Bool := false
  running : Option DieOp := none
  reads : List DieOp := []
  writes : List DieOp := []
  /-- retirement reserve left (Table 6.2). -/
  reserve : Nat := 10
  /-- free superblocks of the data region (Table 6.2). -/
  free : Nat := 994
  /-- erase count per superblock. -/
  erases : Tab Nat := []
  /-- reads since the last erase, per superblock. -/
  readCount : Tab Nat := []
  /-- superblocks of the data region in use, in the order of their allocation. -/
  used : List Nat := []
  /-- valid units per superblock in use. -/
  valid : Tab Nat := []
  retired : List Nat := []
  /-- superblocks scheduled for refresh. -/
  refresh : List Nat := []
  /-- superblocks whose erase was abandoned by a power loss, to erase again (R125). -/
  reerase : List Nat := []
  /-- consecutive stripes whose reads failed (R123). -/
  stripeFails : Nat := 0
deriving DecidableEq, Repr

inductive ChannelHealth where
  | ok | readOnly | failed
deriving DecidableEq, Repr

/-- A staged flash write, waiting for programs or journal room (R117, R119). -/
structure FlashWrite where
  id : Nat
  tpa : Nat
  data : List (BitVec 8) := []
  poison : Bool := false
  /-- already acknowledged (staged mode). -/
  acked : Bool := false
  /-- in the SRAM journal. -/
  staged : Bool := false
  /-- mirror programs completed, 0 to 2. -/
  programs : Nat := 0
  /-- the tile to acknowledge. -/
  tile : Option Nat := none
  polder : Nat := 0
  /-- what its cells held before it, what its lines were marked and sealed with, and its unit's map entry (R449, R450). -/
  old : List (BitVec 8) := []
  oldMarks : List (Option PoisonCause × Nat) := []
  oldMap : MapEntry := {}
deriving DecidableEq, Repr

/-- One NAND channel and its channel core (06). -/
structure Nand where
  /-- 1 b; 06 R110; reset absent. -/
  present : Bool := false
  /-- ok / read-only / failed; 06 R123; kept by exhaustion. -/
  health : ChannelHealth := .ok
  /-- read-only because a reserve is exhausted; 06 R123; kept on flash. -/
  exhausted : Bool := false
  /-- map loaded (T3 accesses stop completing HELD); 06 R124; reset 0. -/
  mapLoaded : Bool := false
  /-- staged mode (otherwise programmed); 06 R117; reset 0. -/
  staged : Bool := false
  /-- bytes used in the 1 MiB SRAM journal; 06 R117, R119; reset 0. -/
  journalUsed : Nat := 0
  /-- writes in progress, oldest first; 06 R117, R119; reset none. -/
  writes : List FlashWrite := []
  /-- 16 dies; 06 R110. -/
  dies : Tab Die := []
  /-- updates per map segment since its checkpoint; 06 R124; reset 0. -/
  updates : Tab Nat := []
  /-- sequence number of the replicas per map segment; 06 R124; kept on flash. -/
  seqNos : Tab Nat := []
  /-- number of the next staged write (the model's own name for it). -/
  nextWrite : Nat := 1
deriving DecidableEq, Repr

structure FtlSt where
  /-- 64 channels; 06 R110. -/
  chans : Tab Nand := []
  /-- working map by map unit (TPA / 16 KiB of the unit's first byte); 06 R113; rebuilt from flash. -/
  map : Tab MapEntry := []
  /-- granules (TPA / 1 GiB) in BULK format; 06 R112; reset PAGE, kept on flash. -/
  bulk : List Nat := []
  /-- HOLDUP_OK has been asserted for 100 ms; 06 R117; reset 0. -/
  qualified : Bool := false
deriving DecidableEq, Repr

/-! ### Keys and links (08) -/

/-- The binding of a granule (R152). -/
inductive Binding where
  | unbound | bound (tcx slot : Nat) | stale
deriving DecidableEq, Repr

/-- A fill of a STALE granule in progress (R152). -/
structure Fill where
  granule : Nat
  tcx : Nat
  slot : Nat
  /-- serial of the requesting key. -/
  key : Nat
deriving DecidableEq, Repr

/-- How far an SPDM session has come (R162). -/
inductive SpdmPhase where
  | start | version | capabilities | negotiated
deriving DecidableEq, Repr

/-- An SPDM session (R162). -/
structure Session where
  id : Nat
  /-- finished (FINISH accepted). -/
  established : Bool := false
  /-- draw that stands for its master secret, from which the transport key follows; 08 R154. -/
  secret : Nat := 0
deriving DecidableEq, Repr

/-- State of an IDE stream (R163). -/
inductive IdeState where
  | idle | keyed | secure | insecure
deriving DecidableEq, Repr

/-- An IDE selective stream (R163). -/
structure IdeStream where
  state : IdeState := .idle
  /-- session that programmed its keys. -/
  session : Nat := 0
  /-- directions with a programmed key set: bit 0 receive, bit 1 transmit. -/
  programmed : BitVec 2 := 0
  /-- directions active. -/
  active : BitVec 2 := 0
  /-- an alternate key set is programmed and pending. -/
  alternate : Bool := false
deriving DecidableEq, Repr

structure KeySt where
  /-- granule bindings: 2 × granule number + (0 for 2 MiB, 1 for 1 GiB granules); 08 R152; reset UNBOUND. -/
  bindings : Tab Binding := []
  /-- fills in progress; 08 R152; reset none. -/
  fills : List Fill := []
  /-- negotiation phase per SPDM endpoint, port*16+LD, 272 = MCTP; 08 R162; reset start. -/
  spdm : Tab SpdmPhase := []
  /-- sessions per SPDM endpoint; 08 R162; reset none. -/
  sessions : Tab (List Session) := []
  /-- streams, (port*16+LD) × 256 + stream identifier; 08 R163; reset IDLE. -/
  streams : Tab IdeStream := []
  /-- keys for which `KEY_LOAD` GENERATE has written a blob: debug lock OPEN, key, KEY_ID; 08 R154; kept (a blob unwraps on this device for ever). -/
  made : List (Bool × Nat × BitVec 64) := []
  /-- tick after the last tag-failure report of a TCX (one per 1 ms); 08 R161; reset none. -/
  tagNoted : Tab Nat := []
deriving DecidableEq, Repr


/-! ### The weir and the levee links (01, 09) -/


/-- A two-rate three-colour policer (R180); buckets in bytes, rates in MB/s. -/
structure Policer where
  enable : Bool := false
  cir : Nat := 0
  pir : Nat := 0
  cbs : Nat := 0
  pbs : Nat := 0
  /-- tokens left in the committed and peak buckets, in thousandths of a byte, at tick `last`. -/
  tc : Nat := 0
  tp : Nat := 0
  last : Nat := 0
deriving DecidableEq, Repr

/-- A queued frame with where its cells lie. -/
structure QFrame where
  frame : Frame
  cells : Nat := 1
  /-- admitted into the shared pool (otherwise into the reservation). -/
  shared : Bool := false
  /-- it took the express path. -/
  express : Bool := false
  input : Nat := 0
deriving DecidableEq, Repr

/-- A frame held at its input (R178). -/
structure HeldFrame where
  frame : Frame
  input : Nat := 0
  since : Nat := 0
deriving DecidableEq, Repr

/-- A WEIR_RED register (Table 9.8). -/
structure RedReg where
  pmax : BitVec 8 := 0
  max : BitVec 12 := 0
  min : BitVec 12 := 0
deriving DecidableEq, Repr

/-- A periodic `WEIR_STATS` stream (R184). -/
structure StatStream where
  period : Nat := 0
  clear : Bool := false
  dva : BitVec 52 := 0
deriving DecidableEq, Repr

structure WeirSt where
  /-- queued frames, ((die × 17 + destination endpoint) × 8 + class), oldest first; 09 R177, R179; reset empty. -/
  queues : Tab (List QFrame) := []
  /-- frames held at their inputs, oldest first; 09 R178; reset none. -/
  held : List HeldFrame := []
  /-- 4,352 policers, each with its own buckets at the four entry dies, 4 × policer + die; 09 R180; reset disabled. -/
  policers : Tab Policer := []
  /-- RED averages A in 1/512 cells, by queue key; 09 R182; reset 0. -/
  average : Tab Nat := []
  /-- 32 b WEIR_RED_G; 09 R182 Table 9.8; reset PMAX 16, MAX 64, MIN 16. -/
  redG : RedReg := ⟨16, 64, 16⟩
  /-- 32 b WEIR_RED_Y; 09 R182 Table 9.8; reset PMAX 32, MAX 32, MIN 8. -/
  redY : RedReg := ⟨32, 32, 8⟩
  /-- 32 b WEIR_RED_R; 09 R182 Table 9.8; reset PMAX 128, MAX 8, MIN 0. -/
  redR : RedReg := ⟨128, 8, 0⟩
  /-- SEQ of the next frame that a flow's resequencer releases, ((die × 17 + source) × 17 + destination) × 8 + class; 09 R175; reset 0. -/
  seqs : Tab (BitVec 16) := []
  /-- SEQs of dropped frames that a flow has still to pass over, by flow; 09 R175, R182; reset none. -/
  skipped : Tab (List Nat) := []
  /-- failed attachments, die × 33 + attachment; 09 R171; reset none. -/
  failedAtt : List Nat := []
  /-- consecutive failed replays per attachment; 09 R171; reset 0. -/
  replays : Tab Nat := []
  /-- frames discarded by a failed check; 09 R171; reset 0. -/
  discards : Nat := 0
  /-- corrected frame-memory errors; 09 R183; reset 0. -/
  corrected : Nat := 0
  /-- periodic streams by TCX; 09 R184; reset none. -/
  streams : Tab StatStream := []
  /-- snapshots lost per TCX since the last delivered; 09 R184; reset 0. -/
  lostSnaps : Tab Nat := []
  /-- colour of the last frame of each HID (DevLoad); 09 R181; reset green. -/
  lastColour : Tab (BitVec 2) := []
  /-- 17 per die: deficit of the round robin, (die × 17 + endpoint) × 8 + class, in frames; 09 R179; reset 0. -/
  deficit : Tab Nat := []
  /-- last 64 atomics of a source endpoint at a home: tags and results; 09 R183; reset none. -/
  atomics : Tab (List (Nat × BitVec 64)) := []
deriving DecidableEq, Repr

/-- One levee link (R16). -/
structure Levee where
  /-- failed lanes per lane group, 8 per direction. -/
  failedLanes : Tab Nat := []
  /-- lanes waiting for a spare at the next retrain, per group. -/
  pendingLanes : Tab Nat := []
  /-- groups switched off. -/
  groupsOff : List Nat := []
  retraining : Bool := false
  down : Bool := false
  /-- next sequence number the receiver accepts, per direction. -/
  nextSeq : Tab Nat := []
  /-- counters: lane repairs, group losses, retrains, detours, discarded frames. -/
  repairs : Nat := 0
  losses : Nat := 0
  retrains : Nat := 0
  detours : Nat := 0
  discarded : Nat := 0
deriving DecidableEq, Repr

/-! ### Combining, copies, counters, collectives (10) -/

/-- Fetch-adds to one address with one combining key, of one kind: those in flight beyond the stage and the batch forming
behind them (R188). Kinds: 0 host AtomicOps, 1 `ATOMIC` commands, 2 engine fetch-adds; plus 4 × the operand size. -/
structure FetchBatch where
  tpa : Nat
  bytes : Nat
  key : Nat
  kind : Nat
  /-- what is in flight beyond the stage, oldest first: the addends with their askers. -/
  sent : List (List (Asker × Nat)) := []
  /-- old values that have come back for the oldest of them, and whether each is poisoned or its tag failed. -/
  results : List (Nat × Bool × Bool) := []
  /-- the batch forming. -/
  forming : List (Asker × Nat) := []
deriving DecidableEq, Repr

/-- A best-effort frame waiting to be resent (R192). -/
structure Resend where
  serial : Nat
  frame : Frame
  /-- wait before its next resend in µs. -/
  backoff : Nat := 1
  /-- a notice has come and the resend is still to be made. -/
  due : Bool := true
deriving DecidableEq, Repr

/-- A push slot of a sluice (R197). -/
structure PushSlot where
  /-- serial of the command it is bound to. -/
  serial : Nat
  length : Nat
  /-- bytes passed to the command in complete chunks. -/
  passed : Nat := 0
  /-- stream bytes that have arrived in the buffers, by stream offset. -/
  arrived : List Host.Cell := []
  /-- the hold timer runs. -/
  timer : Bool := false
deriving DecidableEq, Repr

/-- A member of a collective group (R199). -/
structure Member where
  rank : Nat
  serial : Nat
deriving DecidableEq, Repr

/-- An open collective group, keyed polder × 2^32 + GROUP_ID. -/
structure Group where
  opcode : Nat
  /-- the fixed parameters: the words of the first member with RANK, PUSH, SLOT, SRC, DST and counter fields cleared. -/
  params : List (BitVec 32)
  count : Nat
  members : List Member := []
  /-- every member has joined. -/
  full : Bool := false
deriving DecidableEq, Repr

structure CopySt where
  /-- fetch-adds and batches; 10 R188; reset none. -/
  batches : List FetchBatch := []
  /-- best-effort frames awaiting resend; 10 R192; reset none. -/
  resends : List Resend := []
  /-- bytes already copied by a running copy, by serial; 10 R192, R193; reset 0. -/
  progress : Tab Nat := []
  /-- 16 per sluice, sluice × 16 + slot; 10 R197; reset free. -/
  slots : Tab PushSlot := []
  /-- polder of the command that last held a push slot, plus 1; the model's own, for the counter of R208; reset 0. -/
  lastSlot : Tab Nat := []
  /-- 10 b BURST_HOLD.HOLD; 10 R198 Table 10.3; reset 10. -/
  hold : BitVec 10 := 10
  /-- open groups; 10 R199; reset none. -/
  groups : Tab Group := []
deriving DecidableEq, Repr

/-! ### Tables, lookups, row caches (11) -/

/-- A version of a table (R228) with its version block (Table 11.2). -/
structure Version where
  number : Nat := 1
  delta : Bool := false
  base : Nat := 0
  rowsM1 : Nat := 0
  defValid : Bool := false
  dflt : Nat := 0
  replValid : Bool := false
  replLog2 : Nat := 0
  repl : Nat := 0
  /-- overlay capacity in rows. -/
  overlayCap : Nat := 0
  /-- staged rows: row index and its bytes. -/
  overlay : Tab (List (BitVec 8)) := []
  /-- staged rows read from poisoned lines after the flip. -/
  overlayPoison : List Nat := []
  /-- the overlay has been merged or was never there. -/
  merged : Bool := true
  /-- the merge is running. -/
  merging : Bool := false
  /-- serials of the commands pinned to it. -/
  pins : List Nat := []
  /-- bytes of work pool that its overlay takes. -/
  pool : Nat := 0
  /-- the counter to raise when it retires (COUNT, CNT of its COMMIT). -/
  countTo : Option Nat := none
  /-- its work-pool state has been lost (R147). -/
  lost : Bool := false
deriving DecidableEq, Repr

/-- A table (R210), keyed 64 × TCX + table. -/
structure Table where
  fmt : Nat := 0
  width : Nat := 0
  stride : Nat := 0
  bias : Nat := 0
  current : Version := {}
  opened : Option Version := none
  retiring : List Version := []
  next : Nat := 2
  /-- serial of the DESTROY that waits for the pins. -/
  destroying : Option Nat := none
deriving DecidableEq, Repr

/-- A way of the row cache (R224). -/
structure CacheWay where
  line : Nat
  pin : Bool := false
  snapshot : Nat := 0
deriving DecidableEq, Repr

structure TableSt where
  /-- defined tables, 64 × TCX + table; 11 R210; reset none. -/
  tables : Tab Table := []
  /-- row-cache sets, polder × 2^24 + set, least recently used first; 11 R224; reset empty. -/
  cache : Tab (List CacheWay) := []
  /-- sketch counters 8 b, (polder × 4 + row) × 2^24 + index; 11 R225; reset 0. -/
  sketch : Tab Nat := []
  /-- increments since the last halving, per polder; 11 R225; reset 0. -/
  increments : Tab Nat := []
deriving DecidableEq, Repr


/-! ### Searches, engines, kernels, crown runs, digests, modes (13 to 16) -/

/-- A scan of one command on one NAND channel (R268). -/
structure Scan where
  serial : Nat
  /-- stages 1 and 2 have ended on this channel. -/
  done : Bool := false
  /-- the scan took its fallback (R270). -/
  spilled : Bool := false
deriving DecidableEq, Repr

/-- A search between its start and its publication (R260, R261): what its engines have exchanged. -/
structure SearchRun where
  /-- channels whose scans have not ended. -/
  open_ : List Nat := []
  /-- stage 3 has begun. -/
  stage3 : Bool := false
  /-- last τ sent per scan engine: channel × 64 + query, score bits. -/
  tau : Tab (BitVec 32) := []
deriving DecidableEq, Repr

structure SearchSt where
  /-- running scan per channel; 13 R268; reset none. -/
  running : Tab Scan := []
  /-- 32 queued scans per channel, oldest first; 13 R268; reset none. -/
  queued : Tab (List Scan) := []
  /-- searches in progress by serial; 13 R260, R261; reset none. -/
  runs : Tab SearchRun := []
deriving DecidableEq, Repr

/-- The local store and scratch share of one compute core (R298 to R302). -/
structure CoreStore where
  /-- local-store bytes by offset; a listed line's written bit is set. -/
  localMem : List Host.Cell := []
  /-- written lines of the local store. -/
  localWritten : List Nat := []
  /-- poisoned lines of the local store. -/
  localPoison : List Nat := []
  /-- scratch bytes by offset. -/
  scratch : List Host.Cell := []
  scratchWritten : List Nat := []
  scratchPoison : List Nat := []
  /-- TCX of the previous tile. -/
  lastTcx : Option Nat := none
  /-- TCXs served since the bits were last cleared. -/
  served : List Nat := []
  /-- 16 engine counters of 16 b (R310). -/
  counters : Tab Nat := []
  /-- corrected SEC-DED errors. -/
  corrected : Nat := 0
deriving DecidableEq, Repr

/-- A tile or access on its way to or from its homes. -/
structure Tile where
  /-- running command it belongs to, when any. -/
  serial : Nat := 0
  tcx : Nat := 0
  epoch : BitVec 16 := 0
  /-- Table 3.10 UNIT and ENGINE. -/
  unit : Nat := 0
  engine : Nat := 0
  stream : Nat := 0
  write : Bool := false
  dva : Nat := 0
  length : Nat := 0
  /-- destination offset in the local store (bit 31 = scratch). -/
  dest : Nat := 0
  /-- segment entry numbers in use, with the GEN at translation. -/
  segs : List Nat := []
  /-- parts not yet delivered or acknowledged: line, offset in the tile, offset in the line, bytes. -/
  left : List (Nat × Nat × Nat × Nat) := []
  /-- bytes delivered so far, by offset in the tile. -/
  got : List Host.Cell := []
  /-- offsets in the tile of the first bytes of its poisoned lines. -/
  bad : List Nat := []
  /-- some line was delivered poisoned. -/
  poisoned : Bool := false
  /-- the tag of some line failed. -/
  tagFailed : Bool := false
  /-- the old value an atomic returned (R79). -/
  result : Option (BitVec 64) := none
  /-- an access of a crown core (R76). -/
  crown : Bool := false
deriving DecidableEq, Repr

/-- A miss of a segment cache (R57, R58). -/
structure SegMiss where
  unit : Nat
  engine : Nat
  stream : Nat
  entry : Nat
  /-- the entry changed since the fill was sent: discard and fetch again (R52). -/
  stale : Bool := false
deriving DecidableEq, Repr

/-- The access that waits for a miss. -/
structure WaitingAccess where
  unit : Nat
  engine : Nat
  stream : Nat
  tcx : Nat
  serial : Nat := 0
  write : Bool
  dva : Nat
  length : Nat
  dest : Nat
  data : List (BitVec 8) := []
  poison : Bool := false
  /-- an atomic: OP, operand, new value and whether a crown core makes it far or near (R79, R80). -/
  atomic : Option (Nat × Nat × Nat × Bool) := none
deriving DecidableEq, Repr

/-- One cached segment entry of a unit's 16 (R57), least recently used first in its list. -/
structure CachedSeg where
  tcx : Nat
  seg : Nat
  entry : Segment
deriving DecidableEq, Repr

/-- An item of a kernel phase (or of another migrating command): where it runs and whether it is accepted (R323). -/
structure WorkItem where
  /-- core it was re-dispatched to by an earlier migration. -/
  core : Option Nat := none
  /-- core of the new placement while a migration is before its cutover. -/
  newCore : Option Nat := none
  /-- cores it ran on before. -/
  past : List Nat := []
  accepted : Bool := false
deriving DecidableEq, Repr

/-- A command whose items run on compute cores (R309, R323). -/
structure Placement where
  /-- cores of the phase under way, ascending. -/
  cores : List Nat := []
  /-- cores taken (R309). -/
  want : Nat := 0
  /-- first INPUT segment of the image (R23). -/
  inputSeg : Option Nat := none
  phase : Nat := 0
  /-- the phase has begun. -/
  begun : Bool := false
  /-- cores whose migration waits for the cutover of the one under way. -/
  queued : List Nat := []
  phases : Nat := 1
  /-- ITEMS of each phase. -/
  counts : List Nat := []
  /-- BOUND of each phase. -/
  bounds : List Bool := []
  items : Tab WorkItem := []
  epoch : Nat := 0
  /-- a migration is before its cutover C. -/
  migrating : Bool := false
  migrated : Bool := false
  /-- results discarded under the cutover rule. -/
  discarded : Nat := 0
  /-- some accumulation fell back (R294). -/
  overflow : Bool := false
deriving DecidableEq, Repr

/-- A crown run (R311 to R315). -/
structure CrownRun where
  cores : List Nat := []
  /-- cores that have ended, with their exit values. -/
  exits : Tab (BitVec 32) := []
  exitCore : Nat := 0
  handler : Bool := false
  poisoned : Bool := false
  /-- serials of submitted commands that are outstanding, and the CID under which the run knows them. -/
  outstanding : List (Nat × Nat) := []
  /-- completion entries of submitted commands not yet taken: CID and the entry's words. -/
  done : List (Nat × List (BitVec 32)) := []
  /-- cores blocked in a service: core and what it waits for. -/
  blocked : List (Nat × Nat) := []
  /-- LOG calls dropped, per core. -/
  logDrops : Tab Nat := []
  /-- tick of the last LOG record, per core. -/
  logTick : Tab Nat := []
  /-- every core has ended; the run waits for its outstanding commands. -/
  ended : Bool := false
  trap : Option Nat := none
  seed : BitVec 64 := 0
deriving DecidableEq, Repr

structure EngineSt where
  /-- 128 local stores and scratch shares; 14 R298 to R302; reset written bits clear. -/
  stores : Tab CoreStore := []
  /-- outstanding tiles; 14 R278, 03 R60; reset none. -/
  tiles : Tab Tile := []
  /-- next tile number (the model's own name for a tile). -/
  nextTile : Nat := 1
  /-- 16-entry segment caches, unit × 16 + engine; 03 R57; reset invalid. -/
  segCaches : Tab (List CachedSeg) := []
  /-- outstanding segment misses (4 per stream); 03 R58; reset none. -/
  misses : List SegMiss := []
  /-- accesses waiting for a fill or for room in their miss queue; 03 R58; reset none. -/
  waiting : List WaitingAccess := []
  /-- TCX of the previous tile per unit × 16 + engine; 03 R57; reset none. -/
  lastTcx : Tab Nat := []
  /-- placements of running kernels and lookups, by serial; 15 R309, R323; reset none. -/
  placements : Tab Placement := []
  /-- crown runs by serial; 15 R311; reset none. -/
  runs : Tab CrownRun := []
  /-- lines held in crown L2s with TEXT and CONST are private; lines poisoned in an L2: core × 2^44 + line; 15 R315; reset none. -/
  l2Poison : List Nat := []
deriving DecidableEq, Repr


/-! ### Sluices, queues, commands (17, 18) -/

/-- STATE of SLUICE_STATE (R341). -/
inductive SluiceState where
  | unmatched | ready | held
deriving DecidableEq, Repr

/-- A completion or submission ring pair as `QP_CREATE` made it (R344), or the admin rings. -/
structure Ring where
  sqLog2 : Nat := 4
  cqLog2 : Nat := 4
  sqBase : Nat := 0
  cqBase : Nat := 0
  sqDev : Bool := false
  cqDev : Bool := false
  weight : Nat := 1
  irqEn : Bool := false
  vector : Nat := 0
  aggTime : Nat := 0
  aggCount : Nat := 0
  /-- device's header position, SQ head and SQ tail. -/
  position : Nat := 0
  sqHead : Nat := 0
  sqTail : Nat := 0
  cqHead : Nat := 0
  cqTail : Nat := 0
  phase : Bool := true
  /-- entries written since the last interrupt, NOIRQ entries excluded. -/
  uncovered : Nat := 0
  /-- positions that are orphans (R349, R354). -/
  orphans : List Nat := []
  /-- a partial item waits: its header position (R349). -/
  partialAt : Option Nat := none
  /-- words of the partial item fetched so far. -/
  partialWords : List (BitVec 32) := []
  /-- completions held for a full ring, oldest first (R351): the entry's words and NOIRQ. -/
  held : List (List (BitVec 32) × Bool) := []
  /-- a QP_DELETE waits for the commands of the pair: its serial. -/
  deleting : Option Nat := none
deriving DecidableEq, Repr

/-- A remembered request identifier (R353). -/
structure RidRecord where
  rid : Nat
  opcode : Nat
  /-- words 3 onwards, for the 64-bit check. -/
  check : List (BitVec 32) := []
  /-- the completion entry once completed. -/
  entry : Option (List (BitVec 32)) := none
  /-- serial of the first instance. -/
  serial : Nat := 0
  /-- repeats that arrived while the first instance was outstanding, oldest first: source and words 0 to 2. -/
  repeats : List (Src × List (BitVec 32)) := []
deriving DecidableEq, Repr

/-- A sluice: BAR0 of a bound LD (R339 to R342). -/
structure Sluice where
  hid : Nat := 0
  state : SluiceState := .unmatched
  /-- RW1C bits of SLUICE_STATE. -/
  dbErr : Bool := false
  asyncLost : Bool := false
  orphan : Bool := false
  /-- RC counters, 32 b saturating. -/
  orphanCount : Nat := 0
  staleCount : Nat := 0
  dbErrCount : Nat := 0
  cqHoldCount : Nat := 0
  asyncDropCount : Nat := 0
  /-- the interface version of IF_VERSION. -/
  ifVersion : BitVec 32 := 0
  /-- ADMIN_CFG.ENABLE. -/
  adminEnable : Bool := false
  /-- ADMIN_STATUS.READY. -/
  adminReady : Bool := false
  /-- admin rings: ASQ_BASE, ACQ_BASE, VECTOR, ACQ_LOG2, ASQ_LOG2 and their positions. -/
  admin : Ring := {}
  /-- queue pairs by number. -/
  qps : Tab Ring := []
  /-- 2,048 MSI-X vectors: mask bits (a listed vector is unmasked). -/
  unmasked : List Nat := []
  /-- MSI-X pending bits. -/
  msixPending : List Nat := []
  /-- message address and data words of the MSI-X table, vector × 4 + word (0 to 2). -/
  msixWords : Tab (BitVec 32) := []
  /-- 4,096 request-identifier records, oldest first. -/
  rids : List RidRecord := []
  /-- asynchronous events waiting for the admin CQ (at most 64), oldest first: the entry's words. -/
  events : List (List (BitVec 32)) := []
  /-- events dropped since space last returned. -/
  eventsLost : Nat := 0
  /-- dropped events not yet counted in an entry, by RESULT_LO. -/
  eventsDropped : Tab Nat := []
  /-- ring-window bytes of device-SRAM submission rings, by window offset. -/
  window : List Host.Cell := []
  /-- bytes of the ring pool in use. -/
  poolUsed : Nat := 0
deriving DecidableEq, Repr

/-- The status codes of Table 18.8. -/
inductive Status where
  | ok | partialMap | spillway | late | promotePartial | waitExpired | unreproducible | aborted | alreadyDone
  | mapFault | rightsFault | poisoned | tagFail | keyRefused | mediaReadOnly | stateLost | staleBurst | fenced
  | memberLost | versionRefused | held | mirrorDiverged | genStale | ofaOverflow | indexRange | imageRefused
  | crownTrap | rolledBack | lockBroken | invalid
deriving DecidableEq, Repr

/-- What a completion entry reports besides its header (Table 17.8). -/
structure Result where
  status : Status := .ok
  /-- RESULT_HI:RESULT_LO. -/
  value : Nat := 0
  faultDva : Nat := 0
  faultTiles : Nat := 0
  digested : Bool := false
  /-- bytes for the HPA of a tunnelled or JTAG item whose HPA is zero (R364, R463). -/
  payload : List (BitVec 8) := []
  /-- the bytes whose SHA3-256 the digest record carries as VERSION, INPUT and OUTPUT (R319, R320). -/
  version : List (BitVec 8) := []
  input : List (BitVec 8) := []
  output : List (BitVec 8) := []
  /-- IMAGE_DIGEST of a kernel or crown run; none for any other command (R318). -/
  image : Option Nat := none
  /-- an accumulation fell back (R294). -/
  overflow : Bool := false
deriving DecidableEq, Repr

/-- A running command (fetched, dispatched or waiting for its end). -/
structure Cmd where
  serial : Nat
  src : Src
  words : List (BitVec 32)
  host : List HostByte := []
  opcode : Nat := 0
  cid : Nat := 0
  tcx : Nat := 0
  epoch : BitVec 16 := 0
  polder : Nat := 64
  /-- not yet dispatched. -/
  waiting : Bool := false
  /-- the mode word at dispatch (R332). -/
  modes : BitVec 32 := 0
  /-- the ARITH_LEVEL in force at dispatch (R394). -/
  arith : BitVec 16 := 0
  /-- tick of the fetch of its last entry (R101). -/
  origin : Nat := 0
  /-- a tile stopped it: no further tile is issued (R62). -/
  stopped : Bool := false
  /-- past its decision point (R356). -/
  decided : Bool := false
  /-- the phase of a command of several steps. -/
  phase : Nat := 0
  /-- the cut-off has been taken (R103). -/
  cut : Bool := false
  /-- T3 granules (TPA / 4096) issued for it: granule and tick of issue. -/
  issued : List (Nat × Nat) := []
  /-- T3 granules delivered to it. -/
  delivered : List Nat := []
  /-- lines whose recall it waits for. -/
  lines : List Nat := []
  /-- serials of commands whose end it waits for (`FENCE`, `ABORT`, `QP_FLUSH`, `QP_DELETE`). -/
  after : List Nat := []
  /-- timing-dependent choices it has made (TDC_DELTA, R317, R321). -/
  tdcDelta : Nat := 0
  /-- version of its table pinned at its start (R218, R228). -/
  pinned : Option Nat := none
  /-- version pinned of the virtual-step table of a TARGET `SEQ_POOL` (R240, R241). -/
  pinned2 : Option Nat := none
  /-- host-tier HIDs whose reads spilled early at dispatch (R103). -/
  lateHids : List Nat := []
  /-- T3 granules (TPA / 4096) whose items spilled early (R103). -/
  early : List Nat := []
  /-- outcome decided while it waits for the commands of `after`. -/
  outcome : Option Result := none
  /-- its request identifier is remembered (R353). -/
  remembered : Bool := false
  /-- its sluice or queue pair is gone: its completion is discarded and counted (R359, R418). -/
  lost : Bool := false
  /-- hosts whose zero-length read has not returned (R89). -/
  zeroReads : List Nat := []
  /-- bytes of work pool it holds. -/
  pool : Nat := 0
  /-- status its steps have reached so far (R62). -/
  status : Status := .ok
  /-- first faulting byte and faulting tiles of its steps so far (R63). -/
  faultDva : Nat := 0
  faultTiles : Nat := 0
  /-- IMAGE_DIGEST of a kernel or crown run, and what its digest record takes as VERSION and INPUT (R318 to R320). -/
  image : Option Nat := none
  version : List (BitVec 8) := []
  input : List (BitVec 8) := []
  /-- its OUTPUT regions: DVA and length (R318). -/
  outputs : List (Nat × Nat) := []
  /-- value decided before its end: the counter value of a satisfied wait, the bytes or blocks done (Table 18.3). -/
  value : Nat := 0
deriving DecidableEq, Repr

/-- What the intake of R348 makes of an item. -/
inductive Intake where
  /-- it goes no further: its status, and whether it passed step 4 and is remembered (R353). -/
  | answer (st : Status) (remembered : Bool)
  /-- the entry of the remembered first instance is written again. -/
  | replay (entry : List (BitVec 32))
  /-- it waits for the first instance with this serial. -/
  | await (serial : Nat)
  /-- it is accepted. -/
  | accept
deriving DecidableEq, Repr

structure QueueSt where
  /-- sluices of bound LDs by port × 16 + LD; 17 R339 to R342; reset removed. -/
  sluices : Tab Sluice := []
  /-- LD bindings port × 16 + LD → HID; 02 R33; reset unbound. -/
  bound : Tab Nat := []
  /-- commands fetched and not completed, in fetch order; 17 R347, R350; reset none. -/
  cmds : List Cmd := []
  /-- serial of the next command (the model's own name for a command). -/
  next : Nat := 1
  /-- intake held (activation or takeover); 19 R392, R381; reset 0. -/
  intakeHeld : Bool := false
  /-- doorbells captured in the terp while intake is held or the control domain dozes: (ring key, value); 17 R346, 21 R426; reset none. -/
  captured : Tab Nat := []
  /-- a tunnelled item is outstanding per MCTP endpoint; 18 R364; reset 0. -/
  tunnelBusy : Bool := false
  /-- completions discarded after an unbind or fence; 17 R359; reset 0. -/
  discarded : Nat := 0
  /-- completion entries held while a port is down: (sluice, admin or queue, words); 17 R359, 20 R410; reset none. -/
  portHeld : List (Nat × Nat × List (BitVec 32)) := []
  /-- HIDs to which a collective or host write is still open are in `cmds`; TCX creators: TCX → sluice of its TENANT_CREATE; 20 R411; reset none. -/
  creator : Tab Nat := []
deriving DecidableEq, Repr

/-! ### Firmware, start-up, update (19) -/

/-- A manifest of a bundle copy, as far as it decides what runs (R383). -/
structure Manifest where
  version : BitVec 64 := 0
  ifVersion : BitVec 32 := 0
  arith : BitVec 16 := 0
  svn : BitVec 16 := 0
  handoffMin : Nat := 0
  handoffMax : Nat := 0
  /-- handoff format of the bundle's own images. -/
  handoff : Nat := 0
deriving DecidableEq, Repr

/-- What the verification of a bundle copy finds (R383, R384): signature and digests are the environment's. -/
structure BundleCopy where
  manifest : Manifest := {}
  verifies : Bool := false
  consistent : Bool := false
  markedInvalid : Bool := false
  /-- the fields describe the copy as it stands in the NOR (otherwise its first reading after a change tells). -/
  known : Bool := false
  /-- digests of its components and manifest for measurement blocks 2 to 6. -/
  digests : List (BitVec 256) := []
deriving DecidableEq, Repr

/-- COPY_A and COPY_B of BOOT_STATUS. -/
inductive CopyMark where
  | notExamined | failed | verified | invalid
deriving DecidableEq, Repr

structure FwSt where
  /-- the device is out of reset and has completed start-up step 6 (accepts binds). -/
  started : Bool := false
  /-- 8 b BOOT_STATUS.STEP; 19 R389; reset 0. -/
  step : BitVec 8 := 0
  /-- 4 b BOOT_STATUS.CAUSE; 19 R389; reset 0. -/
  cause : BitVec 4 := 0
  copyMarkA : CopyMark := .notExamined
  copyMarkB : CopyMark := .notExamined
  /-- BOOT_STATUS.ACTIVE: copy B runs; 19 R389; reset 0. -/
  active : Bool := false
  /-- BOOT_STATUS.TERP_ONLY; 19 R389; reset 0. -/
  terpOnly : Bool := false
  /-- BOOT_STATUS.STAGED; 19 R389; reset 0. -/
  staged : Bool := false
  /-- the staged bundle in the staging area; 19 R391; reset none. -/
  staging : Option BundleCopy := none
  /-- the verified bundle of an `FW_STAGE` that waits for the NOR or is being programmed; 19 R391; reset none. -/
  candidate : Option BundleCopy := none
  /-- the running bundle; 19 R384; reset empty. -/
  running : BundleCopy := {}
  /-- NOR bundle copy A; 19 R382, R383; kept. -/
  copyA : BundleCopy := {}
  /-- NOR bundle copy B; 19 R382, R383; kept. -/
  copyB : BundleCopy := {}
  /-- measurement blocks 1 to 9; 08 R166; formed at start-up. -/
  measurements : Tab (BitVec 256) := []
  /-- an activation holds intake: serial of its FW_ACTIVATE; 19 R392; reset none. -/
  activating : Option Nat := none
  /-- firmware cores halted (28 b, PMC 0, SEC 1, SCH 2, shadow 3, CCC-CC 4 to 19, CCC-NC 20 to 23, CCC-CW 24 to 27); 23 R464; reset 0. -/
  halted : BitVec 28 := 0
  /-- cores whose halt is deferred: core → serial of its DBG_HALT and FORCE; 23 R464; reset none. -/
  deferred : Tab (Nat × Bool) := []
  /-- cores whose halt is deferred by a locked sequence: core → partner core and serial of the command it serves; 23 R464; reset none. -/
  locked : Tab (Nat × Nat) := []
  /-- the SCH role runs on the shadow (ON_SHADOW); 19 R381, 22 R437; reset 0. -/
  onShadow : Bool := false
  /-- SHADOW_LOST; 22 R437; reset 0. -/
  shadowLost : Bool := false
  /-- slices whose reset zero-fill has ended: DDR channels, pseudo-channels, row-store units; 19 R388; reset none. -/
  filledDdr : BitVec 24 := 0
  filledHbm : BitVec 256 := 0
  filledRow : BitVec 53 := 0
deriving DecidableEq, Repr

/-- DDR and NAND population and training, fixed at start-up (R27, R28, R110). -/
structure TraySt where
  /-- 24 b present DDR channels; 02 R28; set at start-up. -/
  ddrPresent : BitVec 24 := 0
  /-- populated capacity per channel in GiB (DIMM_GIB); 02 R28; set at start-up. -/
  dimmGib : Nat := 0
  /-- share S in GiB; 02 R27; set at start-up. -/
  share : Nat := 0
  /-- map reserve M in GiB; 02 R27; set at start-up. -/
  reserve : Nat := 0
  /-- present channels P; 02 R27; set at start-up. -/
  present : Nat := 0
  /-- raw capacity of a NAND channel in GiB; 02 R27, 06 R110; set at start-up. -/
  nandGib : Nat := 0
  /-- DDR channel that holds each NAND channel's map reserve; 02 R27; set at start-up. -/
  mapHome : Tab Nat := []
  /-- free room of the firmware share in GiB for rebuilding maps; 02 R28; set at start-up. -/
  fwFree : Nat := 0
deriving DecidableEq, Repr

/-! ### Ports and links (20) -/

/-- STATE of LINK_STATUS (Table 20.6). -/
inductive LinkState where
  | off | training | l0 | l1 | detached
deriving DecidableEq, Repr

/-- One link of a port (R405). -/
structure Link where
  state : LinkState := .off
  /-- 0 none, 1 = 32 GT/s, 2 = 64 GT/s. -/
  speed : Nat := 0
  width : Nat := 0
  active : Nat := 0
  ptmOk : Bool := false
  rdvOk : Bool := false
  cause : BitVec 4 := 0
  attempts : Nat := 0
  /-- RC counters, 32 b saturating: FEC_CORR, CRC_FAIL, REPLAYS, EPISODES, RECOVERIES, RDV_RETRAIN, DOWNS at 0x04 to 0x1C. -/
  counters : Tab Nat := []
  /-- the HOST_GRACE timer runs. -/
  grace : Bool := false
  /-- an OFFER awaits ACCEPT. -/
  offered : Bool := false
  /-- a GRID awaits GRID_ACK: its ORIGIN. -/
  grid : Option (BitVec 64) := none
  /-- ORIGIN of the grid in force. -/
  origin : BitVec 64 := 0
  /-- GRIDs missed in a row. -/
  misses : Nat := 0
  /-- the training under way is that of a late wake from L1 (R416). -/
  retrain : Bool := false
  /-- in Recovery for a credit stall. -/
  creditStall : Bool := false
  /-- counted protocol errors and overflows. -/
  malformed : Nat := 0
  overflows : Nat := 0
deriving DecidableEq, Repr

/-- PORT_CTRL and the links of one port (R404). -/
structure Port where
  enable : Bool := true
  /-- 0 x16, 1 = 2 × x8, 2 = 4 × x4. -/
  width : Nat := 0
  /-- SPEED_MAX: 0 = 32 GT/s, 1 = 64 GT/s. -/
  speedMax : Nat := 1
  /-- CLOCKING: 0 common, 1 SRNS, 2 SRIS. -/
  clocking : Nat := 2
  l0pEn : Bool := true
  l1En : Bool := true
  l1Idle : BitVec 8 := 10
  l1Resync : BitVec 8 := 50
  links : Tab Link := []
deriving DecidableEq, Repr

structure PortSt where
  /-- 17 ports; 20 R397 to R405; reset values of Table 20.5. -/
  ports : Tab Port := []
  /-- 13 b HOST_GRACE.GRACE; 20 R411; reset 200. -/
  grace : BitVec 13 := 200
deriving DecidableEq, Repr


/-! ### Power, faults, recorder, debug, pins, registers (21 to 26) -/

/-- State of a power domain (Table 21.2). -/
inductive DomainState where
  | active | idle | doze | dark
deriving DecidableEq, Repr

/-- A cluster: compute 0 to 15, channel 16 to 19, crown 20 to 23 (R423). -/
structure Cluster where
  state : DomainState := .dark
  /-- the sleep state being entered (R424). -/
  entering : Option DomainState := none
  /-- a wake is requested (after the entry when one is in progress). -/
  waking : Bool := false
  /-- the crown L2 flush before sleep runs (R424). -/
  flushing : Option DomainState := none
  /-- the wake waits for a start beat (R324). -/
  waitBeat : Bool := false
  /-- the spread setting its PLL started with (R422). -/
  spread : Bool := true
deriving DecidableEq, Repr

structure PowerSt where
  /-- 24 power domains; 21 R423; reset DARK. -/
  clusters : Tab Cluster := []
  /-- control domain in DOZE; 21 R426; reset ACTIVE. -/
  controlDoze : Bool := false
  /-- 1 b CLK_CTRL.SSC_EN; 21 R435; reset 1. -/
  sscEn : Bool := true
  /-- 10 b GOV_CTRL.LIMIT; 21 R435; reset 850. -/
  limit : BitVec 10 := 850
  /-- governor's clock in sixteenths (8 to 16); 21 R428; reset 16. -/
  govStep : Nat := 16
  /-- throttle's clock in sixteenths (8 to 16); 21 R430; reset 16. -/
  throttleStep : Nat := 16
  /-- evacuated compute clusters; 21 R428; reset none. -/
  evacuated : List Nat := []
  /-- 16 b GOV_POWER.AVG_W; 21 R435; reset 0. -/
  avgW : BitVec 16 := 0
  /-- 8 b THERM_CTRL.THROTTLE; 21 R435; reset 105. -/
  throttle : BitVec 8 := 105
  /-- 8 b THERM_CTRL.WARN; 21 R435; reset 100. -/
  warn : BitVec 8 := 100
  /-- GOV_CTRL.THROTTLE; 21 R430; reset 0. -/
  throttling : Bool := false
  /-- 8 b THERM_STATUS.MAX_C; 21 R435; reset 0. -/
  maxC : BitVec 8 := 0
  /-- 8 b THERM_STATUS.PEAK_C (RC); 21 R435; reset 0. -/
  peakC : BitVec 8 := 0
  /-- 8 b THERM_STATUS.FAULTS (RC); 21 R435; reset 0. -/
  faults : BitVec 8 := 0
  /-- sensors above WARN (for once-per-crossing); 21 R430; reset none. -/
  warned : List Nat := []
  /-- sensors whose previous reading was 125 °C or more; 21 R431; reset none. -/
  hot : List Nat := []
  /-- a thermal trip holds the device reset; 21 R431; reset 0. -/
  tripped : Bool := false
  /-- 16 b SUPPLY_STATUS.EPISODES (RC); 21 Table 21.7; reset 0. -/
  episodes : BitVec 16 := 0
  /-- 8 b SUPPLY_STATUS.MIN_PCT; 21 Table 21.7; reset 100. -/
  minPct : BitVec 8 := 100
  /-- SUPPLY_STATUS.WARN_NOW; 21 Table 21.7; reset 0. -/
  warnNow : Bool := false
  /-- SUPPLY_STATUS.RESTORING; 21 Table 21.7; reset 0. -/
  restoring : Bool := false
  /-- SUPPLY_STATUS.WARN_STICKY (RW1C); 21 Table 21.7; reset 0. -/
  warnSticky : Bool := false
deriving DecidableEq, Repr

/-- An open notice window of a subject (R441). -/
structure NoticeWindow where
  kind : Nat
  polder : Nat
  port : Nat
  hid : Nat
  unit : Nat
  tcx : Nat
  suppressed : Nat := 0
  firstAddr : Nat := 0
  firstTime : Nat := 0
deriving DecidableEq, Repr

structure FaultSt where
  /-- 128 b CORE_Q0 to CORE_Q3; 22 R443; reset 0. -/
  coreQ : BitVec 128 := 0
  /-- 32 b CROWN_Q; 22 R443; reset 0. -/
  crownQ : BitVec 32 := 0
  /-- 24 b CLUSTER_Q; 22 R443; reset 0. -/
  clusterQ : BitVec 24 := 0
  /-- 17 b PORT_FAILED; 22 R443; reset 0. -/
  portFailed : BitVec 17 := 0
  /-- 4 b DIE_FAILED; 22 R443; reset 0. -/
  dieFailed : BitVec 4 := 0
  /-- FAULT_SUMMARY.POWER_LOSS (RW1C); 22 R443; reset 0. -/
  powerLoss : Bool := false
  /-- FAULT_SUMMARY.FLUSH_INCOMPLETE (RW1C); 22 R443; reset 0. -/
  flushIncomplete : Bool := false
  /-- FM_NOTIFY.ENABLE; 22 R443; reset 0. -/
  notifyEnable : Bool := false
  /-- 8 b FM_NOTIFY.EID; 22 R443; reset 0. -/
  notifyEid : BitVec 8 := 0
  /-- 24 b NOTICE_SEQ.NEXT; 22 R443; reset 0. -/
  noticeSeq : BitVec 24 := 0
  /-- open notice windows; 22 R441; reset none. -/
  windows : List NoticeWindow := []
  /-- 6 levee links by index LV01, LV02, LV03, LV12, LV13, LV23; 01 R16; reset up. -/
  levees : Tab Levee := []
  /-- slices returned to the free pool marked failed: compute cores; 22 R440; reset 0. -/
  failedCores : BitVec 128 := 0
  /-- crown cores marked failed; 22 R440; reset 0. -/
  failedCrown : BitVec 32 := 0
  /-- a power-loss sequence has run and its device reset is held; 22 R447; reset 0. -/
  lossHeld : Bool := false
  /-- the last reset followed a power loss (to be reported at start-up); 22 R450; reset 0. -/
  lossPending : Bool := false
  /-- channels that found an incomplete flush (64 b); 22 R449; reset 0. -/
  incomplete : BitVec 64 := 0
  /-- channels whose last record is an entry into staged mode with no flush-complete record (64 b, in the SLC journal); 22 R449; kept on flash. -/
  stagedRecord : BitVec 64 := 0
  /-- the four KIND 0x11 notices of this start-up, kept until FM_NOTIFY is first enabled; 22 R450; reset none. -/
  startNotices : List (List (BitVec 32)) := []
deriving DecidableEq, Repr

/-- A record of the event recorder: its eight words (R451). -/
abbrev Record := List (BitVec 32)

/-- A NOR record slot (R457). -/
structure NorSlot where
  magic : BitVec 32 := 0xFFFFFFFF
  seq : BitVec 32 := 0
  count : Nat := 0
  crc : BitVec 32 := 0
  records : List Record := []
  erased : Bool := true
deriving DecidableEq, Repr

structure RecSt where
  /-- volatile part, 65,536 × 32 B, index 0 upwards; 23 R454; reset empty. -/
  entries : List Record := []
  /-- REC_STATUS.FROZEN; 23 R455; reset 0. -/
  frozen : Bool := false
  /-- REC_FULL_DROPS (RC), 32 b saturating; 23 R455; reset 0. -/
  fullDrops : Nat := 0
  /-- REC_FROZEN_DROPS (RC), 32 b saturating; 23 R455; reset 0. -/
  frozenDrops : Nat := 0
  /-- FULL_DROPS since the previous thaw or reset; 23 R455; reset 0. -/
  fullSince : Nat := 0
  /-- FROZEN_DROPS since the previous thaw or reset; 23 R455; reset 0. -/
  frozenSince : Nat := 0
  /-- persistent part, ring of 4,096, oldest first; 23 R456; reset empty (terp reset). -/
  persistent : List Record := []
  /-- REC_STATUS.NOR_READY; 23 R457; reset 0. -/
  norReady : Bool := false
  /-- the slot being erased (false = A); 23 R457; reset none. -/
  erasing : Option Bool := none
  /-- NOR record slot A; 23 R457; kept. -/
  slotA : NorSlot := {}
  /-- NOR record slot B; 23 R457; kept. -/
  slotB : NorSlot := {}
  /-- records loaded from the NOR at the last terp start-up; 23 R458; reset 0. -/
  recovered : Nat := 0
  /-- records per EVENT code and unit not yet reported by COUNT, code × 2^24 + unit; 23 R452; reset 0. -/
  counts : Tab Nat := []
deriving DecidableEq, Repr

/-- The debug lock state (R459). -/
inductive LockState where
  | locked | tenantSafe | open_
deriving DecidableEq, Repr

structure DebugSt where
  /-- debug lock state; 23 R459; reset LOCKED. -/
  lock : LockState := .locked
  /-- outstanding NONCE and the tick it was given; 23 R460; reset none. -/
  nonce : Option (BitVec 64 × Nat) := none
  /-- JTAG instruction: 0 IDCODE, 1 DBGMBOX, 2 IDFUSE, 3 EXTEST, 4 BYPASS; 23 R463; reset IDCODE (PRESUMED, IEEE 1149.1). -/
  jtagIr : Nat := 0
  /-- captures of the mailbox still to be taken, oldest first; 23 R463; reset none. -/
  mailbox : List (List (BitVec 32)) := []
  /-- bytes poked into firmware cores, core × 2^24 + offset; 23 R462; reset none. -/
  coreBytes : Tab Nat := []
deriving DecidableEq, Repr

structure IdentitySt where
  /-- 16 B package serial; 24 R471; fuse. -/
  serial : List (BitVec 8) := []
  /-- 12 die records of 4 words; 24 R471 Table 24.4; fuse. -/
  dies : List (List (BitVec 32)) := []
  /-- minimum SVN fused at manufacture; 19 R383; fuse. -/
  minSvn : BitVec 16 := 0
  /-- calibration shadow, 8,192 B (bytes that are zero are not listed); 24 R467; reset defaults. -/
  shadow : List Host.Cell := []
  /-- IDENTIFY STATE bit 0 UNCALIBRATED; 24 R467; reset 1 until step 4. -/
  uncalibrated : Bool := true
  /-- NOR bytes by address that are not 0xFF (erased): calibration area and what the BMC window wrote; 19 R382, 26 R498; kept. -/
  nor : List Host.Cell := []
deriving DecidableEq, Repr

structure PinSt where
  /-- the terp runs (Table 19.3 step 5 reached); 19 R386; reset 0. -/
  terpUp : Bool := false
  /-- SYS_RESET_N as filtered, true = high; 25 R480; reset low. -/
  sysResetHigh : Bool := false
  /-- HOLDUP_OK as filtered; 25 R480; reset low. -/
  holdupOk : Bool := false
  /-- TRAY_LOCK_A, TRAY_LOCK_B as last sampled: closed; 25 R486; pin. -/
  sampleA : Bool := false
  sampleB : Bool := false
  /-- consecutive agreeing samples that differ from the debounced state; 25 R486; reset 0. -/
  runA : Nat := 0
  runB : Nat := 0
  /-- channels debounced closed (INTERLOCK.A_CLOSED, B_CLOSED); 25 R488; pin. -/
  closedA : Bool := true
  closedB : Bool := true
  /-- INTERLOCK.FAULT; 25 R488; reset 0 at terp reset. -/
  ilFault : Bool := false
  /-- INTERLOCK.OPEN: TRAY_OPEN; 25 R488; reset 0. -/
  ilOpen : Bool := false
  /-- INTERLOCK.DISAGREE; 25 R488; reset 0. -/
  disagree : Bool := false
  /-- INTERLOCK_COUNT.CLEARS_IGNORED (RC, 8 b); 25 R488; reset 0. -/
  clearsIgnored : BitVec 8 := 0
  /-- INTERLOCK_COUNT.DISAGREEMENTS (RC, 16 b); 25 R488; reset 0. -/
  disagreements : BitVec 16 := 0
  /-- IL_WRITES_REFUSED (RC, 32 b); 25 R487; reset 0. -/
  refused : BitVec 32 := 0
  /-- IO_CTRL 8 b: TDO, SPD, BMC 0b01, OD 0b00; 25 R484; reset 0x54. -/
  ioCtrl : BitVec 8 := 0x54
  /-- GLITCH_COUNT.CONTROL, BUS (RC, 16 b each); 25 R483; reset 0. -/
  glitchControl : BitVec 16 := 0
  glitchBus : BitVec 16 := 0
  /-- PWR_WARN_N asserted; 25 R481; released in terp reset. -/
  pwrWarn : Bool := false
  /-- THERMTRIP_N asserted; 25 R481; released. -/
  thermTrip : Bool := false
  /-- step 2 of Table 19.4 has not completed since step 2 of Table 19.3; 25 R481; reset 0. -/
  booting : Bool := false
  /-- MGMT_MODE strap: SMBus; 25 R480; sampled. -/
  smbus : Bool := false
  /-- P16_CLK_MODE straps; 25 R480; sampled. -/
  clkMode : BitVec 2 := 0
deriving DecidableEq, Repr

structure RegSt where
  /-- 8 b TERP_IRQ_STATUS; 26 R496; reset 0. -/
  irqStatus : BitVec 8 := 0
  /-- 8 b TERP_IRQ_ENABLE; 26 R496; reset 0. -/
  irqEnable : BitVec 8 := 0
  /-- LINK_SEL.LINK, PORT; 26 R493; reset 0. -/
  selLink : BitVec 2 := 0
  selPort : BitVec 5 := 0
  /-- REC_WIN_SEL.PART, INDEX; 26 R493; reset 0. -/
  winPart : Bool := false
  winIndex : BitVec 16 := 0
  /-- latched record of REC_WIN; 26 R495; reset 0 (DESIGN CHOICE 2). -/
  winLatch : Record := []
  /-- PREC_SEL.INDEX, 12 b; 26 R495; reset 0. -/
  precIndex : BitVec 12 := 0
  /-- latched record of PREC_WIN; 26 R495; reset 0 (DESIGN CHOICE 2). -/
  precLatch : Record := []
  /-- latched TIME_HI and BEAT_HI; 26 R496; reset 0. -/
  timeHi : BitVec 32 := 0
  beatHi : BitVec 16 := 0
  /-- 26 b NOR_ADDR; 26 R498; reset 0. -/
  norAddr : BitVec 26 := 0
  /-- the NOR window command in progress: OP and address; 26 R498; reset none. -/
  norBusy : Option (BitVec 2 × BitVec 26) := none
  /-- NOR_STATUS.REFUSED (RC, 16 b); 26 R498; reset 0. -/
  norRefused : BitVec 16 := 0
  /-- NOR_STATUS.ERROR, DENIED (RW1C); 26 R498; reset 0. -/
  norError : Bool := false
  norDenied : Bool := false
  /-- 256 B NOR_BUF; 26 R498; reset 0. -/
  norBuf : List Host.Cell := []
  /-- I3C register-transfer offset; 26 R494; reset 0. -/
  i3cOffset : Nat := 0
  /-- I3C dynamic address; 26 R494; reset none. -/
  i3cAddress : Option (BitVec 7) := none
  /-- in-band interrupts enabled by ENEC; 26 R494; reset 0. -/
  ibiEnabled : Bool := false
  /-- an in-band interrupt not yet accepted: its data byte and whether it has been retried; 26 R497; reset none. -/
  ibi : Option (BitVec 8 × Bool) := none
  /-- BMC bus timeouts counted; 25 R485; reset 0. -/
  busTimeouts : Nat := 0
deriving DecidableEq, Repr


/-! ### What leaves the device, and the whole state -/

/-- What the device sends (the model's own record of its outputs, no state of the spec). [DESIGN CHOICE, log 9] -/
inductive Emit where
  /-- a completion entry at a slot of a completion ring (`queue` none: the admin ring; R351). -/
  | cqe (sluice : Nat) (queue : Option Nat) (slot : Nat) (words : List (BitVec 32))
  /-- an MSI-X message (R352). -/
  | msix (sluice vector : Nat)
  /-- bytes written to host memory by CXL.io, with the EP bit when `poison` (R100, Table 7.2). -/
  | hostWrite (hid hpa : Nat) (bytes : List (BitVec 8)) (poison : Bool)
  /-- a CXL.mem snoop: BISnpInv, or BISnpData when `data` (R69). -/
  | snoop (hid line : Nat) (data : Bool)
  /-- `MemData` with its completion: `grant` 0 `Cmp`, 1 `Cmp-S`, 2 `Cmp-E`, 3 none (HDM-H, R84) (R69). -/
  | memData (port ld tag : Nat) (data : BitVec 512) (grant : Nat) (poison : Bool)
  /-- a CXL.mem completion without data: `Cmp`, or `Cmp-E` when `owned` (R69). -/
  | memCmp (port ld tag : Nat) (owned : Bool)
  /-- `BIConflictAck` to a host (R69). -/
  | conflictAck (ld tag : Nat)
  /-- the DevLoad of a response (R181). -/
  | devLoad (hid : Nat) (load : Nat)
  /-- completion of a host AtomicOp or of a refused request: `status` 0 success, 1 unsupported request, 2 completer abort, 3 poisoned (R33, R38, R77). -/
  | tlp (port ld tag : Nat) (status : Nat) (data : BitVec 64)
  /-- the result of an engine or crown access: tile, bytes, poisoned (R75, R79). -/
  | tileDone (tile : Nat) (data : List (BitVec 8)) (poison : Bool)
  /-- a result a crown service returns to the core (R313). -/
  | crownReturn (run core : Nat) (value : List (BitVec 32))
  /-- an exception vector of a crown run is entered (R315). -/
  | crownVector (run core : Nat) (dva : Nat)
  /-- an FM notice (R442). -/
  | notice (words : List (BitVec 32))
  /-- a response to the fabric manager or to the sender of an MCTP packet (R399, R494). -/
  | fmResponse (code : Nat) (words : List (BitVec 32))
  /-- a completion of a tunnelled item (R364). -/
  | tunnelDone (words : List (BitVec 32))
  /-- an SPDM response: `code` 0xFF an ERROR (R162). -/
  | spdm (ep : Nat) (code : Nat) (words : List (BitVec 32))
  /-- an in-band interrupt with its data byte (R497). -/
  | ibi (byte : BitVec 8)
  /-- bytes that a BMC bus transfer returns (R494). -/
  | bmc (bytes : List (BitVec 8))
  /-- bits that a JTAG data register shifts out, as 32-bit words (R463, R472). -/
  | jtag (words : List (BitVec 32))
  /-- the value that a register read returns (R491). -/
  | regRead (value : BitVec 32)
  /-- a weir frame handed to its destination endpoint (R179). -/
  | frame (die : Nat) (endpoint : Nat) (frame : Frame)
  /-- a drop notice to the source of a best-effort frame (R192). -/
  | dropNotice (frame : Frame)
  /-- a link-layer message of a port: kind and payload (RDV vendor messages, NAK, Electrical Idle; R414 to R417). -/
  | link (port link kind : Nat) (payload : BitVec 128)
  /-- a refusal or acknowledgement of a levee frame (R16). -/
  | levee (link : Nat) (accept : Bool)
  /-- a zero-length read to a host (R89). -/
  | zeroRead (serial hid : Nat)
  /-- a digest entry or status line that the device writes to an engine of its own carries no message. -/
  | none
deriving DecidableEq, Repr

/-- Bytes with their poison marks. -/
abbrev CellBytes := List (BitVec 8 × Bool)

/-- The whole state of the device. -/
structure State where
  /-- 64 polder numbers; 02 R30; reset ABSENT. -/
  polders : Tab Polder := []
  /-- 4,096 tenant contexts; 02 R40; reset FREE. -/
  tcxs : Tab Tcx := []
  /-- 65,536 segment entries, 16 × TCX + segment; 03 R46; reset invalid. -/
  segs : Tab Segment := []
  /-- 256 HIT entries; 02 R34; reset invalid. -/
  hit : Tab HitEntry := []
  coh : CohSt := {}
  mem : MemSt := {}
  res : ResSt := {}
  tier : TierSt := {}
  ftl : FtlSt := {}
  key : KeySt := {}
  weir : WeirSt := {}
  copy : CopySt := {}
  tbl : TableSt := {}
  srch : SearchSt := {}
  eng : EngineSt := {}
  q : QueueSt := {}
  fw : FwSt := {}
  tray : TraySt := {}
  port : PortSt := {}
  pwr : PowerSt := {}
  flt : FaultSt := {}
  recorder : RecSt := {}
  dbg : DebugSt := {}
  ident : IdentitySt := {}
  pins : PinSt := {}
  regs : RegSt := {}
  /-- 64 b time base in 40 ns ticks of the terp; 21 R420; reset 0. -/
  time : Nat := 0
  /-- 48 b start-beat number; 15 R324; reset 0. -/
  beat : Nat := 0
  /-- commands waiting, first in first out; the model's own queue; reset empty. -/
  pending : List Instr := []
  /-- outputs, newest first; the model's own record; reset empty. -/
  out : List Emit := []
  /-- number of free values drawn so far; the model's own counter (DESIGN CHOICE 1); reset 0. -/
  free : Nat := 0
deriving DecidableEq, Repr

/-- A command at work on memory within one step: the state so far, its status, its faults (R62, R63), and the lines that
host copies keep from it (R74, R75). [DESIGN CHOICE, log 10] -/
structure Run where
  s : State
  cmd : Cmd
  unit : Nat := 0xFF
  engine : Nat := 0xF
  status : Status := .ok
  faultDva : Nat := 0
  faultTiles : Nat := 0
  /-- a tile stopped the command (R62). -/
  stopped : Bool := false
  /-- lines owned by a host that a read needs. -/
  recalls : List Nat := []
  /-- lines held by hosts that a write needs. -/
  invalidate : List Nat := []
  /-- T3 granules (TPA / 4096) whose data has not been delivered (R115). -/
  t3 : List Nat := []
deriving DecidableEq, Repr

/-- Why the block stops with a fault. No command of the BY-960 stops: what the spec refuses it answers with a status. -/
inductive Fault where
  /-- raised by no meaning; it keeps the type inhabited. Safe: a stop that never occurs. -/
  | none
deriving DecidableEq, Repr

/-- Why a command has no meaning here. -/
inductive Refusal where
  /-- a row of the opcode table without a meaning yet; raised by the arms of Machine/Dispatch.lean only. Safe. -/
  | notModelled (mnemonic : String)
deriving DecidableEq, Repr

/-- The device before its supplies are valid: every register at its reset value, nothing running, no command waiting (R386, R395, R396). [DESIGN CHOICE, log 2] -/
def State.reset : State := {}

end Sys2Proof.Machine
end

