-- ==== Sys2Proof/Machine/Tab.lean ====
section
/-!
DEFINITION. Operations on sparse tables: keys strictly rising and no entry equal to the default of the table.
-/

namespace Sys2Proof.Machine

/-- The entry under a key, if the table lists it. -/
def tabFind {α : Type} : Tab α → Nat → Option α
  | [], _ => none
  | (k', v) :: t, k => if k' = k then some v else tabFind t k

/-- The entry under a key; unlisted keys hold the default. -/
def tabGet {α : Type} (t : Tab α) (d : α) (k : Nat) : α := (tabFind t k).getD d

/-- Removes the entry of a key. -/
def tabErase {α : Type} (t : Tab α) (k : Nat) : Tab α := t.filter fun e => decide (e.1 ≠ k)

/-- Writes an entry at its place in the order of keys. -/
def tabInsert {α : Type} : Tab α → Nat → α → Tab α
  | [], k, v => [(k, v)]
  | (k', v') :: t, k, v =>
    if k' < k then (k', v') :: tabInsert t k v else if k' = k then (k, v) :: t else (k, v) :: (k', v') :: t

/-- Writes an entry; writing the default removes it. [DESIGN CHOICE, log 4] -/
def tabPut {α : Type} [DecidableEq α] (t : Tab α) (d : α) (k : Nat) (v : α) : Tab α :=
  if v = d then tabErase t k else tabInsert t k v

def tabModify {α : Type} [DecidableEq α] (t : Tab α) (d : α) (k : Nat) (f : α → α) : Tab α :=
  tabPut t d k (f (tabGet t d k))

/-- Keeps the entries that satisfy a test. -/
def tabFilter {α : Type} (t : Tab α) (p : Nat → α → Bool) : Tab α := t.filter fun e => p e.1 e.2

/-- Changes every listed entry, dropping those that become the default. -/
def tabMap {α : Type} [DecidableEq α] (t : Tab α) (d : α) (f : Nat → α → α) : Tab α :=
  (t.map fun e => (e.1, f e.1 e.2)).filter fun e => decide (e.2 ≠ d)

/-- Keys strictly rising, from `lo` upwards, and no default entry. -/
def tabWfFrom {α : Type} [DecidableEq α] (d : α) : Nat → Tab α → Bool
  | _, [] => true
  | lo, (k, v) :: t => decide (lo ≤ k) && decide (v ≠ d) && tabWfFrom d (k + 1) t

/-- The canonical form of a table. -/
def tabWf {α : Type} [DecidableEq α] (t : Tab α) (d : α) : Bool := tabWfFrom d 0 t

/-- A saturating counter raised by `n` (R8, R148: counters saturate). -/
def satAdd (w c n : Nat) : Nat := min (c + n) (2 ^ w - 1)

def lastN {α : Type} (n : Nat) (l : List α) : List α := l.drop (l.length - n)

/-- Moves an element to the end of a list (most recently used). -/
def touch (l : List Nat) (x : Nat) : List Nat := l.filter (· ≠ x) ++ [x]

end Sys2Proof.Machine
end

