-- ==== Sys2Proof/Machine/Operands.lean ====
section
/-!
DEFINITION. Words, fields and byte orders of descriptors (R6, R347), the header of every command (Table 17.7), the
opcode map (Table 18.1) and the reserved bits of every request (R7).
-/

namespace Sys2Proof.Machine

/-- Bits `hi` to `lo` of a number. -/
def bits (v hi lo : Nat) : Nat := (v >>> lo) % 2 ^ (hi + 1 - lo)

/-- Word `n` of a descriptor; a word beyond its end reads as zero. -/
def wordAt (ws : List Word) (n : Nat) : Nat := (ws.getD n 0).toNat

/-- Bits `hi` to `lo` of word `n`. -/
def field (ws : List Word) (n hi lo : Nat) : Nat := bits (wordAt ws n) hi lo

def flag (ws : List Word) (n b : Nat) : Bool := (wordAt ws n).testBit b

/-- A field of `count` words, the lowest first (R6). -/
def wideAt (ws : List Word) : Nat → Nat → Nat
  | _, 0 => 0
  | n, count + 1 => wordAt ws n + 2 ^ 32 * wideAt ws (n + 1) count

/-- Words `n` and `n + 1` as one 64-bit field. -/
def word64 (ws : List Word) (n : Nat) : Nat := wideAt ws n 2

/-- Little-endian bytes of a number (R6). -/
def toBytes : Nat → Nat → List Byte
  | 0, _ => []
  | n + 1, v => BitVec.ofNat 8 v :: toBytes n (v / 256)

/-- The number that little-endian bytes spell. -/
def ofBytes : List Byte → Nat
  | [] => 0
  | b :: t => b.toNat + 256 * ofBytes t

/-- Little-endian 32-bit words of a number. -/
def toWords : Nat → Nat → List Word
  | 0, _ => []
  | n + 1, v => BitVec.ofNat 32 v :: toWords n (v / 2 ^ 32)

def wordsToBytes (ws : List Word) : List Byte := ws.flatMap fun w => toBytes 4 w.toNat

/-- Bytes as 32-bit words, the last one filled with zero. -/
def bytesToWords : Nat → List Byte → List Word
  | 0, _ => []
  | n + 1, l => BitVec.ofNat 32 (ofBytes (l.take 4)) :: bytesToWords n (l.drop 4)

/-- Numbers of the set bits of a mask, ascending. -/
def maskBits (width : Nat) (m : Nat) : List Nat := (List.range width).filter fun i => m.testBit i

def popcount (width m : Nat) : Nat := (maskBits width m).length

/-! ### The header (Table 17.7) -/

def hdrOpcode (ws : List Word) : Nat := field ws 0 7 0
def hdrEntries (ws : List Word) : Nat := field ws 0 9 8 + 1
def hdrNoIrq (ws : List Word) : Bool := flag ws 0 13
def hdrRid (ws : List Word) : Bool := flag ws 0 14
def hdrFaultWhole (ws : List Word) : Bool := flag ws 0 15
def hdrTcx (ws : List Word) : Nat := field ws 0 27 16
def hdrEpoch (ws : List Word) : Nat := field ws 0 31 28
def hdrCid (ws : List Word) : Nat := field ws 1 15 0
def hdrDeadline (ws : List Word) : Nat := field ws 1 31 16
def hdrPrio (ws : List Word) : Nat := field ws 2 3 2
def hdrDigest (ws : List Word) : Bool := flag ws 2 7
def hdrMark (ws : List Word) : Nat := field ws 2 15 8
/-- REQ_HI:CID (R353). -/
def hdrRequest (ws : List Word) : Nat := field ws 2 31 16 * 2 ^ 16 + hdrCid ws

/-! ### The opcode map (Table 18.1) -/

/-- Who may issue a command (R360). -/
inductive Issuer where
  | mgmt | admin | tenant | any | windows | debug
deriving DecidableEq, Repr

/-- A row of Table 18.1: entries, whether the admin queue and the data queues accept it, who may issue it, whether its
header names a TCX, and the bits of words 3 onwards that are not reserved. -/
structure OpRow where
  entries : Nat
  onAdmin : Bool
  onData : Bool
  issuer : Issuer
  names : Bool
  mask : List Nat
deriving DecidableEq, Repr

/-- A word with every bit in use. -/
def full : Nat := 0xFFFFFFFF

/-- Words 3 to 19 of Table 11.3. -/
def lookupMask : List Nat :=
  [0xFCFFFF00, 0x1FFFF, 0x1FFFFF] ++ (List.replicate 6 [full, 0xFFFFF]).flatten ++ [0xFFFF03FF, full]

/-- Words 3 to 25 of Table 13.6. -/
def searchMask : List Nat :=
  [0xE0F00FFF, 0x03FF0FFF, 0x1FFF01FF, 0x3F, 0] ++ (List.replicate 9 [full, 0xFFFFF]).flatten

/-- Words 3 to 21 of Table 10.4. -/
def collMask : List Nat :=
  [full, full, 0xFFFFF8FF, full, 0xFFFFF, full, 0xFFFFF, 0xFFFFFF, 0xFC000000, 0x3F, 0xFFFFFF]
    ++ (List.replicate 4 [0xF00000FF, full]).flatten

/-- Words 3 to 15 of Table 15.4. -/
def launchMask : List Nat := [0xFF, full, 0xFFFFF, full, 0xFFFFF, 0xFFFF, full, 0xFFFFF, 0xF, full, full, full, full]

/-- Table 18.1 with the request layouts of the chapters it names. -/
def opRow (op : Nat) : Option OpRow :=
  match op with
  | 0x01 => some ⟨1, true, false, .any, false, [0x3FFF, full, full]⟩
  | 0x02 => some ⟨1, true, false, .any, false, [full, full, full]⟩
  | 0x04 => some ⟨1, true, false, .any, false, [0x00FF0FC0, 0x1F1F, full, full, full, full, 0x800007FF, full]⟩
  | 0x05 => some ⟨1, true, false, .any, false, [0x800000FF]⟩
  | 0x06 => some ⟨1, true, false, .any, false, [0x800000FF]⟩
  | 0x10 => some ⟨2, true, false, .mgmt, false, [0x01FF3F3F, 0xFFFF0000, 0x00FFFFFF] ++ List.replicate 19 full ++ [0x001FFFFF, full, full, full, 0xF, full, full]⟩
  | 0x11 => some ⟨1, true, false, .mgmt, false, [0x3F, 0xFFFF0000, 0x1FF, full, full, full, full]⟩
  | 0x12 => some ⟨1, true, false, .mgmt, false, [0x33F]⟩
  | 0x14 => some ⟨3, true, false, .mgmt, false, [0xFF, 0x03FF07FF, 0, full, full] ++ (List.replicate 16 [full, 0x1FFFFFFF]).flatten⟩
  | 0x15 => some ⟨1, true, false, .mgmt, false, [0xFF, full, full]⟩
  | 0x18 => some ⟨1, true, false, .admin, true, [0x3F]⟩
  | 0x19 => some ⟨1, true, false, .admin, true, [1]⟩
  | 0x20 => some ⟨1, true, false, .admin, true, [0xFFFF001F, full, full, full, full, 0xFFFF0203]⟩
  | 0x21 => some ⟨2, true, false, .admin, true, [0] ++ List.replicate 16 full⟩
  | 0x28 => some ⟨2, true, false, .admin, true, [0xF3] ++ List.replicate 13 full ++ [0, full, full]⟩
  | 0x30 => some ⟨1, true, false, .mgmt, false, [0, full, full, full]⟩
  | 0x31 => some ⟨1, true, false, .mgmt, false, [0, full, full, full]⟩
  | 0x1C => some ⟨1, true, true, .admin, true, [0x800010FF, full, full, 0x1FFFF, 0x1FFFF]⟩
  | 0x40 => some ⟨1, true, true, .tenant, true, [0xFFF01FFF, full, 0xFFFFF, full, 0xFFFFF, full, 0x1FF]⟩
  | 0x41 => some ⟨1, true, true, .tenant, true, [1]⟩
  | 0x42 => some ⟨1, true, true, .tenant, true, [0xF000000F, full, full, 0xFFFFFF, full, 0x800FFFFF]⟩
  | 0x44 => some ⟨1, true, true, .tenant, true, [0xF3, full, 0xFFFFF, full, full, full, full]⟩
  | 0x43 => some ⟨1, true, true, .any, false, [0x80FFFFFF]⟩
  | 0x45 => some ⟨1, true, true, .tenant, true, [1, full, 0xFFFFF]⟩
  | 0x4F => some ⟨1, true, true, .tenant, true, [0xF, full, 0xFFFFF, 0x7FFFFFF]⟩
  | 0x46 => some ⟨1, true, true, .tenant, true, [0xFFFF0003, full, 0xFFFFF]⟩
  | 0x47 => some ⟨1, true, true, .tenant, true, [1, full, 0xFFFFF]⟩
  | 0x48 => some ⟨1, true, true, .tenant, true, [0xF03F0000, 0x7FFFFF, full, 0xFFFFF, full, 0xFF, full, 0x800FFFFF, full, 0x81FFFFFF]⟩
  | 0x49 => some ⟨1, true, true, .tenant, true, [0xF000008F, full, full]⟩
  | 0x4A => some ⟨1, true, true, .tenant, true, [0xF, full, 0xFFFFF, 0x1FFFFFF]⟩
  | 0x4B => some ⟨1, true, true, .tenant, true, [0xF, full, 0xFFFFF, 0x1FFFFFF]⟩
  | 0x4C => some ⟨1, true, true, .tenant, true, [1, full, 0xFFFFF]⟩
  | 0x4D => some ⟨1, true, true, .windows, false, [0xFFF, 0xE00FFFFF, 0xFFFFF000, full, 0xFFFF]⟩
  | 0x4E => some ⟨1, true, true, .windows, false, [0xFFF]⟩
  | 0x50 => some ⟨1, true, true, .tenant, true, [0xF03FF000, 0xFFFC07FF, full, 0xFFFFF, full, 0xFF, full, 0x800FFFFF, full, 0x81FFFFFF]⟩
  | 0x51 => some ⟨1, true, true, .tenant, true, [0xFC000000, full, 0xFFFFF, full, 0xFFFFF, 0x1FFFFF]⟩
  | 0x52 => some ⟨1, true, true, .tenant, true, [1, full, 0xFFFFF]⟩
  | 0x80 => some ⟨2, false, true, .tenant, true, lookupMask⟩
  | 0x81 => some ⟨2, false, true, .tenant, true, lookupMask⟩
  | 0x84 => some ⟨2, false, true, .tenant, true,
      [0xFFFFF8FF, 0xFFFF1FFF, full] ++ (List.replicate 4 [full, 0xFFFFF]).flatten ++ [0xFFFF03FF, 0xFFFFF, full, full, full]⟩
  | 0x86 => some ⟨2, false, true, .tenant, true,
      [0xFFFFEFFF, 0xFF001FFF, full, full, 0xFFFFF, full, 0] ++ (List.replicate 5 [full, 0xFFFFF]).flatten⟩
  | 0x88 => some ⟨2, false, true, .tenant, true, searchMask⟩
  | 0x89 => some ⟨2, false, true, .tenant, true, searchMask⟩
  | 0xA0 => some ⟨2, false, true, .tenant, true, launchMask⟩
  | 0xA8 => some ⟨2, false, true, .tenant, true, launchMask ++ [full, 0xFFFFF, full, 0xFFFF]⟩
  | 0xAC => some ⟨1, false, true, .tenant, true, [0x8000000F, full, 0xFFFFF, 0x1FFFF]⟩
  | 0xC0 => some ⟨2, false, true, .tenant, true, collMask⟩
  | 0xC1 => some ⟨2, false, true, .tenant, true, collMask⟩
  | 0xC2 => some ⟨2, false, true, .tenant, true, collMask⟩
  | 0xE0 => some ⟨1, true, true, .mgmt, false, [0, full, full, full]⟩
  | 0xE1 => some ⟨1, true, true, .mgmt, false, []⟩
  | 0xE8 => some ⟨1, true, true, .mgmt, false, []⟩
  | 0xE9 => some ⟨1, true, true, .mgmt, false, [1, 0xFFFF, 0x1FFFF, full, full]⟩
  | 0xEA => some ⟨1, true, true, .mgmt, false, []⟩
  | 0xF0 => some ⟨1, true, true, .debug, false, []⟩
  | 0xF1 => some ⟨1, true, true, .debug, false, []⟩
  | 0xF2 => some ⟨1, true, true, .debug, false, [3, 0, 0, 0, full, full]⟩
  | 0xF3 => some ⟨1, true, true, .debug, false, []⟩
  | 0xF4 => some ⟨1, true, true, .debug, false, [0, full, full, full, full, full]⟩
  | 0xF5 => some ⟨1, true, true, .debug, false, [0, full, full, full, full, full]⟩
  | 0xF6 => some ⟨1, true, true, .debug, false, [0x11F]⟩
  | 0xF7 => some ⟨1, true, true, .debug, false, [0x1F]⟩
  | _ => none

/-- No bit outside the masks is set; words beyond the masks are reserved (R7). -/
def reservedClear : List Word → List Nat → Bool
  | [], _ => true
  | w :: ws, [] => decide (w = 0) && reservedClear ws []
  | w :: ws, m :: ms => decide (w.toNat &&& (0xFFFFFFFF - m) = 0) && reservedClear ws ms

/-- Reserved bits of header words 0 to 2: DEADLINE only for opcodes 0x80 to 0x9F, TCX and EPOCH only where a TCX is named. -/
def headerClear (ws : List Word) (names : Bool) : Bool :=
  decide (field ws 0 12 10 = 0) && decide (field ws 2 6 4 = 0) && decide (field ws 2 1 0 = 0)
    && (names || decide (field ws 0 31 16 = 0))
    && (decide (0x80 ≤ hdrOpcode ws ∧ hdrOpcode ws ≤ 0x9F) || decide (hdrDeadline ws = 0))

/-- Host memory as the item's own reads see it: none where a byte has no completion, else the byte and its EP bit. -/
def hostByte (host : List HostByte) (hid hpa : Nat) : Option (Byte × Bool) :=
  (host.find? fun h => h.hid.toNat = hid && h.hpa = hpa).map fun h => (h.val, h.ep)

/-- `n` bytes of host memory. -/
def hostBytes (host : List HostByte) (hid hpa n : Nat) : Option (List Byte) :=
  (List.range n).mapM fun i => (hostByte host hid (hpa + i)).map (·.1)

end Sys2Proof.Machine
end

