-- ==== Sys2Proof/Machine/Flags.lean ====
section
/-!
DEFINITION. The status codes, their ranks and their combination (Table 18.8, R378, R379).
-/

namespace Sys2Proof.Machine

/-- Code of Table 18.8. -/
def statusCode : Status → Nat
  | .ok => 0x0000 | .partialMap => 0x0001 | .spillway => 0x0002 | .late => 0x0003 | .promotePartial => 0x0004
  | .waitExpired => 0x0005 | .unreproducible => 0x0006 | .aborted => 0x0010 | .alreadyDone => 0x0011
  | .mapFault => 0x0020 | .rightsFault => 0x0021 | .poisoned => 0x0030 | .tagFail => 0x0031
  | .keyRefused => 0x0032 | .mediaReadOnly => 0x0038 | .stateLost => 0x0040 | .staleBurst => 0x0041
  | .fenced => 0x0050 | .memberLost => 0x0051 | .versionRefused => 0x0060 | .held => 0x0061
  | .mirrorDiverged => 0x0070 | .genStale => 0x0071 | .ofaOverflow => 0x0080 | .indexRange => 0x0090
  | .imageRefused => 0x00A0 | .crownTrap => 0x00A1 | .rolledBack => 0x00B0 | .lockBroken => 0x00C0
  | .invalid => 0x00F0

/-- Rank of Table 18.8; a sole status has none and is given 0. -/
def statusRank : Status → Nat
  | .stateLost => 1 | .memberLost => 2 | .staleBurst => 3 | .rightsFault => 4 | .mediaReadOnly => 5
  | .mapFault => 6 | .crownTrap => 7 | .indexRange => 8 | .tagFail => 9 | .poisoned => 10
  | .ofaOverflow => 11 | .partialMap => 12 | .spillway => 13 | .late => 14 | .unreproducible => 15
  | .promotePartial => 16 | .ok => 17
  | .waitExpired | .aborted | .alreadyDone | .keyRefused | .fenced | .versionRefused | .held | .mirrorDiverged
  | .genStale | .imageRefused | .rolledBack | .lockBroken | .invalid => 0

/-- A status that is written alone. -/
def statusSole (st : Status) : Bool := decide (statusRank st = 0)

/-- The status of two that apply: the sole one, or the lower-numbered rank; of two sole ones the first decided. -/
def statusJoin (a b : Status) : Status := if statusRank a ≤ statusRank b then a else b

/-- The status a command reports when these apply, the first decided first (R378, R379). -/
def statusOf (l : List Status) : Status := l.foldl statusJoin .ok

/-- A status when its condition holds. -/
def statusIf (c : Bool) (st : Status) : Status := if c then st else .ok

end Sys2Proof.Machine
end

