-- ==== Sys2Proof/Machine/Records.lean ====
section
/-!
DEFINITION. Event records, the recorder's two parts (R451 to R456), and notices to the fabric manager (R441, R442).
-/

namespace Sys2Proof.Machine

/-- A record of Table 23.1 with VALID = 1. -/
def recordOf (body : List Word) (cls : Nat) (persist : Bool) (time : Nat) : Record :=
  (List.range 6).map (fun i => body.getD i 0) ++
    [BitVec.ofNat 32 time, BitVec.ofNat 32 (bits time 55 32 + cls * 2 ^ 24 + (if persist then 2 ^ 30 else 0) + 2 ^ 31)]

/-- A record reaches the volatile part: stored, or counted in FROZEN_DROPS or FULL_DROPS (R454). -/
def storeVolatile (r : RecSt) (rec : Record) : RecSt :=
  if r.frozen then { r with frozenDrops := satAdd 32 r.frozenDrops 1, frozenSince := satAdd 32 r.frozenSince 1 }
  else if r.entries.length ≥ 65536 then
    { r with fullDrops := satAdd 32 r.fullDrops 1, fullSince := satAdd 32 r.fullSince 1 }
  else { r with entries := r.entries ++ [rec] }

/-- A record reaches the persistent ring, which keeps the newest 4,096 (R456). -/
def storePersistent (r : RecSt) (rec : Record) : RecSt := { r with persistent := lastN 4096 (r.persistent ++ [rec]) }

/-- A HIT entry grants a polder; its POLDER_MASK is never used while VALID = 0 (R34, R36). -/
def polderBit (h : HitEntry) (p : Nat) : Bool := h.valid && h.mask.getLsbD p

/-- Appends to the record of what leaves the device. -/
def emit (e : Emit) (s : State) : State := { s with out := e :: s.out }

/-- Raises one in-band interrupt whose data byte is TERP_IRQ_STATUS (R497). -/
def raiseIbi (s : State) : State :=
  if s.regs.ibiEnabled && !s.pins.smbus then
    emit (.ibi s.regs.irqStatus) { s with regs := { s.regs with ibi := some (s.regs.irqStatus, false) } }
  else s

/-- An event sets bit `n` of TERP_IRQ_STATUS; a bit that was clear and is enabled raises an interrupt (R497). -/
def raiseIrq (n : Nat) (s : State) : State :=
  if s.regs.irqStatus.getLsbD n then s
  else
    let s := { s with regs := { s.regs with irqStatus := s.regs.irqStatus ||| BitVec.ofNat 8 (2 ^ n) } }
    if s.regs.irqEnable.getLsbD n then raiseIbi s else s

/-- A record of both parts, or of the volatile part alone; PREC_NEW is set by one that enters the persistent part (R453 to R456, Table 26.5). -/
def putRecord (persist : Bool) (entry : Record) (s : State) : State :=
  let r := storeVolatile s.recorder entry
  if persist then raiseIrq 6 { s with recorder := storePersistent r entry } else { s with recorder := r }

/-- Writes a record of a class to the parts that take it (R453 to R456). -/
def writeRecord (cls : Nat) (persist : Bool) (body : List Word) (s : State) : State :=
  putRecord persist (recordOf body cls persist s.time) s

/-- Codes that Table 23.3 marks P. -/
def eventPersists (code : Nat) : Bool :=
  [0x02, 0x08, 0x09, 0x0A, 0x0B, 0x0D, 0x0E, 0x0F, 0x10, 0x11, 0x12].contains code

/-- Key of the COUNT of an EVENT code and unit. -/
def eventKey (code unit : Nat) : Nat := code * 2 ^ 24 + unit

/-- Counts an occurrence that writes no record of its own (R452, COUNT). -/
def countEvent (code unit : Nat) (s : State) : State :=
  { s with recorder := { s.recorder with counts := tabModify s.recorder.counts 0 (eventKey code unit) (· + 1) } }

/-- Writes an EVENT record with COUNT since the previous record of this code and unit (R452). -/
def writeEvent (code unit tcx polder addr detail : Nat) (s : State) : State :=
  let count := tabGet s.recorder.counts 0 (eventKey code unit) + 1
  let s := { s with recorder := { s.recorder with counts := tabPut s.recorder.counts 0 (eventKey code unit) 0 } }
  writeRecord 0x03 (eventPersists code)
    [BitVec.ofNat 32 (code * 2 ^ 24 + unit % 2 ^ 24), BitVec.ofNat 32 (tcx * 2 ^ 20 + polder * 2 ^ 13),
     BitVec.ofNat 32 addr, BitVec.ofNat 32 (addr / 2 ^ 32), BitVec.ofNat 32 count, BitVec.ofNat 32 detail] s

/-- What a notice names (Table 22.3). -/
structure Subject where
  kind : Nat
  polder : Nat := 64
  port : Nat := 31
  hid : Nat := 0
  unit : Nat := 0
  tcx : Nat := 0
deriving DecidableEq, Repr

def windowSubject (w : NoticeWindow) : Subject := ⟨w.kind, w.polder, w.port, w.hid, w.unit, w.tcx⟩

/-- Words 0 to 7 of Table 22.3. -/
def noticeWords (sub : Subject) (seq count addr time : Nat) : List Word :=
  [BitVec.ofNat 32 (sub.kind * 2 ^ 24 + seq % 2 ^ 24), BitVec.ofNat 32 (sub.polder * 2 ^ 13 + sub.port * 2 ^ 8 + sub.hid),
   BitVec.ofNat 32 (sub.unit * 2 ^ 12 + sub.tcx), BitVec.ofNat 32 count,
   BitVec.ofNat 32 addr, BitVec.ofNat 32 (addr / 2 ^ 32), BitVec.ofNat 32 time, BitVec.ofNat 32 (bits time 55 32)]

/-- Notices of these kinds stay out of the persistent ring (R456). -/
def noticePersists (kind : Nat) : Bool := !(decide (kind = 0x01 ∨ kind = 0x0A ∨ kind = 0x0D))

/-- Writes one notice: its record, SEQ, and the MCTP message when FM_NOTIFY.ENABLE = 1 (R441). -/
def writeNotice (sub : Subject) (count addr time : Nat) (s : State) : State :=
  let words := noticeWords sub s.flt.noticeSeq.toNat count addr time
  let s := putRecord (noticePersists sub.kind) (recordOf words 0x01 (noticePersists sub.kind) time) s
  { s with flt := { s.flt with noticeSeq := s.flt.noticeSeq + 1 }
           out := if s.flt.notifyEnable then .notice words :: s.out else s.out }

/-- The FM is notified of an occurrence: a notice at once that opens a window of 1 ms, or a suppressed occurrence (R441). -/
def notifyFm (sub : Subject) (addr : Nat) (s : State) : State :=
  if s.flt.windows.any fun w => windowSubject w = sub then
    let windows := s.flt.windows.map fun w =>
      if windowSubject w = sub then
        { w with suppressed := w.suppressed + 1
                 firstAddr := if w.suppressed = 0 then addr else w.firstAddr
                 firstTime := if w.suppressed = 0 then s.time else w.firstTime }
      else w
    { s with flt := { s.flt with windows := windows } }
  else
    let s := { s with flt := { s.flt with windows := s.flt.windows ++
      [⟨sub.kind, sub.polder, sub.port, sub.hid, sub.unit, sub.tcx, 0, 0, 0⟩] } }
    writeNotice sub 1 addr s.time s

/-- The 1 ms window of a subject ends (R441). -/
def endWindow (sub : Subject) (s : State) : State :=
  match s.flt.windows.find? fun w => windowSubject w = sub with
  | none => s
  | some w =>
    let others := s.flt.windows.filter fun w' => windowSubject w' ≠ sub
    if w.suppressed = 0 then { s with flt := { s.flt with windows := others } }
    else
      let s := { s with flt := { s.flt with windows := others ++ [{ w with suppressed := 0, firstAddr := 0, firstTime := 0 }] } }
      writeNotice sub w.suppressed w.firstAddr w.firstTime s

/-- Draws the next free value's index. [DESIGN CHOICE, log 1] -/
def drawFree (s : State) : State := { s with free := s.free + 1 }

end Sys2Proof.Machine
end

