-- ==== Sys2Proof/Machine/Rings.lean ====
section
/-!
DEFINITION. Sluices, completion rings, interrupts and asynchronous events (chapter 17).
-/

namespace Sys2Proof.Machine

/-- Number of a sluice: port × 16 + LD. -/
def sluiceIx (port : Fin 17) (ld : Fin 16) : Nat := port.val * 16 + ld.val

/-- The management sluice: port 16, LD 0 (R339). -/
def mgmtIx : Nat := 256

def findSluice (s : State) (ix : Nat) : Option Sluice := tabFind s.q.sluices ix

def sluiceOr (s : State) (ix : Nat) : Sluice := tabGet s.q.sluices {} ix

/-- Changes a sluice that exists. -/
def modSluice (ix : Nat) (f : Sluice → Sluice) (s : State) : State :=
  match tabFind s.q.sluices ix with
  | none => s
  | some sl => { s with q := { s.q with sluices := tabInsert s.q.sluices ix (f sl) } }

/-- A ring pair of a sluice: the admin rings, or a queue pair. -/
def ringOf (sl : Sluice) : Option Nat → Option Ring
  | none => some sl.admin
  | some qp => tabFind sl.qps qp

def putRing (qn : Option Nat) (r : Ring) (sl : Sluice) : Sluice :=
  match qn with
  | none => { sl with admin := r }
  | some qp => { sl with qps := tabInsert sl.qps qp r }

def portAt (s : State) (port : Nat) : Port := tabGet s.port.ports {} port

/-- The link that carries an LD (Table 20.1). -/
def linkOfLd (width ld : Nat) : Nat := if width = 1 then ld / 8 else if width = 2 then ld / 4 else 0

def linkAt (s : State) (port link : Nat) : Link := tabGet (portAt s port).links {} link

def linkUp (l : Link) : Bool := decide (l.state = .l0 ∨ l.state = .l1) || (decide (l.state = .training) && l.retrain)

/-- The link of a sluice's LD is in L0 or L1 (R406). -/
def sluiceLinkUp (s : State) (ix : Nat) : Bool :=
  linkUp (linkAt s (ix / 16) (linkOfLd (portAt s (ix / 16)).width (ix % 16)))

/-- The CQ is full when its tail + 1 equals the head last written (R351). -/
def cqFull (r : Ring) : Bool := decide ((r.cqTail + 1) % 2 ^ r.cqLog2 = r.cqHead)

/-- Sends a vector, or sets its pending bit while it is masked (R352). -/
def sendVector (ix vector : Nat) (s : State) : State :=
  if (sluiceOr s ix).unmasked.contains vector then emit (.msix ix vector) s
  else modSluice ix (fun sl => { sl with msixPending := if sl.msixPending.contains vector then sl.msixPending else sl.msixPending ++ [vector] }) s

/-- SQ_HEAD and PHASE are those of the moment of writing (Table 17.8). -/
def stampEntry (r : Ring) (words : List Word) : List Word :=
  words.mapIdx fun i w =>
    if i = 4 then BitVec.ofNat 32 ((w.toNat >>> 16) * 2 ^ 16 + r.sqHead % 2 ^ 16)
    else if i = 7 then BitVec.ofNat 32 ((w.toNat >>> 1) * 2 + (if r.phase then 1 else 0)) else w

/-- Writes bytes into the ring window of a sluice (R345). -/
def windowWrite (offset : Nat) (data : List Byte) (sl : Sluice) : Sluice :=
  { sl with window := (List.range data.length).foldl (fun w i => tabPut w 0 (offset + i) (data.getD i 0)) sl.window }

/-- Writes an entry at the tail of a completion ring, flips PHASE at the wrap, and counts it for the interrupt (R351, R352). -/
def writeEntry (ix : Nat) (qn : Option Nat) (words : List Word) (noirq : Bool) (s : State) : State :=
  match findSluice s ix with
  | none => s
  | some sl =>
    match ringOf sl qn with
    | none => s
    | some r =>
      let slot := r.cqTail
      let entry := stampEntry r words
      let next := (slot + 1) % 2 ^ r.cqLog2
      let uncovered := if noirq then r.uncovered else r.uncovered + 1
      let fire := r.irqEn && !noirq && decide (uncovered ≥ max 1 r.aggCount)
      let r' := { r with cqTail := next, phase := if next = 0 then !r.phase else r.phase
                         uncovered := if fire then 0 else if r.irqEn then uncovered else 0 }
      let place := fun sl : Sluice =>
        if r.cqDev then windowWrite (r.cqBase + 32 * slot) (wordsToBytes entry) sl else sl
      let s := modSluice ix (fun sl => place (putRing qn r' sl)) s
      let s := emit (.cqe ix qn slot entry) s
      if fire then sendVector ix r.vector s else s

/-- Holds an entry for a full ring and counts it (R351). -/
def holdEntry (ix : Nat) (qn : Option Nat) (words : List Word) (noirq : Bool) (s : State) : State :=
  modSluice ix (fun sl =>
    match ringOf sl qn with
    | none => sl
    | some r => putRing qn { r with held := r.held ++ [(words, noirq)] } { sl with cqHoldCount := satAdd 32 sl.cqHoldCount 1 }) s

/-- A completion entry reaches its ring: written, held for a full ring, or held while the port is down (R351, R359). -/
def postEntry (ix : Nat) (qn : Option Nat) (words : List Word) (noirq : Bool) (s : State) : State :=
  match findSluice s ix with
  | none => { s with q := { s.q with discarded := s.q.discarded + 1 } }
  | some sl =>
    match ringOf sl qn with
    | none => { s with q := { s.q with discarded := s.q.discarded + 1 } }
    | some r =>
      if sluiceLinkUp s ix = false then
        { s with q := { s.q with portHeld := s.q.portHeld ++ [(ix, (match qn with | none => 256 | some n => n) + (if noirq then 512 else 0), words)] } }
      else if r.held = [] && !cqFull r then writeEntry ix qn words noirq s
      else holdEntry ix qn words noirq s

/-- Words of an asynchronous event entry (R357). [DEDUCED, log 29] -/
def eventWords (lo count addr : Nat) : List Word :=
  [BitVec.ofNat 32 lo, BitVec.ofNat 32 count, BitVec.ofNat 32 addr, BitVec.ofNat 32 (addr / 2 ^ 32),
   BitVec.ofNat 32 (2 ^ 24), 0x0000FFFF, 4, 0]

/-- Events go out while the admin CQ has space, EVENTS_LOST first after a drop (R357). [DEDUCED, log 39] -/
def drainEvents : Nat → Nat → State → State
  | 0, _, s => s
  | fuel + 1, ix, s =>
    match findSluice s ix with
    | none => s
    | some sl =>
      if sl.adminEnable && sluiceLinkUp s ix && sl.admin.held = [] && !cqFull sl.admin then
        if sl.eventsLost ≠ 0 then
          drainEvents fuel ix (modSluice ix (fun sl => { sl with eventsLost := 0 })
            (writeEntry ix none (eventWords (0x3F * 2 ^ 24 + 64 * 2 ^ 5) sl.eventsLost 0) false s))
        else match sl.events with
          | [] => s
          | e :: rest =>
            drainEvents fuel ix (modSluice ix (fun sl => { sl with events := rest }) (writeEntry ix none e false s))
      else s

/-- An asynchronous event for one sluice (R357): KIND, TCX, POLDER (64 = none) and the address concerned. -/
def postAsync (kind tcx polder addr : Nat) (ix : Nat) (s : State) : State :=
  match findSluice s ix with
  | none => s
  | some sl =>
    let lo := kind * 2 ^ 24 + tcx * 2 ^ 12 + polder * 2 ^ 5
    if sl.events.length ≥ 64 then
      modSluice ix (fun sl => { sl with asyncLost := true, asyncDropCount := satAdd 32 sl.asyncDropCount 1
                                        eventsLost := sl.eventsLost + 1
                                        eventsDropped := tabModify sl.eventsDropped 0 lo (· + 1) }) s
    else
      let count := tabGet sl.eventsDropped 0 lo + 1
      let s := modSluice ix (fun sl => { sl with events := sl.events ++ [eventWords lo count addr]
                                                 eventsDropped := tabErase sl.eventsDropped lo }) s
      drainEvents 66 ix s

def postAsyncAll (kind tcx polder addr : Nat) (ixs : List Nat) (s : State) : State :=
  ixs.foldl (fun s ix => postAsync kind tcx polder addr ix s) s

def readySluices (s : State) : List Nat := (s.q.sluices.filter fun e => e.2.state = .ready).map (·.1)

def allSluices (s : State) : List Nat := s.q.sluices.map (·.1)

/-- Sluices whose HID has the polder in POLDER_MASK (Table 17.11). -/
def polderSluices (s : State) (polder : Nat) : List Nat :=
  (s.q.sluices.filter fun e => polderBit (tabGet s.hit {} e.2.hid) polder).map (·.1)

/-- Held entries go out while the ring has space, then events of the admin ring. -/
def drainRing : Nat → Nat → Option Nat → State → State
  | 0, ix, qn, s => if qn = none then drainEvents 66 ix s else s
  | fuel + 1, ix, qn, s =>
    match (findSluice s ix).bind fun sl => ringOf sl qn with
    | none => s
    | some r =>
      match r.held with
      | [] => drainRing fuel ix qn s
      | (words, noirq) :: rest =>
        if cqFull r || !sluiceLinkUp s ix then s
        else
          let s := modSluice ix (putRing qn { r with held := rest }) s
          drainRing fuel ix qn (writeEntry ix qn words noirq s)

/-- Entries held while the port was down are written in order (R359, R411). -/
def releasePortHeld (ix : Nat) (s : State) : State :=
  let mine := s.q.portHeld.filter fun e => e.1 = ix
  let s := { s with q := { s.q with portHeld := s.q.portHeld.filter fun e => e.1 ≠ ix } }
  let s := mine.foldl (fun s e =>
    postEntry ix (if e.2.1 % 512 = 256 then none else some (e.2.1 % 512)) e.2.2 (decide (e.2.1 ≥ 512)) s) s
  drainEvents 66 ix s

end Sys2Proof.Machine
end

