-- ==== Sys2Proof/Machine/Ops.lean ====
section
/-!
DEFINITION. Named operations on the registers and tables of the state: polders, tenant contexts, segments, hosts,
arrival counters and counter blocks.
-/

namespace Sys2Proof.Machine

def polderOf (s : State) (p : Nat) : Polder := tabGet s.polders {} p

def setPolder (p : Nat) (v : Polder) (s : State) : State := { s with polders := tabPut s.polders {} p v }

def modPolder (p : Nat) (f : Polder → Polder) (s : State) : State := setPolder p (f (polderOf s p)) s

def tcxOf (s : State) (t : Nat) : Tcx := tabGet s.tcxs {} t

def setTcx (t : Nat) (v : Tcx) (s : State) : State := { s with tcxs := tabPut s.tcxs {} t v }

def modTcx (t : Nat) (f : Tcx → Tcx) (s : State) : State := setTcx t (f (tcxOf s t)) s

/-- Segment `n` of TCX `t`: entry 16 × t + n (R45). -/
def segOf (s : State) (t n : Nat) : Segment := tabGet s.segs {} (16 * t + n)

def setSeg (t n : Nat) (v : Segment) (s : State) : State := { s with segs := tabPut s.segs {} (16 * t + n) v }

def hitOf (s : State) (hid : Nat) : HitEntry := tabGet s.hit {} hid

def setHit (hid : Nat) (v : HitEntry) (s : State) : State := { s with hit := tabPut s.hit {} hid v }

def modHit (hid : Nat) (f : HitEntry → HitEntry) (s : State) : State := setHit hid (f (hitOf s hid)) s

/-- The LD (port × 16 + LD) bound to a HID (R33). -/
def ldOfHid (s : State) (hid : Nat) : Option Nat := (s.q.bound.find? fun e => e.2 = hid).map (·.1)

def nandOf (s : State) (n : Nat) : Nand := tabGet s.ftl.chans {} n

def setNand (n : Nat) (v : Nand) (s : State) : State := { s with ftl := { s.ftl with chans := tabPut s.ftl.chans {} n v } }

def modNand (n : Nat) (f : Nand → Nand) (s : State) : State := setNand n (f (nandOf s n)) s

/-- Raises an arrival counter of a TCX; it saturates (R194). -/
def raiseCounter (t cnt n : Nat) (s : State) : State :=
  modTcx t (fun x => { x with arrival := tabModify x.arrival 0 cnt fun c => satAdd 64 c n }) s

def counterOf (s : State) (t cnt : Nat) : Nat := tabGet (tcxOf s t).arrival 0 cnt

/-- Raises the timing-dependent-choice counter of a TCX (R321). -/
def raiseTdc (t n : Nat) (s : State) : State := modTcx t (fun x => { x with tdc := x.tdc + n }) s

/-- A 64-bit saturating counter of a block, by byte offset (R108, R126, R148, R184, R208, R234). -/
def bump (t : Tab Nat) (offset n : Nat) : Tab Nat := tabModify t 0 offset fun c => satAdd 64 c n

def bumpTier (p offset n : Nat) (s : State) : State := modPolder p (fun x => { x with tierCnt := bump x.tierCnt offset n }) s
def bumpFlash (p offset n : Nat) (s : State) : State := modPolder p (fun x => { x with flashCnt := bump x.flashCnt offset n }) s
def bumpResil (p offset n : Nat) (s : State) : State := modPolder p (fun x => { x with resilCnt := bump x.resilCnt offset n }) s
def bumpWeir (p offset n : Nat) (s : State) : State := modPolder p (fun x => { x with weirCnt := bump x.weirCnt offset n }) s
def bumpCopy (p offset n : Nat) (s : State) : State := modPolder p (fun x => { x with copyCnt := bump x.copyCnt offset n }) s
def bumpLookup (p offset n : Nat) (s : State) : State := modPolder p (fun x => { x with lookupCnt := bump x.lookupCnt offset n }) s

/-! ### The mode word (Table 16.1) -/

def modeCoh (m : BitVec 32) : Nat := bits m.toNat 31 30
def modeRes (m : BitVec 32) : Nat := bits m.toNat 29 27
def modeInteg (m : BitVec 32) : Nat := bits m.toNat 26 25
def modeEnc (m : BitVec 32) : Nat := bits m.toNat 24 24
def modeDet (m : BitVec 32) : Nat := bits m.toNat 23 22
def modePwr (m : BitVec 32) : Nat := bits m.toNat 21 20
def modeSfmt (m : BitVec 32) : Nat := bits m.toNat 19 18
def modeSpill (m : BitVec 32) : Nat := bits m.toNat 17 16

def isHdmDb (m : BitVec 32) : Bool := decide (modeCoh m = 1)
def isPrivate (m : BitVec 32) : Bool := decide (modeCoh m = 3)
def isMirror (m : BitVec 32) : Bool := decide (modeRes m = 1)
def isParity (m : BitVec 32) : Bool := decide (modeRes m = 2)
def isFatalMode (m : BitVec 32) : Bool := decide (modeRes m = 4)
def isTagged (m : BitVec 32) : Bool := decide (modeInteg m = 1)
def isOpenMode (m : BitVec 32) : Bool := decide (modeEnc m = 1)
def isReproducible (m : BitVec 32) : Bool := decide (modeDet m = 3)
def digestRequired (m : BitVec 32) : Bool := decide (modeDet m = 2 ∨ modeDet m = 3)
def spillEnabled (m : BitVec 32) : Bool := decide (modeSpill m = 1)

/-! ### The TPA map (Table 2.2) and the polder ranges (Table 2.3) -/

inductive Region where
  | dram | hbm | row | flash | host | reserved
deriving DecidableEq, Repr

def regionOf (tpa : Nat) : Region :=
  if tpa < 0x0C0000000000 then .dram
  else if 0x100000000000 ≤ tpa ∧ tpa < 0x104800000000 then .hbm
  else if 0x180000000000 ≤ tpa ∧ tpa < 0x18009F000000 then .row
  else if 0x200000000000 ≤ tpa ∧ tpa < 0x1200000000000 then .flash
  else if 0x3000000000000 ≤ tpa ∧ tpa < 0x4000000000000 then .host
  else .reserved

def gib : Nat := 2 ^ 30
def mib : Nat := 2 ^ 20
def rowBase : Nat := 0x180000000000
def unitBytes : Nat := 48 * mib
/-- 1.125 GiB (Table 2.1). -/
def pseudoBytes : Nat := 1152 * mib

def inRange (r : PRange) (tpa : Nat) : Bool := decide (r.base ≤ tpa ∧ tpa < r.base + r.size)

/-- The polder that holds an address in one of its ranges (R29). -/
def polderAt (s : State) (tpa : Nat) : Option Nat :=
  (s.polders.find? fun e =>
    inRange e.2.dramRange tpa || inRange e.2.hbmRange tpa || inRange e.2.flashRange tpa
      || (decide (regionOf tpa = .row) && e.2.rows.getLsbD ((tpa - rowBase) / unitBytes))).map (·.1)

/-- Row-store units of a polder that are mapped: all but the ROW_CACHE_UNITS highest-numbered (R93). -/
def mappedUnits (p : Polder) : List Nat :=
  let units := maskBits 53 p.rows.toNat
  units.take (units.length - p.rowCacheUnits)

/-- Usable bytes of a row-store unit: 42 MiB in a TAGGED polder (Table 8.4). -/
def unitUsable (p : Polder) : Nat := if isTagged p.modes then 42 * mib else unitBytes

/-- The usable ranges of a polder, as (base, length) (R29, R93). -/
def usableRanges (p : Polder) : List (Nat × Nat) :=
  [(p.dramRange.base, p.dramRange.usable), (p.hbmRange.base, p.hbmRange.usable), (p.flashRange.base, p.flashRange.usable)]
    ++ (mappedUnits p).map fun u => (rowBase + u * unitBytes, unitUsable p)

/-- Every address from `a` up to `b` lies in one of the intervals. -/
def covered : Nat → List (Nat × Nat) → Nat → Nat → Bool
  | 0, _, a, b => decide (b ≤ a)
  | fuel + 1, ivs, a, b =>
    if b ≤ a then true
    else match ivs.find? fun iv => iv.1 ≤ a && a < iv.1 + iv.2 with
      | none => false
      | some iv => covered fuel ivs (iv.1 + iv.2) b

/-- A range lies wholly within the polder's usable ranges. [DEDUCED, log 40] -/
def inPolder (p : Polder) (a len : Nat) : Bool := covered 60 (usableRanges p) a (a + len)

/-! ### Where a byte lies (Table 2.3, R112, R138, R139) -/

/-- Position in the polder's slice list, offset on the slice. -/
def interleave (block c off : Nat) : Nat × Nat :=
  let b := off / block
  (b % c, b / c * block + off % block)

/-- PARITY: position and channel offset of a data byte, `a` active channels (R139). -/
def parityPlace (a off : Nat) : Nat × Nat :=
  let d := off / 4096
  let p := 9 * (d / 8) + d % 8
  (p % a, p / a * 4096 + off % 4096)

/-- DDR channels of a PARITY polder by position; a consumed spare has taken the position of the failed channel (R139, R141). -/
def parityIds (p : Polder) : List Nat :=
  let ids := maskBits 24 p.ddr.toNat
  match p.spareFor with
  | none => ids.dropLast
  | some k => ids.dropLast.set k (ids.getLastD 0)

/-- DDR channels, by number, that hold a DRAM byte at a range offset: the data channel first, then its mirror. -/
def dramChannels (p : Polder) (off : Nat) : List Nat :=
  let ids := maskBits 24 p.ddr.toNat
  let c := ids.length
  if isMirror p.modes then
    let k := (interleave 4096 (c / 2) off).1
    [ids.getD k 0, ids.getD (k + c / 2) 0]
  else if isParity p.modes then [(parityIds p).getD (parityPlace (c - 1) off).1 0]
  else [ids.getD (interleave 4096 c off).1 0]

/-- The other channels of the stripe of a DRAM byte in a PARITY polder (R139). -/
def stripeChannels (p : Polder) (off : Nat) : List Nat :=
  let ids := parityIds p
  let a := ids.length
  let st := off / 4096 / 8
  (List.range 9).map fun j => ids.getD ((9 * st + j) % a) 0

/-- HBM pseudo-channels that hold an HBM byte. -/
def hbmChannels (p : Polder) (off : Nat) : List Nat :=
  let ids := maskBits 256 p.hbm.toNat
  let c := ids.length
  if isMirror p.modes then
    let k := (interleave 1024 (c / 2) off).1
    [ids.getD k 0, ids.getD (k + c / 2) 0]
  else [ids.getD (interleave 1024 c off).1 0]

/-- NAND channel and channel offset of a flash byte (R112). -/
def flashPlace (p : Polder) (off : Nat) : Nat × Nat :=
  let ids := maskBits 64 p.nand.toNat
  let (k, o) := interleave mib ids.length off
  (ids.getD k 0, o)

/-- Bytes of the block on the failed channel that the rebuild has reached are served from the spare (R141). -/
def rebuilt (p : Polder) (off : Nat) : Bool :=
  match p.rebuild with
  | none => false
  | some r => decide ((parityPlace (popcount 24 p.ddr.toNat - 1) off).2 < r.done)

/-- A line whose channel has failed and that no other copy, stripe or spare serves (Table 7.4, R138, R142, R143). -/
def channelLost (p : Polder) (tpa : Nat) : Bool :=
  match regionOf tpa with
  | .dram =>
    let off := tpa - p.dramRange.base
    if isParity p.modes then
      (dramChannels p off).any (fun c => p.lostDdr.getLsbD c) && !rebuilt p off
        && decide (((stripeChannels p off).filter fun c => p.lostDdr.getLsbD c).length ≥ 2)
    else (dramChannels p off).all fun c => p.lostDdr.getLsbD c
  | .hbm => (hbmChannels p (tpa - p.hbmRange.base)).all fun c => p.lostHbm.getLsbD c
  | _ => false

end Sys2Proof.Machine
end

