-- ==== Sys2Proof/Machine/Buffer.lean ====
section
/-!
DEFINITION. The shared buffer of a weir (R177, Table 9.5) and the DevLoad of responses to hosts (R181, Table 9.7).
-/

namespace Sys2Proof.Machine

/-- Cells of a frame: its 32 B header and payload in cells of 64 B. -/
def cellsOf (f : Frame) : Nat := (32 + 8 * f.len.toNat + 63) / 64

/-- Key of the queue of a destination endpoint and class at a die. -/
def queueKey (die ep cls : Nat) : Nat := (die * 17 + ep) * 8 + cls

/-- Cells of the shared pool of a die. -/
def poolCells (die : Nat) : Nat := if die = 0 then 325632 else 327680

/-- Shared-pool cells that a polder may occupy. -/
def polderCap (die : Nat) : Nat := poolCells die / 8

def cellSum (l : List QFrame) (p : QFrame → Bool) : Nat := ((l.filter p).map (·.cells)).sum

/-- Queued frames of a die. -/
def dieFrames (s : State) (die : Nat) : List QFrame := s.weir.queues.flatMap fun e => if e.1 / 136 = die then e.2 else []

/-- Shared cells that a polder occupies at a die. -/
def polderCells (s : State) (die polder : Nat) : Nat := cellSum (dieFrames s die) fun q => q.shared && decide (q.frame.polder.toNat = polder)

/-- Die that carries a port (Table 9.1). -/
def portDie (port : Nat) : Nat := if port = 16 then 0 else port / 4

/-- DevLoad of a response to a HID at an occupancy of its polder, in the CXL encoding: 0 Light, 1 Optimal, 2 Moderate,
3 Severe Overload. [DEDUCED, log 49] -/
def devLoadOf (s : State) (port hid polder : Nat) : Nat :=
  let die := portDie port
  let colour := (tabGet s.weir.lastColour 0 hid).toNat
  let held := polderCells s die polder
  let cap := polderCap die
  if colour = 2 ∨ 4 * held ≥ 3 * cap then 3
  else if colour = 1 ∨ 2 * held ≥ cap then 2
  else if 4 * held ≥ cap then 1
  else 0

/-- Sends an S2M message to the host of an LD, with its DevLoad. [DESIGN CHOICE, log 9] -/
def sendS2m (port ld tpa : Nat) (e : Emit) (s : State) : State :=
  match tabFind s.q.bound (port * 16 + ld) with
  | none => emit e s
  | some hid => emit e (emit (.devLoad hid (devLoadOf s port hid ((polderAt s tpa).getD 64))) s)

end Sys2Proof.Machine
end

