-- ==== Sys2Proof/Config.lean ====
section
/-!
DEFINITION. What the specification leaves to the implementation or to chance: constants without a body, so that nothing
can be proved of their values. Those that are drawn afresh take the counter `State.free`.
-/

namespace Sys2Proof.Config

/-- What a byte stored under one key reads as under another (R151): stored key, reading key, cell address, stored byte. [DESIGN CHOICE, log 14] -/
opaque wrongKey (stored reading cell : Nat) (b : Byte) : Byte

/-- A stored byte of an encrypted line (R151): key, home TPA, plaintext. The debug peek path reads it (R462). [DESIGN CHOICE, log 14] -/
opaque cipherByte (key tpa : Nat) (b : Byte) : Byte

/-- The 12-bit hash of a line and of a per-polder key that indexes the contention predictor (R80). [DESIGN CHOICE, log 15] -/
opaque predictorIndex (key line : Nat) : Nat

/-- The keyed hash that selects the set of a line in a polder's row cache (R224): polder key, line. [DESIGN CHOICE, log 15] -/
opaque rowSet (key line : Nat) : Nat

/-- The keyed hashes of the count-min sketch (R225): polder key, row of the sketch, row key. [DESIGN CHOICE, log 15] -/
opaque sketchIndex (key row line : Nat) : Nat

/-- KEY_ID of a key drawn by the SEC's random generator (R154). [DESIGN CHOICE, log 16] -/
opaque drawnKeyId (n : Nat) : BitVec 64

/-- Byte of the 48-byte blob of a key (R154): debug lock OPEN, key, KEY_ID, position. [DESIGN CHOICE, log 16] -/
opaque blobByte (open_ : Bool) (key : Nat) (keyId : BitVec 64) (i : Nat) : Byte

/-- What AES-KW under the transport key of a session unwraps to (R154): the key, or nothing when its integrity check fails. [DESIGN CHOICE, log 16] -/
opaque transportKey (secret : Nat) (wrapped : List Byte) : Option Nat

/-- The data bits of a read that the port refuses with poison (R38). [DESIGN CHOICE, log 17] -/
opaque refusedData (n : Nat) : BitVec 512

/-- CODE of the event record of a lost directory slot, which Table 23.3 does not list (R438). [DESIGN CHOICE, log 18] -/
opaque slotEventCode : BitVec 8

/-- The supported minor version of the image format (R304). [DESIGN CHOICE, log 19] -/
opaque formatMinor : Nat

/-- Local-store write collisions of a kernel, which its private code decides (R299, R309). [DESIGN CHOICE, log 20] -/
opaque writeCollisions (n : Nat) : BitVec 16

/-- Whether a flash map unit keeps the writes that a reset cut short: number of the reset's draw, unit (R449, R450). [DESIGN CHOICE, log 21] -/
opaque unitSurvives (n unit : Nat) : Bool

/-- DETAIL of the reset cause of an SEC watchdog, which Table 23.3 does not list (R437). [DESIGN CHOICE, log 18] -/
opaque secResetDetail : BitVec 32

/-- A byte of a NOR sector whose erase was cut short (R498): number of the draw, address. [DESIGN CHOICE, log 21] -/
opaque cutSector (n address : Nat) : Byte

/-- The 32-bit draw of a die's random early drop (R182). [DESIGN CHOICE, log 22] -/
opaque redDraw (n : Nat) : BitVec 32

/-- A seed or trim byte of the default calibration set: the nominal presets of Table 24.2 (R469). [DESIGN CHOICE, log 23] -/
opaque nominalSeed (offset : Nat) : Byte

/-- Measurement block 8 in a debug lock state: 0 LOCKED, 1 TENANT-SAFE, 2 OPEN (Table 8.6). [DESIGN CHOICE, log 24] -/
opaque lockDigest (state : Nat) : BitVec 256

/-- A byte of a firmware core's state and instruction banks, as the debug peek path reads it (R462): draw, core, offset. [DESIGN CHOICE, log 24] -/
opaque coreByte (n core offset : Nat) : Byte

/-- What a byte poked as stored reads as under the key of its line (R462): key, TPA, stored byte. [DESIGN CHOICE, log 14] -/
opaque plainByte (key tpa : Nat) (b : Byte) : Byte

/-- A NONCE of `DBG_CHALLENGE` (R460). [DESIGN CHOICE, log 25] -/
opaque nonce (n : Nat) : BitVec 64

/-- Length in bytes of the certificate chain of a device, by its package serial (R162). [DESIGN CHOICE, log 25] -/
opaque certLength (serial : List Byte) : Nat

/-- A byte of the certificate chain of a device (R162). [DESIGN CHOICE, log 25] -/
opaque certByte (serial : List Byte) (i : Nat) : Byte

/-- A word of an SPDM signature: number of the draw, word (R162). [DESIGN CHOICE, log 25] -/
opaque signatureWord (n i : Nat) : BitVec 32

/-- Whether a stopped lookup has written a line of its outputs (R223, Table 18.3): number of the draw, line. [DESIGN CHOICE, log 61] -/
opaque outputTouched (n line : Nat) : Bool

/-- A byte of the outputs of a stopped lookup (R223, Table 18.3): number of the draw, DVA. [DESIGN CHOICE, log 61] -/
opaque outputByte (n dva : Nat) : Byte

end Sys2Proof.Config
end

