-- ==== Sys2Proof/Machine/Memory.lean ====
section
/-!
DEFINITION. The bytes of the tray and their poison (chapters 2, 6, 7), translation by segments (chapter 3), key
bindings (chapter 8) and host-tier windows (chapter 5).
-/

namespace Sys2Proof.Machine

/-- Address of a byte in `MemSt`: the TPA, but on flash the NAND channel and its offset, which outlive the polder (R112, R450). [DESIGN CHOICE, log 4] -/
def cellOf (s : State) (tpa : Nat) : Nat :=
  if regionOf tpa = .flash then
    match polderAt s tpa with
    | none => tpa
    | some p =>
      let (ch, off) := flashPlace (polderOf s p) (tpa - (polderOf s p).flashRange.base)
      2 ^ 60 + ch * 2 ^ 44 + off
  else tpa

/-- Die of the home of a line (R14). -/
def homeDie (s : State) (tpa : Nat) : Nat :=
  match polderAt s tpa with
  | none => 0
  | some p =>
    let po := polderOf s p
    match regionOf tpa with
    | .dram => (dramChannels po (tpa - po.dramRange.base)).headD 0 / 6
    | .hbm => (hbmChannels po (tpa - po.hbmRange.base)).headD 0 / 64
    | .row => ((tpa - rowBase) % unitBytes / 4096) % 8 / 2
    | .flash => (flashPlace po (tpa - po.flashRange.base)).1 / 16
    | _ => 0

/-! ### Granules and keys -/

/-- Granule of an address: 2 MiB in HBM and the row store, 1 GiB in DRAM and flash (R152). -/
def granuleOf (tpa : Nat) : Nat :=
  if regionOf tpa = .hbm ∨ regionOf tpa = .row then 2 * (tpa / (2 * mib)) else 2 * (tpa / gib) + 1

def granuleBytes (tpa : Nat) : Nat := if regionOf tpa = .hbm ∨ regionOf tpa = .row then 2 * mib else gib

def bindingOf (s : State) (tpa : Nat) : Binding := tabGet s.key.bindings .unbound (granuleOf tpa)

def keySlotOf (s : State) (t slot : Nat) : Option KeySlot := tabFind (tcxOf s t).keys slot

/-- The key under which the device reads and writes a byte: 0 in an OPEN polder or where no key is bound. -/
def keyOf (s : State) (tpa : Nat) : Nat :=
  match polderAt s tpa with
  | none => 0
  | some p =>
    if isOpenMode (polderOf s p).modes then 0
    else match bindingOf s tpa with
      | .bound t slot => match keySlotOf s t slot with
        | some k => k.key + 1
        | none => 0
      | _ => 0

/-! ### Lines and poison -/

/-- A line whose medium or home cannot serve it: a failed channel with no other copy, a failed die, or the fatal latch. -/
def lineDead (s : State) (tpa : Nat) : Bool :=
  match polderAt s tpa with
  | none => false
  | some p =>
    let po := polderOf s p
    po.fatal || channelLost po tpa || s.flt.dieFailed.getLsbD (homeDie s tpa)
      || (decide (regionOf tpa = .flash) &&
        decide ((nandOf s (flashPlace po (tpa - po.flashRange.base)).1).health = .failed))

/-- Number of a flash map unit: channel and 16 KiB unit of its offset (R113). -/
def unitOf (s : State) (tpa : Nat) : Nat := (cellOf s tpa - 2 ^ 60) / 16384

def mapOf (s : State) (tpa : Nat) : MapEntry := tabGet s.ftl.map {} (unitOf s tpa)

def lineMarked (s : State) (tpa : Nat) : Bool := (tabFind s.mem.poison (cellOf s tpa / 64)).isSome

/-- Reads of this line return poison. -/
def linePoisoned (s : State) (tpa : Nat) : Bool :=
  lineDead s tpa || lineMarked s tpa
    || (decide (regionOf tpa = .flash) && decide ((mapOf s tpa).state = .unreadable))

/-- A byte of the tray as the device delivers it. [DESIGN CHOICE, log 4] [DESIGN CHOICE, log 14] -/
def readByte (s : State) (tpa : Nat) : Byte :=
  let cell := cellOf s tpa
  let b := tabGet s.mem.bytes 0 cell
  if regionOf tpa = .flash then
    if (mapOf s tpa).state = .unmapped then 0
    else
      let stored := tabGet s.mem.sealed 0 (cell / 64)
      if stored = keyOf s tpa then b else Config.wrongKey stored (keyOf s tpa) cell b
  else b

/-- A byte with its poison mark. -/
def readCell (s : State) (tpa : Nat) : Byte × Bool := (readByte s tpa, linePoisoned s tpa)

/-- A line as a 512-bit value, byte 0 lowest (R6). -/
def readLine (s : State) (line : Nat) : LineData :=
  BitVec.ofNat 512 (ofBytes ((List.range 64).map fun i => readByte s (line * 64 + i)))

def setPoison (cell64 : Nat) (cause : PoisonCause) (s : State) : State :=
  { s with mem := { s.mem with poison := if (tabFind s.mem.poison cell64).isSome then s.mem.poison else tabInsert s.mem.poison cell64 cause } }

def clearPoison (cell64 : Nat) (s : State) : State :=
  { s with mem := { s.mem with poison := tabErase s.mem.poison cell64 } }

/-- [DESIGN CHOICE, log 4] -/
def setByte (cell : Nat) (b : Byte) (s : State) : State :=
  { s with mem := { s.mem with bytes := tabPut s.mem.bytes 0 cell b } }

/-- Marks a line poisoned at its home and counts it (R132, Table 7.7). -/
def poisonLine (line : Nat) (cause : PoisonCause) (s : State) : State :=
  let s := match polderAt s (line * 64) with
    | some p => if lineMarked s (line * 64) then s
        else bumpResil p (if cause = .written then 0x28 else 0x20) 1 s
    | none => s
  setPoison (cellOf s (line * 64) / 64) cause s

/-- What a write of part or all of a line does (Table 7.3): the state and the status of an engine or command. `bytes` are
the offsets in the line with their new bytes; `poison`: the data written is poisoned. -/
def writeLineBytes (line : Nat) (bytes : List (Nat × Byte)) (poison : Bool) (s : State) : State × Status :=
  let tpa := line * 64
  let cell := cellOf s tpa / 64
  let p := (polderAt s tpa).getD 64
  if lineDead s tpa then (bumpResil p 0x48 1 s, .poisoned)
  else
    let wasBad := lineMarked s tpa
    let whole := decide (bytes.length ≥ 64)
    let flash := decide (regionOf tpa = .flash)
    let s' := bytes.foldl (fun s b => setByte (cell * 64 + b.1) b.2 s) s
    let s' := if flash then { s' with mem := { s'.mem with sealed := tabPut s'.mem.sealed 0 cell (keyOf s tpa) } } else s'
    if poison then (bumpResil p 0x28 1 (setPoison cell .written s'), .poisoned)
    else if whole then
      if wasBad then (bumpResil p 0x30 1 (clearPoison cell s'), .ok) else (s', .ok)
    else if wasBad then (bumpResil p 0x48 1 s', .poisoned)
    else (s', .ok)

/-- Writes and atomics to the DRAM region are refused in TRAY_OPEN and FAULT (R487). -/
def writesLocked (s : State) (tpa : Nat) : Bool := (s.pins.ilOpen || s.pins.ilFault) && decide (regionOf tpa = .dram)

/-- IL_WRITES_REFUSED counts a refusal (R487). [DEDUCED, log 47] -/
def countRefusal (s : State) : State := { s with pins := { s.pins with refused := if s.pins.refused = BitVec.allOnes 32 then s.pins.refused else s.pins.refused + 1 } }

/-- The notice of a read whose target has lost its backing: the polder's fatal latch, a failed NAND channel, or a failed
DRAM channel (Table 10.6). [DEDUCED, log 29] -/
def deadTarget (s : State) (tpa : Nat) : Option Subject :=
  match polderAt s tpa with
  | none => none
  | some p =>
    let po := polderOf s p
    if po.fatal then some { kind := 0x0D, polder := p }
    else match regionOf tpa with
      | .flash =>
        let ch := (flashPlace po (tpa - po.flashRange.base)).1
        if (nandOf s ch).health = .failed then some { kind := 0x0D, polder := p, unit := ch } else none
      | .dram => if channelLost po tpa then some { kind := 0x0D, polder := p, unit := (dramChannels po (tpa - po.dramRange.base)).headD 0 } else none
      | .hbm => if channelLost po tpa then some { kind := 0x0D, polder := p, unit := 0x100 + (hbmChannels po (tpa - po.hbmRange.base)).headD 0 } else none
      | _ => none

/-- A read of a dead target notifies the FM (R206). [DEDUCED, log 29] -/
def reportDead (tpa : Nat) (s : State) : State :=
  match deadTarget s tpa with
  | some sub => notifyFm sub tpa s
  | none => s

/-! ### Translation (R47, R59) -/

def segValidAt (e : Segment) (dva : Nat) : Bool :=
  e.valid && decide (e.dvaBase.toNat * (2 * mib) ≤ dva) && decide (dva < (e.dvaBase.toNat + e.length.toNat) * (2 * mib))

/-- The number of the valid segment that contains a DVA (R59 step 1). -/
def segAt (s : State) (t dva : Nat) : Option Nat := (List.range 16).find? fun n => segValidAt (segOf s t n) dva

def segTpa (e : Segment) (dva : Nat) : Nat := e.tpaBase.toNat * (2 * mib) + (dva - e.dvaBase.toNat * (2 * mib))

/-- Host-tier window of an address and the offset in it (R98). -/
def windowIx (tpa : Nat) : Nat := (tpa - 0x3000000000000) / (64 * gib)
def windowOff (tpa : Nat) : Nat := (tpa - 0x3000000000000) % (64 * gib)
def windowOf (s : State) (w : Nat) : Window := tabGet s.tier.windows {} w

/-- What an access needs: R, W or A (R59). -/
inductive Right where
  | read | write | atomic
deriving DecidableEq, Repr

/-- Outcome of the check of one byte (R59). -/
inductive Lookup where
  | unmapped
  | denied (seg : Nat)
  | at (seg tpa : Nat)
deriving DecidableEq, Repr

/-- Checks one byte of an access (R59): segment, rights, window descriptor. -/
def checkByte (s : State) (t dva : Nat) (need : Right) : Lookup :=
  match segAt s t dva with
  | none => .unmapped
  | some n =>
    let e := segOf s t n
    let tpa := segTpa e dva
    let ok := match need with | .read => e.r | .write => e.w | .atomic => e.a
    if regionOf tpa = .host then
      let w := windowOf s (windowIx tpa)
      if !w.valid || decide (w.length.toNat * (2 * mib) ≤ windowOff tpa) then .unmapped
      else if !ok then .denied n
      else if (match need with | .read => w.r | .write => w.w | .atomic => false) then .at n tpa else .denied n
    else if ok then .at n tpa else .denied n

/-- The port of a host-tier access is usable: its HID bound, alive and, for an encrypted polder, behind a SECURE stream (R100, R164). -/
def ldSecure (s : State) (ld : Nat) : Bool :=
  s.key.streams.any fun e => decide (e.1 / 256 = ld) && decide (e.2.state = .secure)

def windowUsable (s : State) (w : Window) (t : Nat) : Bool :=
  match ldOfHid s w.hid.toNat with
  | none => false
  | some ld => !(hitOf s w.hid.toNat).dead && sluiceLinkUp s ld
      && (isOpenMode (polderOf s (tcxOf s t).polder).modes || ldSecure s ld)

end Sys2Proof.Machine
end

