-- ==== Sys2Proof/Machine/Directory.lean ====
section
/-!
DEFINITION. The directory slices: slots, sharers, quotas and victims (R65 to R68), and the snoops they call for.
-/

namespace Sys2Proof.Machine

/-- Line L of an address. -/
def lineOf (tpa : Nat) : Nat := tpa / 64

/-- Set index of a line: L[19:0] XOR L[39:20] (R65). -/
def setIndex (line : Nat) : Nat := (bits line 19 0) ^^^ (bits line 39 20)

/-- Key of a directory set: die × 2^20 + index. -/
def setKey (s : State) (line : Nat) : Nat := homeDie s (line * 64) * 2 ^ 20 + setIndex line

def dirSet (s : State) (line : Nat) : List DirSlot := tabGet s.coh.sets [] (setKey s line)

def putDirSet (s : State) (line : Nat) (l : List DirSlot) : State :=
  { s with coh := { s.coh with sets := tabPut s.coh.sets [] (setKey s line) l } }

/-- The slot of a line, if it has one. -/
def slotOf (s : State) (line : Nat) : Option DirSlot := (dirSet s line).find? fun d => d.tag = line / 2 ^ 20

/-- Slot of a set as a line (R65: the line is recovered from set and tag). -/
def lineOfSlot (key : Nat) (d : DirSlot) : Nat :=
  d.tag * 2 ^ 20 + ((key % 2 ^ 20) ^^^ (d.tag % 2 ^ 20))

def removeSlot (line : Nat) (s : State) : State :=
  putDirSet s line ((dirSet s line).filter fun d => d.tag ≠ line / 2 ^ 20)

/-- Rewrites the slot of a line and makes it the most recently used of its set. -/
def refreshSlot (line : Nat) (d : DirSlot) (s : State) : State :=
  putDirSet s line (((dirSet s line).filter fun d' => d'.tag ≠ line / 2 ^ 20) ++ [d])

/-- HIDs that a slot says hold, or may hold, its line; a group of a coarse vector stands for its HIDs with VALID = 1. -/
def hostHolders (s : State) (d : DirSlot) : List Nat :=
  if d.crown then []
  else if d.coarse then (List.range 256).filter fun h => d.vec.getLsbD (h / 4) && (hitOf s h).valid
  else d.ids

def hostHoldersOf (s : State) (line : Nat) : List Nat := match slotOf s line with | none => [] | some d => hostHolders s d

/-- The HID that owns a line (R67: an OWNED slot has one sharer). -/
def hostOwner (s : State) (line : Nat) : Option Nat :=
  match slotOf s line with
  | none => none
  | some d => if d.state = .owned && !d.crown then d.ids.head? else none

/-- Internal invalidation of every crown copy of a line (R67). -/
def dropCrown (line : Nat) (s : State) : State :=
  match slotOf s line with
  | none => s
  | some d => if d.crown then removeSlot line s else s

/-- Slots a polder occupies; a coarse entry counts as two (R68). -/
def slotsOfPolder (s : State) (p : Nat) : Nat :=
  (s.coh.sets.map fun e => ((e.2.filter fun d => d.polder = p).map fun d => if d.coarse then 2 else 1).sum).sum

/-- Directory quota: 67,108,864 × q ÷ 68 slots (R68). -/
def quotaOf (p : Polder) : Nat := 67108864 * popcount 68 p.quarters.toNat / 68

def waysOf (d : DirSlot) : List Nat := if d.coarse then [d.way, d.way + 1] else [d.way]

/-- Ways of a set that no slot uses and that are not LOST (R438). -/
def freeWays (s : State) (line : Nat) : List Nat :=
  let used := (dirSet s line).flatMap waysOf
  (List.range 16).filter fun w => !used.contains w
    && !s.coh.lost.contains (setKey s line / 2 ^ 20 * 2 ^ 24 + setKey s line % 2 ^ 20 * 16 + w)

/-- A slot whose line has a flow in service or waiting is never a victim (R68). -/
def slotHeld (s : State) (key : Nat) (d : DirSlot) : Bool := (tabFind s.coh.flows (lineOfSlot key d)).isSome

/-- The victim of a full set by the four steps of R68, and whether step 4 took it from a polder within its quota. -/
def victimOf (s : State) (line polder : Nat) : Option (DirSlot × Bool) :=
  let key := setKey s line
  let cands := (dirSet s line).filter fun d => !slotHeld s key d && d.tag ≠ line / 2 ^ 20
  let above := fun p => decide (slotsOfPolder s p > quotaOf (polderOf s p))
  let own := cands.find? fun d => d.polder = polder
  if decide (slotsOfPolder s polder ≥ quotaOf (polderOf s polder)) && own.isSome then own.map fun d => (d, false)
  else match cands.find? fun d => above d.polder with
    | some d => some (d, false)
    | none => match own with
      | some d => some (d, false)
      | none => cands.head?.map fun d => (d, true)

/-- Sends a BISnp: out on an L0 link, held while the link of a bound LD is down; the answer says whether it was sent or held
(false: no LD is bound, and it is treated as timed out at once; R82, R410). -/
def issueSnoop (hid line : Nat) (data : Bool) (s : State) : Option Snoop × State :=
  match ldOfHid s hid with
  | none => (none, s)
  | some ld =>
    if sluiceLinkUp s ld then (some ⟨hid, data, s.coh.timeout.toNat, false⟩, emit (.snoop hid line data) s)
    else (some ⟨hid, data, s.coh.timeout.toNat, true⟩, s)

/-- Step 1 of Table 4.7 for one host: DEAD is set, the sweep begins, and every line with an outstanding BISnp to it, and the
line given, is poisoned. Answers the number of lines poisoned. [DEDUCED, log 29] -/
def killHost (hid : Nat) (line : Nat) (s : State) : Nat × State :=
  let mine := (s.coh.flows.filter fun e => e.2.snoops.any fun sn => sn.hid = hid).map (·.1)
  let lines := if mine.contains line then mine else line :: mine
  let s := modHit hid (fun h => { h with dead := true, sweeping := true, timeouts := h.timeouts + 1 }) s
  let s := lines.foldl (fun s l => poisonLine l .deadHost s) s
  let s := { s with coh := { s.coh with flows := s.coh.flows.map fun e =>
    (e.1, { e.2 with snoops := e.2.snoops.filter fun sn => sn.hid ≠ hid }) } }
  (lines.length, s)

/-- The dead-host sweep reaches the slot of a line (Table 4.7 step 4): OWNED by X, it is poisoned and set INVALID; X leaves
an exact sharer list. -/
def sweepLine (hid line : Nat) (s : State) : State :=
  match slotOf s line with
  | none => s
  | some d =>
    if d.crown || d.coarse || !d.ids.contains hid then s
    else if d.state = .owned then removeSlot line (poisonLine line .deadHost s)
    else if d.ids.filter (· ≠ hid) = [] then removeSlot line s
    else refreshSlot line { d with ids := d.ids.filter (· ≠ hid) } s

/-- Until a slot is swept, a request that finds a dead host in it is handled as if the sweep had reached it (R82). -/
def sweepAhead (line : Nat) (s : State) : State :=
  match slotOf s line with
  | none => s
  | some d => if d.crown then s else
    (d.ids.filter fun h => (hitOf s h).dead).foldl (fun s h => sweepLine h line s) s

/-- A BISnp to a host times out: Table 4.7 steps 1 to 3 (R82), and the event of Table 17.11. [DEDUCED, log 29] -/
def deadHost (hid line : Nat) (s : State) : State :=
  let (n, s) := killHost hid line s
  let port := ((ldOfHid s hid).map fun ld => ld / 16).getD 31
  let s := notifyFm { kind := 0x02, port := port, hid := hid, unit := min n (2 ^ 20 - 1) } (line * 64) s
  postAsync 0x08 hid 64 0 mgmtIx s

end Sys2Proof.Machine
end

