-- ==== Sys2Proof/Machine/Coherence.lean ====
section
/-!
DEFINITION. The flows at the homes (R64, R69 to R76, R79): requests for one line are served one at a time, snoops are
sent and answered, and the end of a flow grants, writes, computes or answers.
-/

namespace Sys2Proof.Machine

/-! ### Writes at the home -/

/-- A write reaches a line of a promoted block: an unpinned copy is dropped, a copy being made is cancelled (R95). -/
def writePromoted (line : Nat) (s : State) : State :=
  let block := line / 1024
  match tabFind s.tier.promoted block with
  | none => s
  | some b =>
    if b.installed && b.pin then s
    else
      let s := { s with tier := { s.tier with promoted := tabErase s.tier.promoted block
                                              promoLru := s.tier.promoLru.filter (· ≠ block) } }
      if b.installed then s else bumpTier b.polder 0x38 1 s

/-- A written line leaves every row cache (R227). -/
def writeCached (line : Nat) (s : State) : State :=
  { s with tbl := { s.tbl with cache := tabMap s.tbl.cache [] fun _ ways => ways.filter fun w => w.line ≠ line } }

/-- A write of bytes of one line at its home (R73, R95, R136). -/
def homeWrite (line : Nat) (bytes : List (Nat × Byte)) (poison : Bool) (s : State) : State × Status :=
  writeLineBytes line bytes poison (writeCached line (writePromoted line s))

/-- Bytes of a line that a 64-bit mask enables. -/
def maskedBytes (mask : BitVec 64) (data : LineData) : List (Nat × Byte) :=
  ((List.range 64).filter fun i => mask.getLsbD i).map fun i => (i, data.extractLsb' (8 * i) 8)

/-! ### Atomics (Table 4.5) -/

/-- The new value of an atomic on `n` bytes: FETCH_ADD, SWAP, CAS, FETCH_MIN, FETCH_MAX. -/
def atomicNew (op n old operand new : Nat) : Nat :=
  match op with
  | 0 => (old + operand) % 2 ^ (8 * n)
  | 1 => operand
  | 2 => if old = operand then new else old
  | 3 => min old operand
  | _ => max old operand

/-- Reads `n` bytes of the tray as a number. -/
def readNat (s : State) (tpa n : Nat) : Nat := ofBytes ((List.range n).map fun i => readByte s (tpa + i))

/-- A near atomic at the directory ALU (R79): old value and poison; a poisoned line keeps its bytes (R78, R133). -/
def atomicAt (tpa op n operand new : Nat) (s : State) : State × Nat × Bool :=
  if linePoisoned s tpa then (s, 0, true)
  else
    let old := readNat s tpa n
    let v := atomicNew op n old operand new
    let (s, _) := homeWrite (lineOf tpa) ((toBytes n v).mapIdx fun i b => (tpa % 64 + i, b)) false s
    (s, old, false)

/-- The ALU line buffer of a die keeps the 256 most recently used atomic lines (R79). -/
def touchAlu (line : Nat) (s : State) : State :=
  let die := homeDie s (line * 64)
  let mine := touch (s.coh.alu.filter fun l => homeDie s (l * 64) = die) line
  let others := s.coh.alu.filter fun l => homeDie s (l * 64) ≠ die
  { s with coh := { s.coh with alu := others ++ lastN 256 mine } }

/-! ### Room in the directory -/

/-- A victim goes to the eviction buffer and its holders receive `BISnpInv` (F7, R68). -/
def evictSlot (line polder : Nat) (v : DirSlot × Bool) (s : State) : State :=
  let key := setKey s line
  let vline := lineOfSlot key v.1
  let targets := hostHolders s v.1
  let s := removeSlot vline s
  let s := if v.2 && v.1.polder ≠ polder then { s with coh := { s.coh with crossEvict := s.coh.crossEvict + 1 } } else s
  if targets = [] then s
  else
    let (snoops, s) := targets.foldl (fun (acc : List Snoop × State) h =>
      match issueSnoop h vline false acc.2 with
      | (some sn, s) => (acc.1 ++ [sn], s)
      | (none, s) => (acc.1, deadHost h vline s)) ([], s)
    { s with coh := { s.coh with evicting := s.coh.evicting ++ [vline]
                                 flows := tabInsert s.coh.flows vline
                                   { req := { op := .evict, asker := .device, tpa := vline * 64 }, snoops := snoops } } }

/-- Frees a way of the set of a line, evicting at most one victim; none while every candidate is held (R68). -/
def makeWay (line polder : Nat) (s : State) : Option (Nat × State) :=
  match freeWays s line with
  | w :: _ => some (w, s)
  | [] => match victimOf s line polder with
    | none => none
    | some v => some (v.1.way, evictSlot line polder v s)

/-- An even way whose pair is free, the line's own way counted as free. -/
def freePair (s : State) (line own : Nat) : Option Nat :=
  let free := own :: freeWays s line
  [0, 2, 4, 6, 8, 10, 12, 14].find? fun w => free.contains w && free.contains (w + 1)

/-- Frees a pair of ways for a coarse entry, evicting victims until one is free (R66, R68). -/
def makePair : Nat → Nat → Nat → Nat → State → Option (Nat × State)
  | 0, _, _, _, _ => none
  | fuel + 1, line, own, polder, s =>
    match freePair s line own with
    | some w => some (w, s)
    | none => match victimOf s line polder with
      | none => none
      | some v => makePair fuel line own polder (evictSlot line polder v s)

/-- Grants SHARED to a host (R67): a new slot, a further sharer, or the conversion to coarse format at the fifth. -/
def grantShared (line hid polder : Nat) (s : State) : Option State :=
  match slotOf s line with
  | none => (makeWay line polder s).map fun (w, s) =>
      refreshSlot line ⟨w, .shared, false, line / 2 ^ 20, false, [hid], 0, polder⟩ s
  | some d =>
    if d.crown || d.state = .owned then some (refreshSlot line { d with state := .shared, crown := false, ids := [hid] } s)
    else if d.coarse then some (refreshSlot line { d with vec := d.vec ||| BitVec.ofNat 64 (2 ^ (hid / 4)) } s)
    else if d.ids.contains hid then some (refreshSlot line d s)
    else if d.ids.length < 4 then some (refreshSlot line { d with ids := d.ids ++ [hid] } s)
    else (makePair 17 line d.way polder s).map fun (w, s) =>
      refreshSlot line { d with way := w, coarse := true, ids := []
                                vec := (hid :: d.ids).foldl (fun v h => v ||| BitVec.ofNat 64 (2 ^ (h / 4))) 0 } s

/-- Grants OWNED to one agent: a host, or a crown core. -/
def grantOwned (line id polder : Nat) (crown : Bool) (s : State) : Option State :=
  match slotOf s line with
  | none => (makeWay line polder s).map fun (w, s) =>
      refreshSlot line ⟨w, .owned, false, line / 2 ^ 20, crown, [id], 0, polder⟩ s
  | some d => some (refreshSlot line { d with state := .owned, coarse := false, crown := crown, ids := [id], vec := 0 } s)

/-- A crown core reads a line (R67, R76): at most four crown sharers, the least recently used dropped. -/
def grantCrown (line core polder : Nat) (s : State) : Option State :=
  match slotOf s line with
  | none => (makeWay line polder s).map fun (w, s) =>
      refreshSlot line ⟨w, .shared, false, line / 2 ^ 20, true, [core], 0, polder⟩ s
  | some d =>
    if d.crown then some (refreshSlot line { d with state := if d.ids = [core] then d.state else .shared
                                                    ids := lastN 4 (touch d.ids core) } s)
    else some (refreshSlot line { d with state := .shared, coarse := false, crown := true, ids := [core], vec := 0 } s)

/-! ### The start of a flow -/

/-- The HID of an asker that is a host. -/
def askerHid : Asker → Option Nat
  | .host hid _ _ _ => some hid
  | _ => none

/-- The polder of a line keeps hosts coherent (HDM-DB, R64). -/
def lineDb (s : State) (line : Nat) : Bool :=
  match polderAt s (line * 64) with
  | none => false
  | some p => isHdmDb (polderOf s p).modes

/-- The HIT entry of a host lets it hold a line in the state its slot records (R36). -/
def mayHold (s : State) (hid line : Nat) : Bool :=
  let h := hitOf s hid
  let owned := decide (hostOwner s line = some hid)
  h.valid && h.ranges.any fun r => r.r && (r.w || !owned) &&
    decide (r.base.toNat * (2 * mib) ≤ line * 64 ∧ line * 64 < (r.base.toNat + r.length.toNat) * (2 * mib))

/-- Hosts that a request snoops, with `BISnpData` or `BISnpInv` (Table 4.4, R74, R75, R79). [DEDUCED, log 27] -/
def snoopTargets (s : State) (line : Nat) (req : LineReq) : List (Nat × Bool) :=
  if !lineDb s line then []
  else
    let holders := hostHoldersOf s line
    let notMine := fun h => decide (some h ≠ askerHid req.asker)
    match req.op with
    | .readShared | .readAny | .engineRead =>
      (match hostOwner s line with | some h => if notMine h then [(h, true)] else [] | none => [])
    | .readOwned | .invOwned | .write _ => (holders.filter notMine).map fun h => (h, false)
    | .crownRead | .atomic .. | .evict => holders.map fun h => (h, false)
    | .evictHost h => if holders.contains h && !mayHold s h line then [(h, false)] else []
    | .specRead => []

/-- Some way of the set of a line is LOST (R438). -/
def setLost (s : State) (line : Nat) : Bool :=
  (List.range 16).any fun w => s.coh.lost.contains (setKey s line / 2 ^ 20 * 2 ^ 24 + setKey s line % 2 ^ 20 * 16 + w)

/-- Hosts asked about a line that matches no intact way of a set with a LOST one: every HID whose HIT entry holds a range
containing it (R438). -/
def probeTargets (s : State) (line : Nat) (req : LineReq) : List Nat :=
  if !lineDb s line || !setLost s line || (slotOf s line).isSome then []
  else (s.hit.filter fun e => e.2.valid && decide (some e.1 ≠ askerHid req.asker) && e.2.ranges.any fun r =>
    decide (r.base.toNat * (2 * mib) ≤ line * 64 ∧ line * 64 < (r.base.toNat + r.length.toNat) * (2 * mib))).map (·.1)

/-- The request reads the medium: no full-line write, no data-less grant, no line already in a buffer of the die. -/
def needsMedium (s : State) (line : Nat) (req : LineReq) : Bool :=
  !lineDead s (line * 64) && !s.coh.forwarding.contains line && !s.coh.alu.contains line &&
  match req.op with
  | .write _ => decide (req.mask ≠ BitVec.allOnes 64)
  | .invOwned | .evict | .evictHost _ => false
  | _ => true

/-- The contention predictor of the home is trained by atomics and ownership requests (R80). -/
def trainPredictor (line : Nat) (req : LineReq) (waits : Bool) (s : State) : State :=
  let trains := match req.op with | .atomic .. | .readOwned | .invOwned => true | _ => false
  if !trains then s
  else
    let p := (polderAt s (line * 64)).getD 64
    let ix := homeDie s (line * 64) * 4096 + Config.predictorIndex (polderOf s p).predictorKey line % 4096
    let other := match slotOf s line with
      | none => false
      | some d => d.crown || (hostHolders s d).any fun h => decide (some h ≠ askerHid req.asker)
    let c := tabGet s.coh.predictor 0 ix
    let c' : BitVec 2 := if other || waits then (if c = 3 then 3 else c + 1) else (if c = 0 then 0 else c - 1)
    { s with coh := { s.coh with predictor := tabPut s.coh.predictor 0 ix c' } }

/-- Requests that end crown copies of the line before they proceed (R67). -/
def dropsCrown (req : LineReq) : Bool :=
  match req.op with
  | .readShared | .readOwned | .invOwned | .write _ | .atomic .. | .evict => true
  | _ => false

def addSnoop (line : Nat) (sn : Snoop) (s : State) : State :=
  match tabFind s.coh.flows line with
  | some f => { s with coh := { s.coh with flows := tabInsert s.coh.flows line { f with snoops := f.snoops ++ [sn] } } }
  | none => s

/-- Sends the snoops of a flow. -/
def sendSnoops (line : Nat) (targets : List (Nat × Bool)) (s : State) : State :=
  targets.foldl (fun s t =>
    match issueSnoop t.1 line t.2 s with
    | (some sn, s) => addSnoop line sn s
    | (none, s) => deadHost t.1 line s) s

/-- The request reads data of the line. -/
def isRead (req : LineReq) : Bool :=
  match req.op with
  | .readShared | .readOwned | .readAny | .engineRead | .crownRead => true
  | _ => false

/-- A read of a line that a dead host owns, or one whose LD is unbound and that is dead at once (R82), notifies the FM (Table 10.6). -/
def reportOwner (line : Nat) (req : LineReq) (s : State) : State :=
  match hostOwner s line with
  | some h => if isRead req && ((hitOf s h).dead || (ldOfHid s h).isNone) then notifyFm { kind := 0x0D, polder := (polderAt s (line * 64)).getD 64, hid := h } (line * 64) s else s
  | none => s

/-- A request reaches the front of its line queue: snoops and the medium read start together (R70). [DEDUCED, log 27] -/
def startFlow (line : Nat) (req : LineReq) (queue : List LineReq) (s : State) : State :=
  let s := trainPredictor line req (queue ≠ []) (sweepAhead line (reportOwner line req s))
  let s := if dropsCrown req then dropCrown line s else s
  let unknown := probeTargets s line req
  let targets := if unknown = [] then snoopTargets s line req else unknown.map fun h => (h, true)
  let medium := needsMedium s line req
  let f : Flow := { req := req, medium := medium, queue := queue, opened := s.time, probe := decide (unknown ≠ []) }
  let s := { s with coh := { s.coh with flows := tabInsert s.coh.flows line f } }
  sendSnoops line targets s

/-- The answers about a line of a set with a LOST way are in: the flow goes on with the slot they allocated (R438). -/
def goOn (line : Nat) (f : Flow) (s : State) : State :=
  let s := { s with coh := { s.coh with flows := tabInsert s.coh.flows line { f with probe := false } } }
  sendSnoops line (snoopTargets s line f.req) s

/-- Combining key of a read that leaves the directory as it is: the TCX of an engine or crown read, 4,096 + polder of a host's (R186, R187). -/
def readKey (s : State) (line : Nat) (req : LineReq) : Option Nat :=
  match req.asker, req.op with
  | .tile id, .engineRead => (tabFind s.eng.tiles id).map (·.tcx)
  | .tile id, .crownRead => if (slotOf s line).any (·.crown) then none else (tabFind s.eng.tiles id).map (·.tcx)
  | .host .., .readAny => some (4096 + (polderAt s (line * 64)).getD 64)
  | .host .., .readShared | .host .., .readOwned => if lineDb s line then none else some (4096 + (polderAt s (line * 64)).getD 64)
  | _, _ => none

def passesWrite (req : LineReq) : Bool :=
  match req.op with
  | .write _ | .atomic .. => true
  | _ => false

/-- Open groups of one die, and of one combining key on it (R189). -/
def groupsOf (s : State) (die : Nat) (key : Option Nat) : Nat :=
  (s.coh.flows.filter fun e => decide (homeDie s (e.1 * 64) = die) &&
    (match key with | none => (readKey s e.1 e.2.req).isSome | some k => decide (readKey s e.1 e.2.req = some k))).length
  + (s.copy.batches.filter fun b => decide (homeDie s b.tpa = die) && (match key with | none => true | some k => decide (b.key = k))).length

/-- A read joins the one in service: same key, within 256 ns of it, no write or atomic between, at most 32 members (R187, R189). -/
def joins (s : State) (line : Nat) (f : Flow) (req : LineReq) : Bool :=
  (readKey s line req).isSome && decide (readKey s line req = readKey s line f.req) && decide (s.time ≤ f.opened + 6)
    && !f.queue.any passesWrite && decide (f.members.length < 31)
    && decide (groupsOf s (homeDie s (line * 64)) none ≤ 2048) && decide (groupsOf s (homeDie s (line * 64)) (readKey s line req) ≤ 64)

/-- A request reaches the home of a line (R70). -/
def requestLine (line : Nat) (req : LineReq) (s : State) : State :=
  match tabFind s.coh.flows line with
  | none => startFlow line req [] s
  | some f =>
    let f := if joins s line f req then { f with members := f.members ++ [req] } else { f with queue := f.queue ++ [req] }
    { s with coh := { s.coh with flows := tabInsert s.coh.flows line f } }

/-! ### The end of a flow -/

def putTile (id : Nat) (t : Tile) (s : State) : State := { s with eng := { s.eng with tiles := tabInsert s.eng.tiles id t } }

def putFlow (line : Nat) (f : Flow) (s : State) : State := { s with coh := { s.coh with flows := tabInsert s.coh.flows line f } }

/-- A line, or its acknowledgement, reaches the tile that asked for it. -/
def tileLine (id line : Nat) (tagFailed : Bool) (s : State) : State :=
  match tabFind s.eng.tiles id with
  | none => s
  | some t =>
    let mine := t.left.filter fun e => e.1 = line
    let poisoned := linePoisoned s (line * 64)
    let got := if t.write then t.got
      else mine.foldl (fun g e => (List.range e.2.2.2).foldl
        (fun g i => tabInsert g (e.2.1 + i) (readByte s (line * 64 + e.2.2.1 + i))) g) t.got
    let t := { t with left := t.left.filter fun e => e.1 ≠ line, got := got
                      poisoned := t.poisoned || poisoned, tagFailed := t.tagFailed || tagFailed
                      bad := if poisoned then t.bad ++ mine.map (·.2.1) else t.bad }
    putTile id t (if t.write then s else reportDead (line * 64) s)

/-- A command stops waiting for a line. -/
def commandLine (serial line : Nat) (s : State) : State :=
  { s with q := { s.q with cmds := s.q.cmds.map fun c =>
      if c.serial = serial then { c with lines := c.lines.filter (· ≠ line) } else c } }

/-- The answer to a host read: `MemData` with its completion (R69, R84). -/
def answerRead (port ld tag line grant : Nat) (s : State) : State :=
  sendS2m port ld (line * 64) (.memData port ld tag (readLine s line) grant (linePoisoned s (line * 64))) (reportDead (line * 64) s)

/-- The old value of an atomic returns to whoever asked (R77 to R79, R188). -/
def atomicAnswer (asker : Asker) (line old : Nat) (bad tagBad : Bool) (s : State) : State :=
  match asker with
  | .host _ port ld tag => emit (.tlp port ld tag (if bad then 3 else 0) (BitVec.ofNat 64 old)) s
  | .tile id =>
    match tabFind s.eng.tiles id with
    | none => s
    | some t => putTile id { t with result := some (BitVec.ofNat 64 old), poisoned := t.poisoned || bad, tagFailed := t.tagFailed || tagBad
                                    left := t.left.filter fun e => e.1 ≠ line } s
  | .command serial =>
    { s with q := { s.q with cmds := s.q.cmds.map fun c => if c.serial = serial then
        { c with lines := c.lines.filter (· ≠ line)
                 outcome := some { status := if tagBad then .tagFail else if bad then .poisoned else .ok, value := if bad then 0 else old } }
        else c } }
  | .stage tpa key kind =>
    { s with copy := { s.copy with batches := s.copy.batches.map fun b =>
        if b.tpa = tpa ∧ b.key = key ∧ b.kind = kind then { b with results := b.results ++ [(old, bad, tagBad)] } else b } }
  | .device => s

/-- What the request in service does when nothing stands in its way; none while the directory has no room for it (R68). -/
def completeReq (line : Nat) (f : Flow) (s : State) : Option State :=
  let db := lineDb s line
  let polder := (polderAt s (line * 64)).getD 64
  match f.req.asker, f.req.op with
  | .host hid port ld tag, .readShared =>
    if db then (grantShared line hid polder s).map (answerRead port ld tag line 1) else some (answerRead port ld tag line 3 s)
  | .host hid port ld tag, .readOwned =>
    if db then (grantOwned line hid polder false s).map (answerRead port ld tag line 2) else some (answerRead port ld tag line 3 s)
  | .host hid port ld tag, .invOwned =>
    if db then (grantOwned line hid polder false s).map (sendS2m port ld (line * 64) (.memCmp port ld tag true))
    else some (sendS2m port ld (line * 64) (.memCmp port ld tag false) s)
  | .host _ port ld tag, .readAny => some (answerRead port ld tag line (if db then 0 else 3) s)
  | .host hid port ld tag, .write mv =>
    let (s, _) := if f.bad then (s, .tagFail) else homeWrite line (maskedBytes f.req.mask f.req.data) f.req.poison s
    let owner := decide (hostOwner s line = some hid)
    let s := if !db then s
      else if owner && mv = 0 then s
      else if owner && mv = 1 then (match slotOf s line with | some d => refreshSlot line { d with state := .shared } s | none => s)
      else if owner then removeSlot line s
      else match slotOf s line with
        | some d => if d.ids.contains hid && !d.coarse then refreshSlot line { d with ids := [hid] } s else removeSlot line s
        | none => s
    some (sendS2m port ld (line * 64) (.memCmp port ld tag false) s)
  | asker, .atomic op n operand new =>
    let far := match asker with
      | .tile id => if f.req.mask = 1 then (tabFind s.eng.tiles id).map (·.unit % 32) else none
      | _ => none
    let (s, old, bad) := atomicAt f.req.tpa op n operand new (removeSlot line s)
    (match far with
    | some core => (grantOwned line core polder true s).map (atomicAnswer asker line old bad f.bad)
    | none => some (atomicAnswer asker line old bad f.bad (touchAlu line s)))
  | .tile id, .write _ =>
    let crown := match tabFind s.eng.tiles id with | some t => if t.crown then some (t.unit % 32) else none | none => none
    let (s, st) := if f.bad then (s, .tagFail) else homeWrite line (maskedBytes f.req.mask f.req.data) f.req.poison s
    let s := match tabFind s.eng.tiles id with
      | some t => putTile id { t with tagFailed := t.tagFailed || f.bad, poisoned := t.poisoned || decide (st = .poisoned), left := t.left.filter fun e => e.1 ≠ line } s
      | none => s
    (match crown with
    | some core => grantOwned line core polder true (if db then removeSlot line s else s)
    | none => some (if db then removeSlot line s else s))
  | .tile id, .crownRead =>
    let core := match tabFind s.eng.tiles id with | some t => t.unit % 32 | none => 0
    (grantCrown line core polder (if (hostHoldersOf s line) = [] then s else removeSlot line s)).map (tileLine id line f.bad)
  | .tile id, _ => some (tileLine id line f.bad s)
  | .device, .write _ =>
    let (s, _) := homeWrite line (maskedBytes f.req.mask f.req.data) f.req.poison s
    some (if db then removeSlot line s else s)
  | .command serial, .evict => some (commandLine serial line (if db then removeSlot line s else s))
  | .command serial, _ => some (commandLine serial line s)
  | _, .evict =>
    some { removeSlot line s with coh := { (removeSlot line s).coh with evicting := s.coh.evicting.filter (· ≠ line) } }
  | _, _ => some s

/-- Snoops answered, and the medium data there or superseded by a writeback (R70). -/
def flowReady (f : Flow) : Bool := decide (f.snoops = []) && (f.probe || !f.medium || f.writeback)

/-- The merged reads take effect at the leader's place and receive its data (R187). -/
def serveMembers (line : Nat) (f : Flow) (s : State) : State :=
  let s := if f.members = [] then s else bumpCopy ((polderAt s (line * 64)).getD 64) 0x00 f.members.length s
  f.members.foldl (fun s m => (completeReq line { f with req := m } s).getD s) s

/-- Ends the flow in service on a line, answers the conflicts with its snoops, and serves the next request of the line. -/
def endFlow (line : Nat) (f : Flow) (s : State) : Option State :=
  if f.probe then some (goOn line f s) else (completeReq line f s).map fun s =>
    let s := serveMembers line f s
    let s := f.conflicts.foldl (fun s c => sendS2m (c.1 / 16) (c.1 % 16) (line * 64) (.conflictAck c.1 c.2) s) s
    let s := { s with coh := { s.coh with flows := tabErase s.coh.flows line } }
    match f.queue with
    | [] => s
    | r :: rest => startFlow line r rest s

/-- Tries to end each listed flow in turn; answers whether one ended. -/
def endFirst : List (Nat × Flow) → State → Option State
  | [], _ => none
  | (line, f) :: rest, s =>
    if flowReady f then match endFlow line f s with
      | some s' => some s'
      | none => endFirst rest s
    else endFirst rest s

def runFlows : Nat → State → State
  | 0, s => s
  | fuel + 1, s => match endFirst s.coh.flows s with
    | none => s
    | some s' => runFlows fuel s'

/-- Ends every flow that nothing holds up, and those that follow them. -/
def settleFlows (s : State) : State :=
  runFlows (2 * (s.coh.flows.map fun e => e.2.queue.length + 1).sum) s

/-- A host's answer to a BISnp: BIRspI (`shared` false) or BIRspS (R69, R74). [DEDUCED, log 27] -/
def answerSnoop (hid line : Nat) (shared : Bool) (s : State) : State :=
  match tabFind s.coh.flows line with
  | none => s
  | some f =>
    let mine := f.conflicts.filter fun c => decide (tabFind s.q.bound c.1 = some hid)
    let s := mine.foldl (fun s c => sendS2m (c.1 / 16) (c.1 % 16) (line * 64) (.conflictAck c.1 c.2) s) s
    let s := putFlow line { f with snoops := f.snoops.filter fun sn => sn.hid ≠ hid, conflicts := f.conflicts.filter fun c => !mine.contains c } s
    match slotOf s line with
    | none => if f.probe && shared then (grantShared line hid ((polderAt s (line * 64)).getD 64) s).getD s else s
    | some d =>
      if f.probe && shared then (grantShared line hid d.polder s).getD s
      else if d.crown || d.coarse then s
      else if shared then refreshSlot line { d with state := .shared } s
      else if d.ids.filter (· ≠ hid) = [] then removeSlot line s
      else refreshSlot line { d with ids := d.ids.filter (· ≠ hid) } s

/-- A writeback of a host that is being snooped reaches the home: the data supersedes the medium read and takes a place in
the die's forwarding buffer, or is written first and counted when that is full (R70, R72). -/
def writeback (line : Nat) (mask : BitVec 64) (data : LineData) (poison : Bool) (s : State) : State :=
  let (s, _) := homeWrite line (maskedBytes mask data) poison s
  let die := homeDie s (line * 64)
  let full := decide ((s.coh.forwarding.filter fun l => homeDie s (l * 64) = die).length ≥ 1024)
  let flows := match tabFind s.coh.flows line with
    | some f => tabInsert s.coh.flows line { f with writeback := true }
    | none => s.coh.flows
  { s with coh := { s.coh with
      flows := flows
      forwarding := if full then s.coh.forwarding else s.coh.forwarding.filter (· ≠ line) ++ [line]
      fwdFull := if full then s.coh.fwdFull + 1 else s.coh.fwdFull } }

/-- Back-invalidates every line, of those that satisfy a test, that hosts hold in HDM-DB polders (R31, R36, R143). -/
def backInvalidate (test : Nat → DirSlot → Bool) (s : State) : State :=
  let lines := s.coh.sets.flatMap fun e => (e.2.filter fun d => !d.crown && test (lineOfSlot e.1 d) d).map fun d => lineOfSlot e.1 d
  lines.foldl (fun s l => requestLine l { op := .evict, asker := .device, tpa := l * 64 } s) s

end Sys2Proof.Machine
end

