-- ==== Sys2Proof/Machine/Commands.lean ====
section
/-!
DEFINITION. The life of a command: intake (R348), acceptance and dispatch (R347, R363, R374), rights (R39, R360), and
its completion (R351, R353).
-/

namespace Sys2Proof.Machine

/-! ### Sources -/

/-- The command of a crown run, which submits in its name. -/
def runCommand? (s : State) (run : Nat) : Option Cmd := s.q.cmds.find? fun c => c.serial = run

/-- Number of the sluice that a source stands for: the tunnel and the mailbox act as the management sluice (R364, R461). -/
def srcSluice (s : State) : Src → Option Nat
  | .admin p l => some (sluiceIx p l)
  | .data p l _ => some (sluiceIx p l)
  | .tunnel => some mgmtIx
  | .jtag => some mgmtIx
  | .crown run _ => match runCommand? s run with
    | some c => match c.src with
      | .admin p l => some (sluiceIx p l)
      | .data p l _ => some (sluiceIx p l)
      | _ => none
    | none => none

def srcIsMgmt (s : State) (src : Src) : Bool := decide (srcSluice s src = some mgmtIx)

/-- The HID of a source; the tunnel and the mailbox need no binding. -/
def srcHid (s : State) (src : Src) : Nat :=
  match srcSluice s src with
  | some ix => (sluiceOr s ix).hid
  | none => 0

/-- The queue of a source on its sluice. -/
def srcQueue : Src → Option Nat
  | .data _ _ qp => some qp.toNat
  | _ => none

/-- The source exists: its sluice, its queue pair, its run. -/
def srcExists (s : State) (src : Src) : Bool :=
  match src with
  | .admin p l => (findSluice s (sluiceIx p l)).any (·.adminEnable)
  | .data p l qp => (findSluice s (sluiceIx p l)).any fun sl => (tabFind sl.qps qp.toNat).isSome
  | .tunnel => true
  | .jtag => true
  | .crown run core => match tabFind s.eng.runs run with
    | some r => decide (r.cores.contains core.val) && !r.ended
    | none => false

/-! ### Intake (R348) -/

/-- Step 3: commands a sluice accepts in its state (R341). -/
def stateAccepts (st : SluiceState) (op : Nat) : Bool :=
  match st with
  | .ready => true
  | .unmatched => [0x01, 0x02].contains op
  | .held => [0x01, 0x02, 0xE0, 0xE1].contains op

/-- Opcodes the tunnel does not accept (R364). -/
def tunnelExcluded (op : Nat) : Bool := [0x04, 0x05, 0x06, 0x43, 0xE0, 0x31].contains op

/-- Step 4: the queue accepts the opcode (R343, R360, R364, R461, R463). -/
def queueAccepts (src : Src) (op : Nat) (row : OpRow) : Bool :=
  match src with
  | .admin _ _ => row.onAdmin && decide (op ≤ 0x7F ∨ 0xE0 ≤ op)
  | .data _ _ _ => row.onData && decide (0x40 ≤ op)
  | .tunnel => row.onAdmin && decide (op ≤ 0x7F ∨ 0xE0 ≤ op) && !tunnelExcluded op
  | .jtag => decide (op = 0x01 ∨ 0xF0 ≤ op)
  | .crown _ _ => row.onData && row.names && decide (0x40 ≤ op)

/-- Step 4 whole: opcode, queue, item size and reserved fields. -/
def formOk (src : Src) (ws : List Word) : Bool :=
  match opRow (hdrOpcode ws) with
  | none => false
  | some row => queueAccepts src (hdrOpcode ws) row && decide (hdrEntries ws = row.entries) && headerClear ws row.names
      && reservedClear (ws.drop 3) row.mask

/-- A remembered command: every admin command, and a data command with RID = 1 (R353). [DEDUCED, log 39] -/
def remembers (src : Src) (ws : List Word) : Bool :=
  match src with
  | .admin _ _ | .tunnel => true
  | .data _ _ _ => hdrRid ws
  | _ => false

/-- A command of `op` acts on data: the exemptions of R40 and R164 are for the opcodes below 0x40 and from 0xE0. [DEDUCED, log 28] -/
def isDataOp (op : Nat) : Bool := decide (0x40 ≤ op ∧ op < 0xE0)

/-- Polder whose POLDER_MASK bit a command needs: that of its TCX; for `TENANT_CREATE` the one it names. [DEDUCED, log 28] -/
def commandPolder (s : State) (ws : List Word) : Nat :=
  if hdrOpcode ws = 0x18 then field ws 3 5 0 else (tcxOf s (hdrTcx ws)).polder

/-- Step 8, issuer and rights (R39, R360): `true` when the command may go on. [DEDUCED, log 28] -/
def issuerOk (s : State) (src : Src) (ws : List Word) (row : OpRow) : Bool :=
  let h := hitOf s (srcHid s src)
  let free := decide (hdrOpcode ws ≠ 0x18) && decide ((tcxOf s (hdrTcx ws)).state = .free)
  let masked := free || polderBit h (commandPolder s ws)
  match row.issuer with
  | .any => true
  | .mgmt => srcIsMgmt s src && (match src with | .jtag | .crown _ _ => false | _ => true)
  | .admin => if hdrOpcode ws = 0x1C && flag ws 3 12 then srcIsMgmt s src else srcIsMgmt s src || (h.admin && masked)
  | .tenant => masked
  | .windows => srcIsMgmt s src || h.admin
  | .debug => match src with
    | .jtag => true
    | .admin _ _ => srcIsMgmt s src
    | _ => false

/-- A data command of an encrypted polder needs a SECURE stream of its LD (R164). [DEDUCED, log 28] -/
def streamOk (s : State) (src : Src) (ws : List Word) (row : OpRow) : Bool :=
  if row.names && isDataOp (hdrOpcode ws) && !isOpenMode (polderOf s (tcxOf s (hdrTcx ws)).polder).modes
      && decide ((tcxOf s (hdrTcx ws)).state ≠ .free) then
    match srcSluice s src with
    | some ix => ldSecure s ix
    | none => false
  else true

/-- Opcodes that need a digest ring in a DIGEST or REPRODUCIBLE polder (R317). [DEDUCED, log 36] -/
def digestOp (op : Nat) : Bool := decide ((0x80 ≤ op ∧ op ≤ 0xBF ∧ op ≠ 0xAC) ∨ (0xC0 ≤ op ∧ op ≤ 0xC2))

/-- Step 8: rights and the checks common to opcodes that name a TCX (R39, R40, R164, R317). [DEDUCED, log 28] -/
def rightsCheck (s : State) (src : Src) (ws : List Word) (row : OpRow) : Option Status :=
  if !issuerOk s src ws row || !streamOk s src ws row then some .rightsFault
  else if row.names && isDataOp (hdrOpcode ws) then
    let t := tcxOf s (hdrTcx ws)
    if t.state ≠ .live then some .invalid
    else if digestOp (hdrOpcode ws) && digestRequired (polderOf s t.polder).modes && !t.digest.enable then some .invalid
    else none
  else none

/-- The steps of R348 from the sluice state to the rights, for an item whose entries are all there. -/
def intake (s : State) (src : Src) (ws : List Word) : Intake :=
  let op := hdrOpcode ws
  let state := match srcSluice s src with | some ix => (sluiceOr s ix).state | none => .ready
  if src ≠ .jtag ∧ src ≠ .tunnel ∧ stateAccepts state op = false then .answer .versionRefused false
  else if src = .tunnel ∧ (findSluice s mgmtIx).isSome ∧ stateAccepts state op = false then .answer .versionRefused false
  else if formOk src ws = false then .answer .invalid false
  else
    let known := if remembers src ws then
        (sluiceOr s ((srcSluice s src).getD mgmtIx)).rids.find? fun r => r.rid = hdrRequest ws
      else none
    match known with
    | some r =>
      if r.opcode ≠ op ∨ r.check ≠ ws.drop 3 then .answer .invalid false
      else match r.entry with
        | some e => .replay e
        | none => .await r.serial
    | none =>
      if s.q.cmds.any fun c => c.src = src && c.cid = hdrCid ws && !c.remembered && !c.lost then .answer .invalid false
      else match opRow op with
        | none => .answer .invalid false
        | some row =>
          let t := tcxOf s (hdrTcx ws)
          let old := match src with
            | .crown _ _ => false
            | _ => row.names && decide (op ≠ 0x18) && decide (hdrEpoch ws ≠ t.epoch.toNat % 16)
          if old then .answer .fenced true
          else match rightsCheck s src ws row with
            | some st => .answer st true
            | none => .accept

/-! ### Completion (R351, R353) -/

/-- Words 0 to 7 of a completion entry, SQ_HEAD and PHASE still zero (Table 17.8). -/
def entryWords (src : Src) (op cid : Nat) (r : Result) : List Word :=
  let admin := match src with | .admin _ _ | .tunnel => true | _ => false
  [BitVec.ofNat 32 r.value, BitVec.ofNat 32 (r.value / 2 ^ 32),
   BitVec.ofNat 32 r.faultDva, BitVec.ofNat 32 (bits r.faultDva 51 32),
   BitVec.ofNat 32 ((if admin then 2 ^ 24 else 0) + (srcQueue src).getD 0 * 2 ^ 16),
   BitVec.ofNat 32 (min r.faultTiles 0xFFFF * 2 ^ 16 + cid),
   BitVec.ofNat 32 (statusCode r.status * 2 ^ 16 + (if r.digested then 1 else 0)),
   BitVec.ofNat 32 (op * 2 ^ 8)]

/-- The entry of a remembered outcome for a new arrival: REPLAYED = 1, the QP of the arrival (R353). [DEDUCED, log 39] -/
def replayWords (src : Src) (entry : List Word) : List Word :=
  let admin := match src with | .admin _ _ | .tunnel => true | _ => false
  entry.mapIdx fun i w =>
    if i = 4 then BitVec.ofNat 32 ((if admin then 2 ^ 24 else 0) + (srcQueue src).getD 0 * 2 ^ 16)
    else if i = 6 then w ||| 2 else w

def putRun (run : Nat) (r : CrownRun) (s : State) : State := { s with eng := { s.eng with runs := tabInsert s.eng.runs run r } }

/-- An entry goes to the queue, tunnel, mailbox or run of its source (R342, R351, R364, R463, R313). -/
def deliver (src : Src) (words : List Word) (noirq : Bool) (payload : List Byte) (s : State) : State :=
  match src with
  | .admin p l =>
    match findSluice s (sluiceIx p l) with
    | none => { s with q := { s.q with discarded := s.q.discarded + 1 } }
    | some sl =>
      if sl.adminEnable then postEntry (sluiceIx p l) none words noirq s
      else modSluice (sluiceIx p l) (fun sl => { sl with cqHoldCount := satAdd 32 sl.cqHoldCount 1 }) s
  | .data p l qp => postEntry (sluiceIx p l) (some qp.toNat) words noirq s
  | .tunnel =>
    emit (.tunnelDone (words ++ bytesToWords ((payload.length + 3) / 4) payload)) { s with q := { s.q with tunnelBusy := false } }
  | .jtag =>
    { s with dbg := { s.dbg with mailbox := s.dbg.mailbox ++ [words] ++
        (if payload = [] then [] else [bytesToWords ((payload.length + 3) / 4) payload]) } }
  | .crown run _ =>
    match tabFind s.eng.runs run with
    | none => s
    | some r =>
      let cid := (wordAt words 5) % 2 ^ 16
      putRun run { r with done := r.done ++ [(cid, words)], outstanding := r.outstanding.filter fun o => o.2 ≠ cid } s

/-- Remembers the outcome of a command, and answers the repeats that waited for it with the same entry (R353). -/
def remember (c : Cmd) (words : List Word) (s : State) : State :=
  match srcSluice s c.src with
  | none => s
  | some ix =>
    let repeats := (sluiceOr s ix).rids.flatMap fun r => if r.serial = c.serial then r.repeats else []
    let s := modSluice ix (fun sl => { sl with rids := sl.rids.map fun r =>
      if r.serial = c.serial then { r with entry := some words, repeats := [] } else r }) s
    repeats.foldl (fun s r => deliver r.1 (replayWords r.1 words) (hdrNoIrq r.2) [] s) s

/-- Forgets what the device held for a command: its work pool, push slots, scans, placements and waits. -/
def releaseCommand (c : Cmd) (s : State) : State :=
  let k := c.serial
  let s := if c.pool = 0 then s else modPolder c.polder (fun p => { p with workUsed := p.workUsed - c.pool }) s
  { s with
    q := { s.q with cmds := s.q.cmds.filter fun c' => c'.serial ≠ k }
    copy := { s.copy with slots := tabFilter s.copy.slots fun _ v => decide (v.serial ≠ k)
                          progress := tabErase s.copy.progress k
                          resends := s.copy.resends.filter fun r => r.serial ≠ k }
    srch := { running := tabFilter s.srch.running fun _ v => decide (v.serial ≠ k)
              queued := tabMap s.srch.queued [] fun _ l => l.filter fun v => v.serial ≠ k
              runs := tabErase s.srch.runs k }
    eng := { s.eng with placements := tabErase s.eng.placements k, runs := tabErase s.eng.runs k
                        tiles := tabFilter s.eng.tiles fun _ v => decide (v.serial ≠ k) }
    res := { s.res with poolWaiters := s.res.poolWaiters.filter (· ≠ k) }
    tbl := { s.tbl with tables := s.tbl.tables.map fun e => (e.1,
      { e.2 with current := { e.2.current with pins := e.2.current.pins.filter (· ≠ k) }
                 retiring := e.2.retiring.map fun v => { v with pins := v.pins.filter (· ≠ k) } }) } }

/-- Completes a command: its entry is posted and remembered, and the command is over. -/
def finishCmd (c : Cmd) (r : Result) (s : State) : State :=
  let words := entryWords c.src c.opcode c.cid r
  let s := releaseCommand c s
  let s := if c.lost then { s with q := { s.q with discarded := s.q.discarded + 1 } }
    else deliver c.src words (hdrNoIrq c.words) r.payload s
  let s := if c.remembered then remember c words s else s
  match c.src with
  | .admin p l =>
    if s.q.cmds.any fun c' => match c'.src with | .admin p' l' => decide (p' = p ∧ l' = l) | _ => false then s
    else modSluice (sluiceIx p l) (fun sl => if sl.adminEnable then sl else { sl with adminReady := false }) s
  | _ => s

/-- Completions wait while SCH is halted or an activation holds the device (R394, R464); the debug opcodes do not. -/
def postingHeld (s : State) (op : Nat) : Bool := decide (op < 0xF0) && (s.fw.halted.getLsbD 2 || s.fw.activating.isSome)

/-- A command of a polder whose fatal latch is set completes POISONED (R143). [DEDUCED, log 33] -/
def fatalStatus (s : State) (c : Cmd) (st : Status) : Status :=
  if isDataOp c.opcode && (polderOf s c.polder).fatal then statusJoin st .poisoned else st

/-- Completes the command with a serial, if it is still running. -/
def finish (serial : Nat) (r : Result) (s : State) : State :=
  match s.q.cmds.find? fun c => c.serial = serial with
  | none => s
  | some c =>
    let r := { r with status := fatalStatus s c r.status }
    if postingHeld s c.opcode then
      { s with q := { s.q with cmds := s.q.cmds.map fun d =>
        if d.serial = serial then { d with outcome := some r, decided := true, waiting := false, phase := max d.phase 1, lines := [], zeroReads := [], after := [] } else d } }
    else finishCmd c r s

def finishWith (c : Cmd) (st : Status) (value : Nat) (s : State) : State := finish c.serial { status := st, value := value } s

def modCmd (serial : Nat) (f : Cmd → Cmd) (s : State) : State :=
  { s with q := { s.q with cmds := s.q.cmds.map fun c => if c.serial = serial then f c else c } }

/-- Completes, in fetch order, every command that satisfies a test. -/
def finishAll (test : Cmd → Bool) (r : Result) (s : State) : State :=
  ((s.q.cmds.filter test).map (·.serial)).foldl (fun s k => finish k r s) s

/-! ### Acceptance and dispatch -/

/-- A command that a FENCE of its queue pair, or a snapshot fence of its TCX, accepted before it holds back (Table 4.8, R374). -/
def fenceHolds (s : State) (c : Cmd) : Bool :=
  s.q.cmds.any fun f => decide (f.opcode = 0x41 ∧ f.serial < c.serial) &&
    (if flag f.words 3 0 then decide (opRow c.opcode ≠ none) && decide (f.tcx = c.tcx) && ((opRow c.opcode).any (·.names))
     else decide (f.src = c.src))

/-- An earlier command of the TCX among the given opcodes is still running. -/
def earlierOf (s : State) (ops : List Nat) (c : Cmd) : Bool :=
  ops.contains c.opcode && s.q.cmds.any fun d => ops.contains d.opcode && decide (d.tcx = c.tcx ∧ d.serial < c.serial)

/-- The commands of one TCX that run in the order SCH accepts them: those of a table refresh (R230), and `SEG_WRITE`,
`SEG_SYNC` and `KEY_LOAD` (R51, R156), of which a narrowing write no longer holds the others once it is made. -/
def tableOrder (s : State) (c : Cmd) : Bool :=
  earlierOf s [0x48, 0x49, 0x51] c
    || ([0x20, 0x21, 0x28].contains c.opcode && s.q.cmds.any fun d => [0x20, 0x21, 0x28].contains d.opcode && d.waiting
      && decide (d.tcx = c.tcx ∧ d.serial < c.serial))

/-- SCH may dispatch a command now: intake not held, SCH not halted, its polder LIVE, no fence before it (R392, R464, R30, R374). -/
def dispatchable (s : State) (c : Cmd) : Bool :=
  if 0xF0 ≤ c.opcode then true
  else !tableOrder s c && !s.q.intakeHeld && !s.res.poolWaiters.contains c.serial && !s.fw.halted.getLsbD 2 && !fenceHolds s c
    && (!isDataOp c.opcode || !((opRow c.opcode).any (·.names)) || decide ((polderOf s (tcxOf s c.tcx).polder).state = .live))

/-- The record of an accepted item. -/
def newCmd (s : State) (it : Item) : Cmd :=
  let ws := it.words
  let names := (opRow (hdrOpcode ws)).any (·.names)
  { serial := s.q.next, src := it.src, words := ws, host := it.host, opcode := hdrOpcode ws, cid := hdrCid ws
    tcx := hdrTcx ws, epoch := (tcxOf s (hdrTcx ws)).epoch
    polder := if names then (tcxOf s (hdrTcx ws)).polder else 64
    waiting := true, origin := s.time, remembered := remembers it.src ws }

/-- Adds a command to those outstanding; a remembered one takes a record, the oldest of 4,096 going first (R353). -/
def addCmd (c : Cmd) (s : State) : State :=
  let s := { s with q := { s.q with cmds := s.q.cmds ++ [c], next := s.q.next + 1 } }
  let s := match c.src with
    | .crown run _ => match tabFind s.eng.runs run with
      | none => s
      | some r => putRun run { r with outstanding := r.outstanding ++ [(c.serial, c.cid)] } s
    | _ => s
  if !c.remembered then s
  else modSluice ((srcSluice s c.src).getD mgmtIx) (fun sl => { sl with rids := lastN 4096 (sl.rids ++
    [{ rid := hdrRequest c.words, opcode := c.opcode, check := c.words.drop 3, serial := c.serial }]) }) s

/-- A command answered at intake: its entry, and a record of it when it passed step 4 (R348, R353). -/
def answerIntake (it : Item) (st : Status) (remembered : Bool) (s : State) : State :=
  let c := { newCmd s it with remembered := remembered && remembers it.src it.words }
  finishCmd c { status := st } (addCmd c s)

/-- A command is dispatched: its mode word is taken (R332). -/
def dispatchCmd (serial : Nat) (s : State) : State :=
  modCmd serial (fun c => { c with waiting := false, modes := (polderOf s c.polder).modes, arith := s.fw.running.manifest.arith }) s

/-- The versions of a table, the current one first. -/
def tableVersions (t : Table) : List Version := t.current :: t.retiring

/-- Adds a command to the pins of a version. -/
def pinIn (number serial : Nat) (v : Version) : Version := if v.number = number then { v with pins := v.pins ++ [serial] } else v

/-- Pins the version of a table that a number names (0: the current one) for a command; none when the table or the
version is not there, or the table is being destroyed (R212, R218). -/
def pinTable (key want serial : Nat) (s : State) : Option (Nat × State) :=
  match tabFind s.tbl.tables key with
  | none => none
  | some t =>
    let v := if want = 0 then some t.current else (tableVersions t).find? fun v => v.number = want
    match v with
    | none => none
    | some v =>
      if t.destroying.isSome then none
      else
        let t := { t with current := pinIn v.number serial t.current, retiring := t.retiring.map (pinIn v.number serial) }
        some (v.number, { s with tbl := { s.tbl with tables := tabInsert s.tbl.tables key t } })

/-- A lookup or `SEQ_POOL` pins its versions when the device reads its last entry (R218, R228, R238). -/
def pinVersion (serial : Nat) (s : State) : State :=
  match s.q.cmds.find? fun c => c.serial = serial with
  | none => s
  | some c =>
    if !([0x80, 0x81, 0x84].contains c.opcode) then s
    else
      let want := wordAt c.words (if c.opcode = 0x84 then 17 else 19)
      let s := match pinTable (64 * c.tcx + field c.words 3 31 26) want serial s with
        | none => s
        | some (n, s) => modCmd serial (fun c => { c with pinned := some n }) s
      if c.opcode = 0x84 ∧ field c.words 3 19 16 = 4 then
        match pinTable (64 * c.tcx + field c.words 3 25 20) (wordAt c.words 18) serial s with
        | none => s
        | some (n, s) => modCmd serial (fun c => { c with pinned2 := some n }) s
      else s

/-- An item passes the intake: it is answered, replayed, or becomes a waiting command (R348). -/
def acceptItem (it : Item) (s : State) : State :=
  match intake s it.src it.words with
  | .answer st rem => answerIntake it st rem s
  | .replay e => deliver it.src (replayWords it.src e) (hdrNoIrq it.words) [] s
  | .await k =>
    modSluice ((srcSluice s it.src).getD mgmtIx) (fun sl => { sl with rids := sl.rids.map fun r =>
      if r.serial = k then { r with repeats := r.repeats ++ [(it.src, it.words.take 3)] } else r }) s
  | .accept => pinVersion s.q.next (addCmd (newCmd s it) s)

/-- The command of an item among those that have not begun. [DESIGN CHOICE, log 5] -/
def pendingCmd (s : State) (it : Item) : Option Cmd :=
  s.q.cmds.find? fun c => decide (c.src = it.src ∧ c.words = it.words ∧ c.phase = 0) && c.outcome.isNone && !c.lost

/-- A data queue pair of a sluice that an activation made UNMATCHED is not fetched (R394). -/
def dataHeld (s : State) (src : Src) : Bool :=
  match src with
  | .data p l _ => decide ((sluiceOr s (sluiceIx p l)).state = .unmatched)
  | _ => false

/-- A tunnelled item has no place while another is outstanding (R364), and no item is taken in while intake is held (R392). -/
def intakeShut (s : State) (it : Item) : Bool :=
  (decide (it.src = .tunnel) && s.q.tunnelBusy) || (s.q.intakeHeld && decide (hdrOpcode it.words < 0xF0)) || dataHeld s it.src

/-- Takes in an item that no ring fetch has brought before. [DESIGN CHOICE, log 5] -/
def takeIn (it : Item) (s : State) : State :=
  if intakeShut s it then s
  else acceptItem it (if it.src = .tunnel then { s with q := { s.q with tunnelBusy := true } } else s)

/-- Runs a command of one opcode: an item not yet fetched passes the intake first; a command that SCH may not dispatch
waits (R348, R332). `body` is the command's own meaning. [DESIGN CHOICE, log 5] -/
def runItem (op : Nat) (it : Item) (body : Cmd → State → State) (s : State) : State :=
  if srcExists s it.src = false ∨ hdrOpcode it.words ≠ op then s
  else
    let s := match pendingCmd s it with
      | some _ => s
      | none => takeIn it s
    match pendingCmd s it with
    | none => s
    | some c =>
      let host := if c.host = it.host then it.host else it.host ++ c.host
      let s := modCmd c.serial (fun c => { c with host := host }) s
      if c.waiting = false then body { c with host := host } s
      else if dispatchable s c then
        let s := dispatchCmd c.serial s
        match s.q.cmds.find? fun c' => c'.serial = c.serial with
        | some c' => body c' s
        | none => s
      else s

end Sys2Proof.Machine
end

