-- ==== Sys2Proof/Machine/Digests.lean ====
section
/-!
DEFINITION. The check codes and digests the specification names: CRC-32 and CRC-32C (R502) and SHA3-256 (R53, R318).
-/

namespace Sys2Proof.Machine

/-- One bit of a reflected CRC with its polynomial reversed. -/
def crcBits (poly : Nat) : Nat → Nat → Nat
  | 0, c => c
  | n + 1, c => crcBits poly n (if c % 2 = 1 then (c / 2) ^^^ poly else c / 2)

/-- A reflected 32-bit CRC over bytes in ascending order, initial value and final XOR 0xFFFF_FFFF (R502). -/
def crcOf (poly : Nat) (l : List Byte) : Nat :=
  (l.foldl (fun c b => crcBits poly 8 (c ^^^ b.toNat)) 0xFFFFFFFF) ^^^ 0xFFFFFFFF

/-- CRC-32 of IEEE 802.3: polynomial 0x04C1_1DB7, reversed 0xEDB8_8320 (R502). -/
def crc32 (l : List Byte) : Nat := crcOf 0xEDB88320 l

/-- CRC-32C: polynomial 0x1EDC_6F41, reversed 0x82F6_3B78 (R502). -/
def crc32c (l : List Byte) : Nat := crcOf 0x82F63B78 l

/-! ### SHA3-256 (FIPS 202), lanes as numbers below 2^64, lane (x, y) at 5y + x -/

def rotl64 (v n : Nat) : Nat := if n % 64 = 0 then v else (v <<< (n % 64)) % 2 ^ 64 + v >>> (64 - n % 64)

def keccakRotations : List Nat :=
  [0, 1, 62, 28, 27, 36, 44, 6, 55, 20, 3, 10, 43, 25, 39, 41, 45, 15, 21, 8, 18, 2, 61, 56, 14]

def keccakConstants : List Nat :=
  [0x0000000000000001, 0x0000000000008082, 0x800000000000808A, 0x8000000080008000, 0x000000000000808B,
   0x0000000080000001, 0x8000000080008081, 0x8000000000008009, 0x000000000000008A, 0x0000000000000088,
   0x0000000080008009, 0x000000008000000A, 0x000000008000808B, 0x800000000000008B, 0x8000000000008089,
   0x8000000000008003, 0x8000000000008002, 0x8000000000000080, 0x000000000000800A, 0x800000008000000A,
   0x8000000080008081, 0x8000000000008080, 0x0000000080000001, 0x8000000080008008]

def lane (a : List Nat) (x y : Nat) : Nat := a.getD (5 * (y % 5) + x % 5) 0

/-- The lanes of a state given by a function of x and y, in storage order. -/
def lanes (f : Nat → Nat → Nat) : List Nat := (List.range 25).map fun i => f (i % 5) (i / 5)

/-- One round of Keccak-f[1600]: θ, ρ and π, χ, ι. -/
def keccakRound (a : List Nat) (rc : Nat) : List Nat :=
  let c := (List.range 5).map fun x => lane a x 0 ^^^ lane a x 1 ^^^ lane a x 2 ^^^ lane a x 3 ^^^ lane a x 4
  let d := (List.range 5).map fun x => c.getD ((x + 4) % 5) 0 ^^^ rotl64 (c.getD ((x + 1) % 5) 0) 1
  let t := lanes fun x y => rotl64 (lane a x y ^^^ d.getD x 0) (keccakRotations.getD (5 * y + x) 0)
  let b := lanes fun x y => lane t (x + 3 * y) x
  let e := lanes fun x y => lane b x y ^^^ ((2 ^ 64 - 1 - lane b (x + 1) y) &&& lane b (x + 2) y)
  match e with
  | [] => []
  | h :: r => (h ^^^ rc) :: r

def keccakF (a : List Nat) : List Nat := keccakConstants.foldl keccakRound a

/-- Absorbs blocks of 136 bytes. -/
def absorb : Nat → List Byte → List Nat → List Nat
  | 0, _, a => a
  | n + 1, l, a =>
    let block := l.take 136
    absorb n (l.drop 136) (keccakF (a.mapIdx fun i v => v ^^^ ofBytes ((block.drop (8 * i)).take 8)))

/-- The domain bits 01 and the padding 10*1 to a multiple of 136 bytes. -/
def shaPad (l : List Byte) : List Byte :=
  let k := 136 - l.length % 136
  if k = 1 then l ++ [0x86] else l ++ [0x06] ++ List.replicate (k - 2) 0 ++ [0x80]

/-- The SHA3-256 digest as a 256-bit little-endian number: byte 0 of the digest is its lowest byte (R53). -/
def sha3 (l : List Byte) : Nat :=
  let p := shaPad l
  let a := absorb (p.length / 136) p (List.replicate 25 0)
  a.getD 0 0 + 2 ^ 64 * a.getD 1 0 + 2 ^ 128 * a.getD 2 0 + 2 ^ 192 * a.getD 3 0

end Sys2Proof.Machine
end

