-- ==== Sys2Proof/Machine/Access.lean ====
section
/-!
DEFINITION. The accesses a command makes to memory by DVA (R59 to R63): tiles read and written, fault records, host-tier
transfers, and the end of a command with its status and digest record (R317 to R321).
-/

namespace Sys2Proof.Machine

/-! ### Fault records -/

/-- Writes a fault record for the first faulting tile of a command, and counts it (R63, Table 3.10). [DEDUCED, log 47] -/
def faultTile (kind seg dva bytes : Nat) (st : Status) (stop : Bool) (r : Run) : Run :=
  let c := r.cmd
  let body : List Word := [BitVec.ofNat 32 (kind * 2 ^ 28 + c.tcx * 2 ^ 16 + c.cid),
    BitVec.ofNat 32 (c.epoch.toNat * 2 ^ 16 + r.unit * 2 ^ 8 + r.engine * 2 ^ 4 + seg),
    BitVec.ofNat 32 dva, BitVec.ofNat 32 (dva / 2 ^ 32), BitVec.ofNat 32 bytes]
  { r with s := if r.faultTiles = 0 then writeRecord 0x02 false body r.s else r.s
           faultDva := if r.faultTiles = 0 then dva else r.faultDva
           faultTiles := r.faultTiles + 1
           status := statusJoin r.status st
           stopped := r.stopped || stop }

/-- Cuts a range at 2 MiB boundaries, where alone the mapping can change (R46, R98). -/
def piecesOf : Nat → Nat → Nat → List (Nat × Nat)
  | 0, _, _ => []
  | fuel + 1, dva, len =>
    if len = 0 then []
    else
      let n := min len (2 * mib - dva % (2 * mib))
      (dva, n) :: piecesOf fuel (dva + n) (len - n)

def pieces (dva len : Nat) : List (Nat × Nat) := piecesOf (len / (2 * mib) + 2) dva len

/-- The pieces of a range with the check of each (R59). -/
def checkRange (s : State) (t dva len : Nat) (need : Right) : List (Nat × Nat × Lookup) :=
  (pieces dva len).map fun p => (p.1, p.2, checkByte s t p.1 need)

def isDenied : Lookup → Bool | .denied _ => true | _ => false
def isUnmapped : Lookup → Bool | .unmapped => true | _ => false

/-- Bytes of the pieces that satisfy a test, and the first of them. -/
def piecesBytes (l : List (Nat × Nat × Lookup)) (test : Lookup → Bool) : Nat := ((l.filter fun p => test p.2.2).map (·.2.1)).sum
def piecesFirst (l : List (Nat × Nat × Lookup)) (test : Lookup → Bool) : Nat := ((l.find? fun p => test p.2.2).map (·.1)).getD 0

/-- Segment of the mapped part of a tile; 0xF if none (Table 3.10). -/
def piecesSeg (l : List (Nat × Nat × Lookup)) : Nat :=
  (l.findSome? fun p => match p.2.2 with | .at n _ => some n | .denied n => some n | .unmapped => none).getD 0xF

/-! ### Bytes of a mapped piece -/

/-- An access through a window that its host does not answer is counted, and the first per window per 1 ms writes one event
record: 0 fenced, 1 timeout, 2 UR or CA (R100). [DEDUCED, log 48] -/
def windowFailure (w detail : Nat) (s : State) : State :=
  let s := { s with tier := { s.tier with windowFails := tabModify s.tier.windowFails 0 w (· + 1) } }
  let last := tabGet s.tier.windowNoted 0 w
  if last ≠ 0 ∧ s.time < last - 1 + 25000 then countEvent 0x03 w s
  else writeEvent 0x03 w (windowOf s w).owner.toNat 64 0 detail
    { s with tier := { s.tier with windowNoted := tabInsert s.tier.windowNoted w (s.time + 1) } }

/-- A read through the window of a dead, unbound or fenced HID notifies the FM (Table 10.6). -/
def deadWindow (w t : Nat) (s : State) : State :=
  notifyFm { kind := 0x0D, polder := (tcxOf s t).polder, hid := (windowOf s w).hid.toNat, unit := w } (0x3000000000000 + w * (64 * gib)) s

/-- The spillway replaces items of a command: it is enabled and the command has a deadline (R101, R103). -/
def spills (c : Cmd) : Bool := spillEnabled c.modes && decide (hdrDeadline c.words ≠ 0)

/-- Finishing reserve of an opcode in µs (Table 5.5). -/
def reserveOf (op : Nat) : Nat :=
  if op = 0x80 ∨ op = 0x81 then 10 else if op = 0x84 ∨ op = 0x86 then 20 else 60

/-- The spill point of a command comes before a host-tier read of it times out, 1 ms after its issue (R100, R102). [DEDUCED, log 48] -/
def spillsFirst (c : Cmd) : Bool :=
  spills c && decide (0x80 ≤ c.opcode ∧ c.opcode ≤ 0x89 ∧ hdrDeadline c.words ≤ 1000 + reserveOf c.opcode)

/-- A range of a usable window holds a byte that no completion has brought, and the spill point comes before the 1 ms of
R100: until the cut-off the command waits, at the cut-off its items take their fallback (R103). [DEDUCED, log 48] -/
def windowAwaited (s : State) (c : Cmd) (tpa n : Nat) : Bool :=
  let wd := windowOf s (windowIx tpa)
  decide (regionOf tpa = .host) && windowUsable s wd c.tcx && spillsFirst c
    && (List.range n).any fun i => (hostByte c.host wd.hid.toNat (wd.hpaBase.toNat * 4096 + windowOff tpa + i)).isNone

/-- Bytes of host memory that a command reads through a window: poisoned where the window is unusable or nothing returns
(R100); a range whose completion the cut-off may precede keeps the command waiting. [DEDUCED, log 48] -/
def readWindow (r : Run) (tpa n : Nat) : CellBytes × Run :=
  let w := windowIx tpa
  let wd := windowOf r.s w
  if !windowUsable r.s wd r.cmd.tcx then
    (List.replicate n (0, true), { r with s := deadWindow w r.cmd.tcx (windowFailure w 0 r.s) })
  else if windowAwaited r.s r.cmd tpa n && !r.cmd.cut then
    (List.replicate n (0, true), { r with t3 := r.t3 ++ [tpa / 4096] })
  else
    let hpa := wd.hpaBase.toNat * 4096 + windowOff tpa
    let got := (List.range n).map fun i => hostByte r.cmd.host wd.hid.toNat (hpa + i)
    (got.map fun b => b.getD (0, true),
      if got.any (·.isNone) then { r with s := windowFailure w 1 r.s } else r)

/-- Lines of a tray range. -/
def linesOf (tpa n : Nat) : List Nat := if n = 0 then [] else (List.range ((tpa + n - 1) / 64 + 1 - tpa / 64)).map fun i => tpa / 64 + i

/-- Reads a piece that maps to one TPA range. Lines a host owns are recalled first (F5). [DESIGN CHOICE, log 12] -/
def readPiece (r : Run) (tpa n : Nat) : CellBytes × Run :=
  if regionOf tpa = .host then readWindow r tpa n
  else
    let owned := (linesOf tpa n).filter fun l => lineDb r.s l && (hostOwner r.s l).isSome
    let r := { r with recalls := r.recalls ++ owned }
    if regionOf tpa = .flash then
      let ch := (cellOf r.s tpa - 2 ^ 60) / 2 ^ 44
      if (nandOf r.s ch).health ≠ .failed ∧ (nandOf r.s ch).mapLoaded = false then
        ([], { r with status := statusJoin r.status .held, stopped := true })
      else ((List.range n).map fun i => readCell r.s (tpa + i), { r with s := reportDead tpa r.s })
    else ((List.range n).map fun i => readCell r.s (tpa + i), { r with s := reportDead tpa r.s })

/-- T3 granules of a range that have not been delivered to the command (R115). -/
def missingT3 (c : Cmd) (tpa n : Nat) : List Nat :=
  if regionOf tpa = .flash ∧ n ≠ 0 then
    ((List.range ((tpa + n - 1) / 4096 + 1 - tpa / 4096)).map fun i => tpa / 4096 + i).filter fun g => !c.delivered.contains g
  else []

/-- Fill of the unmapped bytes of a partial read: byte (d mod 4) of FILL, or poison (R60). -/
def fillBytes (e : Segment) (dva n : Nat) : CellBytes :=
  (List.range n).map fun i => (e.fill.extractLsb' (8 * ((dva + i) % 4)) 8, e.fillPoison)

/-- The part of a piece that lies in a range. -/
def clipPiece (a n : Nat) (p : Nat × Nat × Lookup) : Nat × Nat × Lookup :=
  (max p.1 a, min (p.1 + p.2.1) (a + n) - max p.1 a, p.2.2)

/-- The address of the clipped part of a piece. -/
def clipLookup (start a : Nat) : Lookup → Lookup
  | .at n tpa => .at n (tpa + (a - start))
  | l => l

/-- Reads part of a tile of at most 64 KiB: the whole tile is checked (R59, R60), the bytes `from_` to `from_ + n` are
delivered, none when the tile delivers none. -/
def readTilePart (dva len from_ n : Nat) (r : Run) : Option CellBytes × Run :=
  if r.stopped || n = 0 then (if n = 0 then some [] else none, r)
  else
    let ps := checkRange r.s r.cmd.tcx dva len .read
    let denied := piecesBytes ps isDenied
    let gone := piecesBytes ps isUnmapped
    if denied ≠ 0 then (none, faultTile 0x4 (piecesSeg ps) (piecesFirst ps isDenied) denied .rightsFault true r)
    else if gone = len ∨ (gone ≠ 0 ∧ hdrFaultWhole r.cmd.words) then
      (none, faultTile 0x2 (piecesSeg ps) (piecesFirst ps isUnmapped) gone .mapFault true r)
    else
      let r := if gone = 0 ∨ from_ ≠ dva then r
        else faultTile 0x1 (piecesSeg ps) (piecesFirst ps isUnmapped) gone .partialMap false r
      let e := segOf r.s r.cmd.tcx (piecesSeg ps)
      let (l, r) := ps.foldl (fun (acc : CellBytes × Run) p =>
        let q := clipPiece from_ n p
        if q.2.1 = 0 then acc
        else match clipLookup p.1 q.1 p.2.2 with
          | .at _ tpa =>
            let r := { acc.2 with t3 := acc.2.t3 ++ missingT3 acc.2.cmd tpa q.2.1 }
            let (b, r) := readPiece r tpa q.2.1
            (acc.1 ++ b, r)
          | _ => (acc.1 ++ fillBytes e q.1 q.2.1, acc.2)) ([], r)
      if r.stopped then (none, r) else (some l, r)

/-- Reads one tile of at most 64 KiB (R59, R60). -/
def readTile (dva len : Nat) (r : Run) : Option CellBytes × Run := readTilePart dva len dva len r

/-- Reads a range as tiles of 64 KiB counted from its first byte. -/
def readTiles : Nat → Nat → Nat → Run → Option CellBytes × Run
  | 0, _, _, r => (some [], r)
  | fuel + 1, dva, len, r =>
    if len = 0 then (some [], r)
    else
      let n := min len 65536
      match readTile dva n r with
      | (none, r) => (none, r)
      | (some b, r) => match readTiles fuel (dva + n) (len - n) r with
        | (none, r) => (none, r)
        | (some b', r) => (some (b ++ b'), r)

def readRange (dva len : Nat) (r : Run) : Option CellBytes × Run := readTiles (len / 65536 + 1) dva len r

/-! ### Writes -/

/-- A unit leaves the superblock that held it: the superblock has one valid unit fewer (R120, R122). -/
def leaveBlock (u : Nat) (s : State) : State :=
  let e := tabGet s.ftl.map {} u
  if e.state = .qlc then
    modNand (u / 2 ^ 30) (fun n => { n with dies := tabModify n.dies {} e.die fun d =>
      { d with valid := tabModify d.valid 0 e.block (· - 1) } }) s
  else s

/-- A map entry changes; the update is counted for its segment's checkpoint (R124). -/
def putMap (u : Nat) (e : MapEntry) (s : State) : State :=
  let s := leaveBlock u s
  let s := modNand (u / 2 ^ 30) (fun n => { n with updates := tabModify n.updates 0 (u % 2 ^ 30 / 4096) (· + 1) }) s
  { s with ftl := { s.ftl with map := tabPut s.ftl.map {} u e } }

/-- The map entry of a unit after a write reaches its channel: in the SRAM journal in staged mode, else in the SLC journal (R117). -/
def mapWritten (s : State) (tpa : Nat) : State :=
  let ch := (cellOf s tpa - 2 ^ 60) / 2 ^ 44
  let u := unitOf s tpa
  putMap u { state := if (nandOf s ch).staged then .sram else .slc, die := u % 16 % 8 } s

/-- Before the first write of an unmapped or unreadable unit its other bytes read as zero (R114, R119). -/
def openUnit (s : State) (tpa : Nat) : State :=
  let u := unitOf s tpa
  if (mapOf s tpa).state = .unreadable then
    (List.range 256).foldl (fun s i => setPoison (2 ^ 54 + u * 256 + i) .uncorrectable s) s
  else if (mapOf s tpa).state = .unmapped then
    { s with mem := { s.mem with
        bytes := tabFilter s.mem.bytes fun k _ => decide (k < 2 ^ 60 ∨ (k - 2 ^ 60) / 16384 ≠ u)
        poison := tabFilter s.mem.poison fun k _ => decide (k < 2 ^ 54 ∨ (k - 2 ^ 54) / 256 ≠ u) } }
  else s

/-- Groups the bytes of a range by line: line, and (offset in line, byte, poison) of each. [DEDUCED, log 43] -/
def byLine (tpa : Nat) (data : CellBytes) : List (Nat × List (Nat × Byte × Bool)) :=
  (linesOf tpa data.length).map fun l =>
    (l, ((List.range 64).filter fun o => tpa ≤ l * 64 + o && l * 64 + o < tpa + data.length).map fun o =>
      let d := data.getD (l * 64 + o - tpa) (0, false)
      (o, d.1, d.2))

/-- Writes bytes of one flash line that has reached its channel (R117, R119). [DEDUCED, log 43] -/
def writeFlashLine (line : Nat) (bytes : List (Nat × Byte)) (poison : Bool) (s : State) : State × Status :=
  let (s, st) := homeWrite line bytes poison (openUnit s (line * 64))
  let s := mapWritten s (line * 64)
  (bumpFlash ((polderAt s (line * 64)).getD 64) 0x00 bytes.length s, st)

/-- A line that a stopped lookup may have written: where it did, its bytes are the values given (R223). Lines that hosts hold,
and lines that refuse writes, keep theirs. [DESIGN CHOICE, log 61] -/
def spoilLine (n line : Nat) (bytes : List (Nat × Byte)) (s : State) : State :=
  let tpa := line * 64
  let nand := nandOf s ((cellOf s tpa - 2 ^ 60) / 2 ^ 44)
  if Config.outputTouched n line = false ∨ (lineDb s line = true ∧ hostHoldersOf s line ≠ []) ∨ writesLocked s tpa = true then s
  else if regionOf tpa = .host then s
  else if regionOf tpa = .flash then
    if nand.health = .ok ∧ nand.mapLoaded = true then (writeFlashLine line bytes false s).1 else s
  else (homeWrite line bytes false (dropCrown line s)).1

/-- The outputs of a lookup that ends without its result hold unspecified bytes wherever it could write them (R223,
Table 18.3). [DESIGN CHOICE, log 61] -/
def spoilRanges (t : Nat) (ranges : List (Nat × Nat)) (s : State) : State :=
  let n := s.free
  ranges.foldl (fun s q => (checkRange s t q.1 q.2 .write).foldl (fun s p =>
    match p.2.2 with
    | .at _ tpa => (byLine tpa ((List.range p.2.1).map fun i => (Config.outputByte n (p.1 + i), false))).foldl
        (fun s e => spoilLine n e.1 (e.2.map fun b => (b.1, b.2.1)) s) s
    | _ => s) s) (drawFree s)

/-- The end of a run that stopped: its outputs are unspecified. -/
def stopOutputs (ranges : List (Nat × Nat)) (r : Run) : Run := if r.stopped then { r with s := spoilRanges r.cmd.tcx ranges r.s } else r

/-- Writes a piece that maps to one TPA range. [DEDUCED, log 35] -/
def writePiece (r : Run) (tpa : Nat) (data : CellBytes) : Run :=
  let n := data.length
  if regionOf tpa = .host then
    let w := windowIx tpa
    let wd := windowOf r.s w
    if !windowUsable r.s wd r.cmd.tcx then { r with s := windowFailure w 0 r.s }
    else
      let r := { r with s := emit (.hostWrite wd.hid.toNat (wd.hpaBase.toNat * 4096 + windowOff tpa) (data.map Prod.fst) (data.any Prod.snd)) r.s }
      let r := { r with cmd := { r.cmd with zeroReads := if r.cmd.zeroReads.contains wd.hid.toNat then r.cmd.zeroReads else r.cmd.zeroReads ++ [wd.hid.toNat] } }
      if data.any Prod.snd then { r with status := statusJoin r.status .poisoned } else r
  else
    let flash := decide (regionOf tpa = .flash)
    let ch := (cellOf r.s tpa - 2 ^ 60) / 2 ^ 44
    if flash && decide ((nandOf r.s ch).health ≠ .ok) then { r with status := statusJoin r.status .mediaReadOnly, stopped := true }
    else if flash && !(nandOf r.s ch).mapLoaded then { r with status := statusJoin r.status .held, stopped := true }
    else if writesLocked r.s tpa then { r with s := countRefusal r.s, status := statusJoin r.status .mediaReadOnly, stopped := true }
    else
      let held := (linesOf tpa n).filter fun l => lineDb r.s l && (hostHoldersOf r.s l) ≠ []
      let r := { r with invalidate := r.invalidate ++ held }
      let units := (linesOf tpa n).filter fun l => l % 256 = 0 || l = tpa / 64
      let partial_ := flash && units.any fun l => decide ((mapOf r.s (l * 64)).state = .unreadable) &&
        decide (l / 256 * 16384 < tpa ∨ tpa + n < (l / 256 + 1) * 16384)
      let r := if partial_ then { r with status := statusJoin r.status .poisoned } else r
      (byLine tpa data).foldl (fun r e =>
        let bytes := e.2.map fun b => (b.1, b.2.1)
        let poison := e.2.any (·.2.2)
        let (s, st) := if flash then writeFlashLine e.1 bytes poison r.s else homeWrite e.1 bytes poison (dropCrown e.1 r.s)
        { r with s := s, status := statusJoin r.status st }) r

/-- Writes one tile (R59, R61): all of it, or none of it when a byte is unmapped or refused. -/
def writeTile (dva : Nat) (data : CellBytes) (r : Run) : Run :=
  if r.stopped || data = [] then r
  else
    let len := data.length
    let ps := checkRange r.s r.cmd.tcx dva len .write
    let denied := piecesBytes ps isDenied
    let gone := piecesBytes ps isUnmapped
    if denied ≠ 0 then faultTile 0x4 (piecesSeg ps) (piecesFirst ps isDenied) denied .rightsFault true r
    else if gone ≠ 0 then faultTile 0x3 (piecesSeg ps) (piecesFirst ps isUnmapped) gone .mapFault true r
    else ps.foldl (fun r p =>
      match p.2.2 with
      | .at _ tpa => writePiece r tpa ((data.drop (p.1 - dva)).take p.2.1)
      | _ => r) r

def writeTiles : Nat → Nat → CellBytes → Run → Run
  | 0, _, _, r => r
  | fuel + 1, dva, data, r =>
    if data = [] then r else writeTiles fuel (dva + 65536) (data.drop 65536) (writeTile dva (data.take 65536) r)

def writeRange (dva : Nat) (data : CellBytes) (r : Run) : Run := writeTiles (data.length / 65536 + 1) dva data r

def cleanBytes (l : List Byte) : CellBytes := l.map fun b => (b, false)

/-- Checks a whole range before any effect, in pieces of 64 KiB from its first byte, with one fault record (R63).
`test` tells which bytes fault as unmapped although a segment maps them. -/
def checkWhole (dva len : Nat) (need : Right) (kind : Nat) (extra : Nat → Bool) (r : Run) : Run :=
  let ps := checkRange r.s r.cmd.tcx dva len need
  let bad := fun p : Nat × Nat × Lookup => match p.2.2 with | .at _ tpa => extra tpa | _ => true
  let un := ps.filter fun p => bad p && !isDenied p.2.2
  let den := ps.filter fun p => isDenied p.2.2
  let faulting := if den ≠ [] then den else un
  match faulting with
  | [] => r
  | p :: _ =>
    let first := p.1
    let bytes := (faulting.map fun q => min (q.1 + q.2.1) (first + 65536) - min q.1 (first + 65536)).sum
    let hit := (List.range ((len + 65535) / 65536)).filter fun i =>
      faulting.any fun q => q.1 < dva + (i + 1) * 65536 && dva + i * 65536 < q.1 + q.2.1
    let r := faultTile (if den ≠ [] then 0x4 else kind) (piecesSeg ps) first bytes (if den ≠ [] then .rightsFault else .mapFault) true r
    { r with faultTiles := hit.length }

/-! ### The end of a command -/

/-- Words of DVA fields of a request, which PROGRAM takes as zero (R318). -/
def dvaWords (op : Nat) : List Nat :=
  match op with
  | 0x80 | 0x81 => (List.range 12).map (· + 6)
  | 0x84 => (List.range 8).map (· + 6)
  | 0x86 => [6, 7] ++ (List.range 10).map (· + 10)
  | 0x88 | 0x89 => (List.range 18).map (· + 8)
  | 0xC0 | 0xC1 | 0xC2 => [6, 7, 8, 9]
  | _ => []

/-- PROGRAM of a command that is no kernel or crown run: SHA3-256 of "BY960-FF", the opcode and the request from word 3 (R318). -/
def programOf (op : Nat) (ws : List Word) : Nat :=
  sha3 ([0x42, 0x59, 0x39, 0x36, 0x30, 0x2D, 0x46, 0x46] ++ [BitVec.ofNat 8 op] ++
    wordsToBytes ((ws.mapIdx fun i w => if (dvaWords op).contains i then 0 else w).drop 3))

/-- Determinism code of a digest record: 0 OFF, 1 DIGEST, 2 REPRODUCIBLE. -/
def detCode (m : BitVec 32) : Nat := modeDet m - 1

/-- Bytes of a digest record (Table 15.7). -/
def digestBytes (s : State) (c : Cmd) (seq : Nat) (migrated : Bool) (res : Result) : List Byte :=
  let t := tcxOf s c.tcx
  toBytes 4 seq ++ toBytes 4 (c.opcode * 2 ^ 16 + c.cid)
    ++ toBytes 4 (statusCode res.status * 2 ^ 16 + detCode c.modes * 4 + (if migrated then 2 else 0) + (if res.overflow then 1 else 0))
    ++ toBytes 4 (t.epoch.toNat * 2 ^ 16 + c.arith.toNat)
    ++ toBytes 8 t.tdc ++ toBytes 4 (min c.tdcDelta (2 ^ 32 - 1)) ++ toBytes 4 0
    ++ toBytes 32 (res.image.getD (programOf c.opcode c.words))
    ++ toBytes 32 (sha3 res.version) ++ toBytes 32 (sha3 res.input) ++ toBytes 32 (sha3 res.output)

/-- Writes the digest record of a command to its TCX's ring and raises the ring's counter (R316, R317). [DEDUCED, log 36] -/
def writeDigest (migrated : Bool) (res : Result) (r : Run) : Run × Bool :=
  let c := r.cmd
  let d := (tcxOf r.s c.tcx).digest
  if digestOp c.opcode && d.enable && (hdrDigest c.words || digestRequired c.modes) then
    let bytes := digestBytes r.s c d.seq migrated res
    let r' := writeRange (d.base + 160 * (d.seq % max 1 d.entries)) (cleanBytes bytes) { r with stopped := false, status := .ok, faultTiles := 1 }
    let s := raiseCounter c.tcx d.cnt 1 (modTcx c.tcx (fun t => { t with digest := { t.digest with seq := (t.digest.seq + 1) % 2 ^ 32 } }) r'.s)
    ({ r with s := s, recalls := r'.recalls, invalidate := r'.invalidate }, true)
  else (r, false)

/-- LATE: the completion is posted after the deadline (R103, R106). [DEDUCED, log 33] -/
def isLate (s : State) (c : Cmd) : Bool :=
  decide (0x80 ≤ c.opcode ∧ c.opcode ≤ 0x9F) && decide (hdrDeadline c.words ≠ 0)
    && decide (s.time > c.origin + 25 * hdrDeadline c.words)

/-- The status of a command at its end, with LATE and UNREPRODUCIBLE (R106, R321). [DEDUCED, log 33] -/
def endStatus (s : State) (c : Cmd) (st : Status) : Status :=
  statusJoin (statusJoin st (statusIf (isLate s c) .late))
    (statusIf (isReproducible c.modes && decide (c.tdcDelta ≠ 0) && digestOp c.opcode) .unreproducible)

/-- Lines that host copies keep from a run are recalled or invalidated; the command waits for them and then runs again (R74, R75). -/
def waitForLines (s0 : State) (r : Run) : State :=
  let lines := (r.recalls ++ r.invalidate).dedup
  let s := modCmd r.cmd.serial (fun c => { c with lines := lines, phase := max c.phase 1 }) s0
  lines.foldl (fun s l => requestLine l
    { op := if r.invalidate.contains l then .evict else .engineRead, asker := .command r.cmd.serial, tpa := l * 64 } s) s

/-- Something keeps the run from its data: lines held by hosts, or T3 granules not delivered. [DESIGN CHOICE, log 10] -/
def runBlocked (r : Run) : Bool := !(r.recalls = [] && r.invalidate = [] && r.t3 = [])

/-- Hosts written by the command answer a zero-length read before its completion is posted (R89). -/
def finishResult (r : Run) (res : Result) (s0 : State) : State :=
  let c := r.cmd
  let st := endStatus r.s c (fatalStatus r.s c (statusJoin r.status res.status))
  let res := { res with status := st, faultDva := r.faultDva, faultTiles := r.faultTiles }
  let (r, digested) := writeDigest ((tabFind r.s.eng.placements c.serial).any (·.migrated)) res r
  if runBlocked r then waitForLines s0 r
  else
    let res := { res with digested := digested }
    let s := if isLate r.s c then bumpTier c.polder (if spillEnabled c.modes then 0x80 else 0x78) 1 r.s else r.s
    if r.cmd.zeroReads = [] then finish c.serial res s
    else
      let s := modCmd c.serial (fun c => { c with zeroReads := r.cmd.zeroReads, outcome := some res, decided := true }) s
      r.cmd.zeroReads.foldl (fun s h => emit (.zeroRead c.serial h) s) s

/-- Runs the accesses of a command from a state and completes it with what they report, or leaves it waiting for host copies. [DESIGN CHOICE, log 10] -/
def concludeRun (r : Run) (res : Result) (s0 : State) : State :=
  if runBlocked r then waitForLines s0 r else finishResult r res s0

def runOf (c : Cmd) (s : State) : Run :=
  { s := s, cmd := c, status := c.status, faultDva := c.faultDva, faultTiles := c.faultTiles }

/-- A run raises the choice counter of its TCX and its own share of it (R105, R321). -/
def tdcRun (n : Nat) (r : Run) : Run :=
  if n = 0 then r else { r with s := raiseTdc r.cmd.tcx n r.s, cmd := { r.cmd with tdcDelta := r.cmd.tdcDelta + n } }

/-- The TARGET address bits 63:52 of a 64-bit DVA field are zero (R7). -/
def dvaClear (ws : List Word) (n : Nat) : Bool := decide (field ws (n + 1) 31 20 = 0)

end Sys2Proof.Machine
end

