-- ==== Sys2Proof/Machine/Combine.lean ====
section
/-!
DEFINITION. The combining stage for fetch-adds (R186, R188, R189), and the `ATOMIC` command (R78).
-/

namespace Sys2Proof.Machine

/-- Sends a fetch-add of a sum to the home in the name of the stage. -/
def sendFetchAdd (b : FetchBatch) (sum : Nat) (s : State) : State :=
  requestLine (lineOf b.tpa)
    { op := .atomic 0 b.bytes (sum % 2 ^ (8 * b.bytes)) 0, asker := .stage b.tpa b.key b.kind, tpa := b.tpa } s

def sameBatch (a b : FetchBatch) : Bool := decide (a.tpa = b.tpa ∧ a.bytes = b.bytes ∧ a.key = b.key ∧ a.kind = b.kind)

def putBatch (b : FetchBatch) (s : State) : State :=
  { s with copy := { s.copy with batches := s.copy.batches.map fun x => if sameBatch x b then b else x } }

/-- The batch forming goes to the home as one fetch-add of the sum of its addends (R188). -/
def sendBatch (b : FetchBatch) (s : State) : State :=
  if b.forming = [] then s
  else
    let p := (polderAt s b.tpa).getD 64
    let s := putBatch { b with sent := b.sent ++ [b.forming], forming := [] } (bumpCopy p 0x08 b.forming.length s)
    sendFetchAdd b ((b.forming.map (·.2)).sum) s

/-- A fetch-add reaches the stage: alone to the home, into the batch forming, or uncombined beyond a limit (R188, R189). -/
def stageFetchAdd (asker : Asker) (tpa bytes key kind addend : Nat) (s : State) : State :=
  let fresh : FetchBatch := { tpa := tpa, bytes := bytes, key := key, kind := kind, sent := [[(asker, addend)]] }
  match s.copy.batches.find? (sameBatch fresh) with
  | some b =>
    let b := { b with forming := b.forming ++ [(asker, addend)] }
    if b.forming.length ≥ 64 then sendBatch b s else putBatch b s
  | none =>
    if groupsOf s (homeDie s tpa) none ≥ 2048 ∨ groupsOf s (homeDie s tpa) (some key) ≥ 64 then
      requestLine (lineOf tpa) { op := .atomic 0 bytes addend 0, asker := asker, tpa := tpa } s
    else sendFetchAdd fresh addend { s with copy := { s.copy with batches := s.copy.batches ++ [fresh] } }

/-- `FETCH_ADD_BATCH_SEND`: 256 ns after its first member arrived the batch goes to the home (R188). -/
def batchSend (tpa key : Nat) (s : State) : State :=
  match s.copy.batches.find? fun b => b.tpa = tpa && b.key = key && !(b.forming = []) with
  | none => s
  | some b => sendBatch b s

/-- Member m receives the old value plus the addends of the members before it, or poison with all the others. -/
def answerMembers (bytes line old : Nat) (bad tagBad : Bool) : List (Asker × Nat) → State → State
  | [], s => s
  | (asker, addend) :: rest, s =>
    answerMembers bytes line (if bad then 0 else (old + addend) % 2 ^ (8 * bytes)) bad tagBad rest (atomicAnswer asker line old bad tagBad s)

/-- `ATOMIC_RESULT_RETURN`: the oldest outstanding fetch-add of the stage returns; the batch behind it goes (R188). -/
def resultReturn (tpa key : Nat) (s : State) : State :=
  match s.copy.batches.find? fun b => b.tpa = tpa && b.key = key && !(b.results = []) with
  | none => s
  | some b =>
    let (old, bad, tagBad) := b.results.headD (0, false, false)
    let group := b.sent.headD []
    let b := { b with sent := b.sent.drop 1, results := b.results.drop 1 }
    let s := putBatch b s
    let s := if b.sent = [] ∧ b.forming ≠ [] then sendBatch b s
      else if b.sent = [] then { s with copy := { s.copy with batches := s.copy.batches.filter fun x => !sameBatch x b } }
      else s
    answerMembers b.bytes (lineOf tpa) old bad tagBad group s

/-! ### ATOMIC (R78, Table 4.5) -/

/-- `ATOMIC`: checked, translated by firmware, and sent to the home of its line. -/
def atomicBody (c : Cmd) (s : State) : State :=
  let ws := c.words
  let op := field ws 3 7 4
  let bytes := if field ws 3 1 0 = 2 then 4 else 8
  let dva := word64 ws 4
  let operand := word64 ws 6
  let new := word64 ws 8
  if op > 4 ∨ field ws 3 1 0 < 2 ∨ dva % bytes ≠ 0 ∨ operand ≥ 2 ^ (8 * bytes) ∨ new ≥ 2 ^ (8 * bytes) ∨ (op ≠ 2 ∧ new ≠ 0) then
    finishWith c .invalid 0 s
  else
    let r := runOf c s
    match checkByte s c.tcx dva .atomic with
    | .unmapped =>
      let r := faultTile 0x3 0xF dva bytes .mapFault true r
      concludeRun r {} s
    | .denied n =>
      let r := faultTile 0x4 n dva bytes .rightsFault true r
      concludeRun r {} s
    | .at _ tpa =>
      if writesLocked s tpa then finishWith c .mediaReadOnly 0 (countRefusal s)
      else
      let s := modCmd c.serial (fun c => { c with decided := true, phase := 1, lines := [lineOf tpa] }) s
      if op = 0 then stageFetchAdd (.command c.serial) tpa bytes c.tcx (1 + 4 * bytes) operand s
      else requestLine (lineOf tpa) { op := .atomic op bytes operand new, asker := .command c.serial, tpa := tpa } s

end Sys2Proof.Machine
end

