-- ==== Sys2Proof/Machine/Copies.lean ====
section
/-!
DEFINITION. Asynchronous copies, arrival counters and push slots (R190 to R198), and the work pool (R146).
-/

namespace Sys2Proof.Machine

/-- Whether a source may act with tenant admin rights on a polder: the management sluice, or ADMIN = 1 and the mask bit. -/
def adminOf (s : State) (src : Src) (polder : Nat) : Bool :=
  srcIsMgmt s src || ((hitOf s (srcHid s src)).admin && polderBit (hitOf s (srcHid s src)) polder)

/-- The TPA ranges of the mapped pieces of a DVA range. -/
def mappedRanges (s : State) (t dva len : Nat) : List (Nat × Nat) :=
  (checkRange s t dva len .read).filterMap fun p => match p.2.2 with
    | .at _ tpa => some (tpa, p.2.1)
    | .denied n => some (segTpa (segOf s t n) p.1, p.2.1)
    | .unmapped => none

def rangesOverlap (a b : List (Nat × Nat)) : Bool :=
  a.any fun x => b.any fun y => decide (x.1 < y.1 + y.2 ∧ y.1 < x.1 + x.2)

/-! ### Push slots (R197, R198) -/

def slotKey (ix slot : Nat) : Nat := ix * 16 + slot

/-- A slot is bound to another command. -/
def slotTaken (s : State) (ix slot : Nat) : Bool := (tabFind s.copy.slots (slotKey ix slot)).isSome

/-- Binds a slot to a command at its dispatch. -/
def bindSlot (c : Cmd) (slot length : Nat) (s : State) : State :=
  match srcSluice s c.src with
  | none => s
  | some ix =>
    { s with copy := { s.copy with
        slots := tabInsert s.copy.slots (slotKey ix slot) { serial := c.serial, length := length, timer := true }
        lastSlot := tabPut s.copy.lastSlot 0 (slotKey ix slot) (c.polder + 1) } }

/-- The slot bound to a command. -/
def slotOfCmd (s : State) (serial : Nat) : Option (Nat × PushSlot) := s.copy.slots.find? fun e => e.2.serial = serial

/-- Stream bytes from `a` on have all arrived. -/
def arrivedFrom (p : PushSlot) (a n : Nat) : Bool := (List.range n).all fun i => (tabFind p.arrived (a + i)).isSome

/-- Complete chunks are passed to the command in order (R197). -/
def passChunks : Nat → PushSlot → PushSlot
  | 0, p => p
  | fuel + 1, p =>
    let n := min 4096 (p.length - p.passed)
    if n = 0 then { p with timer := false }
    else if arrivedFrom p p.passed n then passChunks fuel { p with passed := p.passed + n }
    else p

/-- Stream offset of a byte written at a slot offset: the next lap of its chunk buffer not yet passed. -/
def streamOffset (p : PushSlot) (offset : Nat) : Nat :=
  let first := p.passed / 4096
  let buffer := offset / 4096
  let chunk := first + (buffer + 16 - first % 16) % 16
  chunk * 4096 + offset % 4096

/-- A push write is dropped and counted for the polder whose command last held the slot (R197, R208). [DEDUCED, log 38] -/
def dropPush (key : Nat) (s : State) : State :=
  let p := tabGet s.copy.lastSlot 0 key
  if p = 0 then s else bumpCopy (p - 1) 0x28 1 s

/-- `PUSH_SLOT_WRITE` (R197): bytes beyond LENGTH are dropped, the others enter their chunk buffers, and the timer restarts. -/
def pushWrite (ix slot offset : Nat) (data : List Byte) (s : State) : State :=
  let key := slotKey ix slot
  match tabFind s.copy.slots key with
  | none => dropPush key s
  | some p =>
    let places := data.mapIdx fun i b => (streamOffset p (offset + i), b)
    let kept := places.filter fun e => e.1 < p.length
    let p := { p with arrived := kept.foldl (fun a e => tabInsert a e.1 e.2) p.arrived, timer := true }
    let s := { s with copy := { s.copy with slots := tabInsert s.copy.slots key (passChunks (p.length / 4096 + 2) p) } }
    if kept.length < places.length then dropPush key s else s

/-! ### COPY_ASYNC (R190 to R193) -/

structure CopyReq where
  push : Bool
  cntMode : Nat
  cnt : Nat
  slot : Nat
  dstTcx : Nat
  src : Nat
  dst : Nat
  length : Nat
deriving DecidableEq, Repr

def copyReq (c : Cmd) : CopyReq :=
  let ws := c.words
  { push := flag ws 3 30, cntMode := field ws 3 29 28, cnt := field ws 3 27 24, slot := field ws 3 23 20
    dstTcx := if flag ws 3 12 then field ws 3 11 0 else c.tcx
    src := word64 ws 4, dst := word64 ws 6, length := word64 ws 8 }

/-- Die of the copy unit that runs a copy: of the first source byte, or of the port of a push or TH source (R192). -/
def copyDie (s : State) (c : Cmd) : Nat :=
  let q := copyReq c
  let portDie := ((srcSluice s c.src).getD mgmtIx) / 16 / 4 % 4
  if q.push then portDie
  else match checkByte s c.tcx q.src .read with
    | .at _ tpa =>
      if regionOf tpa = .host then
        (match ldOfHid s (windowOf s (windowIx tpa)).hid.toNat with | some ld => ld / 64 % 4 | none => portDie)
      else homeDie s tpa
    | _ => 0

/-- Copies in flight (R192: at most 32 of a TCX and 256 on a copy unit). -/
def copiesRunning (s : State) : List Cmd := s.q.cmds.filter fun c => decide (c.opcode = 0x40 ∧ c.phase ≠ 0)

/-- `COPY_ASYNC` at its dispatch (R191); its chunks land one by one (`CHUNK_LANDED`). -/
def copyBody (c : Cmd) (s : State) : State :=
  let ws := c.words
  let q := copyReq c
  let xtcx := flag ws 3 12
  let dt := tcxOf s q.dstTcx
  let ix := (srcSluice s c.src).getD mgmtIx
  if q.cntMode = 3 ∨ (q.push ∧ q.src ≠ 0) ∨ (!q.push ∧ q.slot ≠ 0) ∨ (!xtcx ∧ field ws 3 11 0 ≠ 0)
      ∨ q.length = 0 ∨ q.length > 2 ^ 40 ∨ q.src + q.length > 2 ^ 52 ∨ q.dst + q.length > 2 ^ 52 then finishWith c .invalid 0 s
  else if xtcx ∧ dt.state ≠ .free ∧ polderBit (hitOf s (srcHid s c.src)) dt.polder = false then finishWith c .rightsFault 0 s
  else if xtcx ∧ (dt.state ≠ .live ∨ adminOf s c.src dt.polder = false) then finishWith c .invalid 0 s
  else if !q.push && rangesOverlap (mappedRanges s c.tcx q.src q.length) (mappedRanges s q.dstTcx q.dst q.length) then finishWith c .invalid 0 s
  else if q.push ∧ slotTaken s ix q.slot then finishWith c .held 0 s
  else if ((copiesRunning s).filter fun d => d.tcx = c.tcx).length ≥ 32
      ∨ ((copiesRunning s).filter fun d => copyDie s d = copyDie s c).length ≥ 256 then
    modCmd c.serial (fun c => { c with waiting := true }) s
  else
    let s := if q.push then bindSlot c q.slot q.length s else s
    modCmd c.serial (fun c => { c with phase := 1 }) s

/-- The next destination chunk: its offset in the copy and its length. -/
def nextChunk (s : State) (c : Cmd) : Nat × Nat :=
  let q := copyReq c
  let o := tabGet s.copy.progress 0 c.serial
  (o, min (4096 - (q.dst + o) % 4096) (q.length - o))

/-- Source bytes of a chunk, tile by tile of 64 KiB counted from the first source byte. -/
def copySource : Nat → CopyReq → Nat → Nat → Run → Option CellBytes × Run
  | 0, _, _, _, r => (some [], r)
  | fuel + 1, q, o, n, r =>
    if n = 0 then (some [], r)
    else
      let base := o / 65536 * 65536
      let part := min n (base + 65536 - o)
      match readTilePart (q.src + base) (min 65536 (q.length - base)) (q.src + o) part r with
      | (none, r) => (none, r)
      | (some b, r) => match copySource fuel q (o + part) (n - part) r with
        | (none, r) => (none, r)
        | (some b', r) => (some (b ++ b'), r)

/-- The end of a copy: counting at the end, the bytes copied, and its completion (R194, Table 18.3). -/
def copyEnd (r : Run) (copied : Nat) (s0 : State) : State :=
  let q := copyReq r.cmd
  let r := if q.cntMode = 2 ∧ copied = q.length then { r with s := raiseCounter q.dstTcx q.cnt 1 r.s } else r
  concludeRun r { value := copied } s0

/-- A chunk is read and written (R192): the run after it. -/
def copyChunk (c : Cmd) (s : State) : Run :=
  let q := copyReq c
  let (o, n) := nextChunk s c
  let r := { runOf c s with unit := 0xE0 + copyDie s c, engine := 6 }
  let (data, r) := if q.push then
      match slotOfCmd s c.serial with
      | some (_, p) => (some ((List.range n).map fun i => ((tabFind p.arrived (o + i)).getD 0, false)), r)
      | none => (none, r)
    else copySource 3 q o n r
  match data with
  | none => r
  | some d =>
    let poisoned := d.any Prod.snd
    let w := writeTile (q.dst + o) d { r with cmd := { r.cmd with tcx := q.dstTcx } }
    { w with cmd := { w.cmd with tcx := c.tcx }, status := if poisoned then statusJoin w.status .poisoned else w.status }

/-- Bytes that may land: those of passed push chunks, or all. -/
def copyReady (s : State) (c : Cmd) : Bool :=
  let q := copyReq c
  let (o, n) := nextChunk s c
  !q.push || (match slotOfCmd s c.serial with | some (_, p) => decide (o + n ≤ p.passed) | none => false)

/-- `CHUNK_LANDED`: the next chunk of a copy reaches its home; its counter rises and the last one ends the copy (R192, R194). -/
def chunkLand (serial : Nat) (host : List HostByte) (s : State) : State :=
  match s.q.cmds.find? fun c => c.serial = serial && decide (c.opcode = 0x40 ∧ c.phase ≠ 0) && c.outcome.isNone with
  | none => s
  | some c0 =>
    let c := { c0 with host := host }
    if !(c.lines = []) || !copyReady s c then s
    else
      let q := copyReq c
      let (o, n) := nextChunk s c
      let r := copyChunk c s
      if runBlocked r then waitForLines s r
      else if r.stopped then copyEnd r o s
      else
        let st := bumpCopy c.polder 0x10 n r.s
        let st := { st with copy := { st.copy with
          progress := tabPut st.copy.progress 0 serial (o + n)
          slots := st.copy.slots.map fun e => if e.2.serial = serial then
            (e.1, { e.2 with arrived := tabFilter e.2.arrived fun k _ => decide (k < o ∨ o + n ≤ k) }) else e } }
        let st := if q.cntMode = 1 then raiseCounter q.dstTcx q.cnt n st else st
        let keep := fun c : Cmd => { c with
          status := r.status, faultDva := r.faultDva, faultTiles := r.faultTiles, zeroReads := r.cmd.zeroReads, value := o + n }
        let st := modCmd serial keep st
        if o + n = q.length then copyEnd { r with s := st, cmd := keep c } (o + n) s else st

/-- `DROP_NOTICE`: a best-effort frame of a copy was dropped and is to be resent (R192). -/
def dropNoticeOp (serial : Nat) (f : Frame) (s : State) : State :=
  match s.q.cmds.find? fun c => c.serial = serial && decide (c.opcode = 0x40) && flag c.words 3 31 with
  | none => s
  | some _ =>
    let known := s.copy.resends.any fun r => r.serial = serial && r.frame.tag = f.tag
    { s with copy := { s.copy with resends :=
        if known then s.copy.resends.map fun r =>
          if r.serial = serial ∧ r.frame.tag = f.tag then { r with due := true, backoff := min 64 (2 * r.backoff) } else r
        else s.copy.resends ++ [{ serial := serial, frame := f }] } }

/-- `BEST_EFFORT_RESEND` (R192). -/
def resendOp (serial : Nat) (tag : BitVec 18) (s : State) : State :=
  match s.copy.resends.find? fun r => r.serial = serial && r.frame.tag = tag && r.due with
  | none => s
  | some r =>
    let s := match s.q.cmds.find? fun c => c.serial = serial with
      | some c => bumpCopy c.polder 0x18 1 s
      | none => s
    let rest := s.copy.resends.map fun x => if x.serial = serial ∧ x.frame.tag = tag then { x with due := false } else x
    emit (.frame r.frame.srcDie.toNat r.frame.dstEp.toNat r.frame) { s with copy := { s.copy with resends := rest } }

/-! ### COUNTER_WAIT (R195, R196) -/

def waitsPending (s : State) : List Cmd := s.q.cmds.filter fun c => decide (c.opcode = 0x42 ∧ c.phase ≠ 0)

/-- A satisfied WAIT writes NOTIFY and completes with the value (R196). -/
def waitSatisfied (c : Cmd) (value : Nat) (s : State) : State :=
  let s := modCmd c.serial (fun c => { c with decided := true, value := value }) s
  let r := runOf { c with decided := true, value := value } s
  let r := if flag c.words 8 31 then writeTile (wideAt c.words 7 2 % 2 ^ 52) (cleanBytes (toBytes 8 value)) r else r
  concludeRun r { value := value } s

/-- A pending WAIT looks at its counter again. -/
def waitAgain (c : Cmd) (s : State) : State :=
  let v := counterOf s c.tcx (field c.words 3 3 0)
  if c.decided then waitSatisfied c c.value s
  else if v ≥ word64 c.words 4 then waitSatisfied c v s
  else s

/-- `COUNTER_WAIT`. -/
def counterWaitBody (c : Cmd) (s : State) : State :=
  let ws := c.words
  let op := field ws 3 31 28
  let cnt := field ws 3 3 0
  let timeout := field ws 6 23 0
  if op > 1 ∨ timeout > 10000000 ∨ (op = 1 ∧ timeout ≠ 0) ∨ (flag ws 8 31 ∧ word64 ws 7 % 8 ≠ 0) then finishWith c .invalid 0 s
  else if op = 1 then
    finishWith c .ok (word64 ws 4) (modTcx c.tcx (fun t => { t with arrival := tabPut t.arrival 0 cnt (word64 ws 4) }) s)
  else if counterOf s c.tcx cnt ≥ word64 ws 4 then waitSatisfied c (counterOf s c.tcx cnt) s
  else if ((waitsPending s).filter fun d => d.tcx = c.tcx).length ≥ 64 ∨ (waitsPending s).length ≥ 4096 then finishWith c .held 0 s
  else modCmd c.serial (fun c => { c with phase := 1 }) s

/-- `WAIT_TIMEOUT`: a WAIT not satisfied within its limit completes `WAIT_EXPIRED` with the current value (R196). -/
def waitTimeoutOp (serial : Nat) (s : State) : State :=
  match s.q.cmds.find? fun c => c.serial = serial && decide (c.opcode = 0x42 ∧ c.phase ≠ 0) && !c.decided with
  | none => s
  | some c => if field c.words 6 23 0 = 0 then s else finishWith c .waitExpired (counterOf s c.tcx (field c.words 3 3 0)) s

/-! ### The work pool (R146) -/

/-- Bytes of a polder's work pool: 64 MiB per pseudo-channel. -/
def poolBytes (p : Polder) : Nat := popcount 256 p.hbm.toNat * 64 * mib

/-- A command takes work-pool space; when the pool is full it waits in its queue, and the wait is counted (R146). -/
def takePool (c : Cmd) (n : Nat) (s : State) : Option State :=
  let p := polderOf s c.polder
  if p.workUsed + n ≤ poolBytes p then
    some (modCmd c.serial (fun c => { c with pool := n }) (modPolder c.polder (fun p => { p with workUsed := p.workUsed + n }) s))
  else none

def waitForPool (c : Cmd) (s : State) : State :=
  let s := modPolder c.polder (fun p => { p with poolWaits := p.poolWaits + 1 }) (modCmd c.serial (fun c => { c with waiting := true }) s)
  { s with res := { s.res with poolWaiters := if s.res.poolWaiters.contains c.serial then s.res.poolWaiters else s.res.poolWaiters ++ [c.serial] } }

/-! ### Statistics blocks (R108, R126, R148, R184, R208, R234) -/

/-- Writes a counter block at the DVA of words 4 and 5 and clears the counters when asked to. -/
def statsRun (c : Cmd) (block : List Byte) (clear : Polder → Polder) (s : State) : State :=
  let dva := word64 c.words 4
  let r := checkWhole dva block.length .write 0x3 (fun _ => false) (runOf c s)
  let r := writeRange dva (cleanBytes block) r
  let r := if flag c.words 3 0 && !r.stopped then { r with s := modPolder c.polder clear r.s } else r
  concludeRun r {} s

/-- `n` 64-bit counters of a block. -/
def counterBytes (t : Tab Nat) (n : Nat) : List Byte := (List.range n).flatMap fun i => toBytes 8 (tabGet t 0 (8 * i))

/-- `COPY_STATS` (R208, Table 10.8). -/
def copyStatsBody (c : Cmd) (s : State) : State :=
  if !dvaClear c.words 4 then finishWith c .invalid 0 s
  else statsRun c (counterBytes (polderOf s c.polder).copyCnt 8) (fun p => { p with copyCnt := [] }) s

end Sys2Proof.Machine
end

