-- ==== Sys2Proof/Machine/Formats.lean ====
section
/-!
DEFINITION. Number formats, rounding and the order-free accumulator (R280 to R295).
-/

namespace Sys2Proof.Machine

/-- An exact value: ±m × 2^e, a signed infinity, or NaN (R280). -/
inductive Val where
  | nan
  | inf (neg : Bool)
  | fin (neg : Bool) (m : Nat) (e : Int)
deriving DecidableEq, Repr

/-- How a floating-point format uses its largest exponent (Table 14.3). -/
inductive FpTop where
  | ieee | e4m3 | none
deriving DecidableEq, Repr

/-- A floating-point format of Table 14.3. -/
structure Fp where
  ebits : Nat
  mbits : Nat
  bias : Nat
  top : FpTop
deriving DecidableEq, Repr

def fp32 : Fp := ⟨8, 23, 127, .ieee⟩
def bf16 : Fp := ⟨8, 7, 127, .ieee⟩
def fp16 : Fp := ⟨5, 10, 15, .ieee⟩
def fpE4M3 : Fp := ⟨4, 3, 7, .e4m3⟩
def fpE5M2 : Fp := ⟨5, 2, 15, .ieee⟩
def fpE2M3 : Fp := ⟨2, 3, 1, .none⟩
def fpE3M2 : Fp := ⟨3, 2, 3, .none⟩
def fpE2M1 : Fp := ⟨2, 1, 1, .none⟩

/-- Exponent of the unit of a format's subnormals. -/
def fpMin (f : Fp) : Int := 1 - (f.bias : Int) - f.mbits

def fpSign (f : Fp) : Nat := 2 ^ (f.ebits + f.mbits)

/-- The canonical NaN of a format (R284). -/
def fpNan (f : Fp) : Nat :=
  match f.top with
  | .e4m3 => 0x7F
  | _ => (2 ^ f.ebits - 1) * 2 ^ f.mbits + 2 ^ (f.mbits - 1)

/-- The value that the bits of a format stand for (Table 14.3). -/
def fpDecode (f : Fp) (b : Nat) : Val :=
  let neg := decide (b / fpSign f % 2 = 1)
  let x := b / 2 ^ f.mbits % 2 ^ f.ebits
  let m := b % 2 ^ f.mbits
  if f.top = .ieee ∧ x = 2 ^ f.ebits - 1 then (if m = 0 then .inf neg else .nan)
  else if f.top = .e4m3 ∧ b % 128 = 0x7F then .nan
  else if x = 0 then .fin neg m (fpMin f)
  else .fin neg (2 ^ f.mbits + m) (fpMin f + x - 1)

/-- m × 2^k in whole units, rounded to nearest, ties to even (R283). -/
def roundUnits (m : Nat) (k : Int) : Nat :=
  if 0 ≤ k then m * 2 ^ k.toNat
  else
    let d := 2 ^ (-k).toNat
    let q := m / d
    let r := m % d
    if 2 * r > d ∨ (2 * r = d ∧ q % 2 = 1) then q + 1 else q

/-- m × 2^k in whole units, truncated towards zero (R291). -/
def truncUnits (m : Nat) (k : Int) : Nat := if 0 ≤ k then m * 2 ^ k.toNat else m / 2 ^ (-k).toNat

def bitLen (m : Nat) : Nat := if m = 0 then 0 else Nat.log2 m + 1

/-- Conversion to a floating-point format with SAT = 0 (R284, Table 14.4). -/
def fpEncode (f : Fp) (v : Val) : Nat :=
  match v with
  | .nan => fpNan f
  | .inf neg =>
    match f.top with
    | .e4m3 => 0x7F
    | _ => (if neg then fpSign f else 0) + (2 ^ f.ebits - 1) * 2 ^ f.mbits
  | .fin neg m e =>
    let sign := if neg then fpSign f else 0
    if m = 0 then sign
    else
      let u := max (e + bitLen m - (f.mbits + 1)) (fpMin f)
      let bits := (u - fpMin f).toNat * 2 ^ f.mbits + roundUnits m (e - u)
      match f.top with
      | .e4m3 => if bits ≥ 0x7F then 0x7F else sign + bits
      | _ =>
        let top := (2 ^ f.ebits - 1) * 2 ^ f.mbits
        sign + min bits top

def intVal (i : Int) : Val := .fin (decide (i < 0)) i.natAbs 0

/-- The integer that `w` bits of two's complement stand for. -/
def signedBits (w b : Nat) : Int := if b % 2 ^ w ≥ 2 ^ (w - 1) then (b % 2 ^ w : Nat) - (2 ^ w : Nat) else ((b % 2 ^ w : Nat) : Int)

/-- Conversion to a signed integer of `w` bits: round to nearest even, saturate; NaN gives 0 (Table 14.4). -/
def intEncode (w : Nat) (v : Val) : Nat :=
  let hi : Int := 2 ^ (w - 1) - 1
  let lo : Int := -(2 ^ (w - 1))
  let i : Int := match v with
    | .nan => 0
    | .inf neg => if neg then lo else hi
    | .fin neg m e => let r : Int := roundUnits m e; if neg then -r else r
  ((if i > hi then hi else if i < lo then lo else i) % (2 ^ w)).toNat

/-- The exact product (R283). -/
def mulVal (a b : Val) : Val :=
  match a, b with
  | .nan, _ | _, .nan => .nan
  | .inf s, .inf t => .inf (s ^^ t)
  | .inf s, .fin t m _ | .fin t m _, .inf s => if m = 0 then .nan else .inf (s ^^ t)
  | .fin s m e, .fin t n g => .fin (s ^^ t) (m * n) (e + g)

/-- A value times 2^k. -/
def scaleVal (k : Int) : Val → Val
  | .fin s m e => .fin s m (e + k)
  | v => v

def negVal : Val → Val
  | .nan => .nan
  | .inf s => .inf (!s)
  | .fin s m e => .fin (!s) m e

/-- The exact sum; a zero sum is +0 (R284). -/
def addVal (a b : Val) : Val :=
  match a, b with
  | .nan, _ | _, .nan => .nan
  | .inf s, .inf t => if s = t then .inf s else .nan
  | .inf s, _ | _, .inf s => .inf s
  | .fin s m e, .fin t n g =>
    let u := min e g
    let x : Int := (m * 2 ^ (e - u).toNat : Nat)
    let y : Int := (n * 2 ^ (g - u).toNat : Nat)
    let z := (if s then -x else x) + (if t then -y else y)
    .fin (decide (z < 0)) z.natAbs u

/-- Rounds a value to a format. -/
def roundVal (f : Fp) (v : Val) : Val := fpDecode f (fpEncode f v)

/-- A value of 32 significant bits (R286). -/
def round32 (v : Val) : Val :=
  match v with
  | .fin s m e => let k := bitLen m - 32; .fin s (roundUnits m (-(k : Int))) (e + k)
  | v => v

/-- Order of values with −0 below +0; NaN compares with nothing (R202). -/
def valLt (a b : Val) : Bool :=
  match a, b with
  | .nan, _ | _, .nan => false
  | .inf s, .inf t => s && !t
  | .inf s, .fin .. => s
  | .fin .., .inf t => !t
  | .fin s m e, .fin t n g =>
    let u := min e g
    let x := m * 2 ^ (e - u).toNat
    let y := n * 2 ^ (g - u).toNat
    if s && !t then true
    else if !s && t then false
    else if s then decide (y < x) else decide (x < y)

def isNanVal : Val → Bool | .nan => true | _ => false

/-- MAX or MIN of values: exact, a NaN gives NaN, −0 below +0 (R202, R219). -/
def maxVal (l : List Val) : Val :=
  if l.any isNanVal then .nan else l.tail.foldl (fun a b => if valLt a b then b else a) (l.headD .nan)
def minVal (l : List Val) : Val :=
  if l.any isNanVal then .nan else l.tail.foldl (fun a b => if valLt b a then b else a) (l.headD .nan)

/-! ### The order-free accumulator (R290 to R294) -/

/-- An addend in units of 2^W, truncated towards zero (R291). -/
def ofaUnits (w : Int) : Val → Int
  | .fin s m e => let u : Int := truncUnits m (e - w); if s then -u else u
  | _ => 0

/-- A finite addend whose magnitude reaches the window top (R293). -/
def ofaBig (w : Int) : Val → Bool
  | .fin _ m e => decide (truncUnits m (e - w) ≥ 2 ^ 95)
  | _ => false

/-- The sum of the truncated addends, in units of 2^W. -/
def ofaTotal (w : Int) (l : List Val) : Int := (l.map (ofaUnits w)).sum

/-- The accumulation overflows (R293). -/
def ofaOver (w : Int) (l : List Val) : Bool := l.any (ofaBig w) || decide ((ofaTotal w l).natAbs ≥ 2 ^ 95)

/-- The result of the window with the non-finite addends (R292). -/
def ofaResult (w : Int) (l : List Val) : Val :=
  let pos := l.any fun v => decide (v = .inf false)
  let neg := l.any fun v => decide (v = .inf true)
  if l.any isNanVal || (pos && neg) then .nan
  else if pos then .inf false
  else if neg then .inf true
  else let t := ofaTotal w l; .fin (decide (t < 0)) t.natAbs w

/-- The ordered FP32 fallback, in the order of the list (R294). -/
def orderedSum (l : List Val) : Val :=
  l.foldl (fun acc v => roundVal fp32 (addVal acc (roundVal fp32 v))) (.fin false 0 0)

/-- A sum by the accumulator with its fallback: the value before its one rounding, and whether it overflowed. -/
def ofaSum (w : Int) (l : List Val) : Val × Bool :=
  if ofaOver w l then (orderedSum l, true) else (ofaResult w l, false)

/-! ### Elements with poison -/

/-- A little-endian element of `n` bytes among bytes with their marks: its bits and whether a byte of it is poisoned. -/
def elemAt (l : List (Byte × Bool)) (i n : Nat) : Nat × Bool :=
  let e := (l.drop (i * n)).take n
  (ofBytes (e.map Prod.fst), e.any Prod.snd)

end Sys2Proof.Machine
end

