-- ==== Sys2Proof/Machine/Collectives.lean ====
section
/-!
DEFINITION. Collectives across hosts: groups, their phases and their failures (R199 to R204).
-/

namespace Sys2Proof.Machine

/-! ### The request (Table 10.4) -/

structure CollReq where
  count : Nat
  rank : Nat
  root : Nat
  all : Bool
  func : Nat
  fmt : Nat
  group : Nat
  push : Bool
  slot : Nat
  winExp : Int
  src : Nat
  dst : Nat
  items : Nat
  cntMode : Nat
  cnt : Nat
  record : Nat
  cap : Nat
deriving DecidableEq, Repr

def collReq (ws : List Word) : CollReq :=
  { count := field ws 3 31 24 + 1, rank := field ws 3 23 16, root := field ws 3 15 8, all := flag ws 3 7
    func := field ws 3 6 4, fmt := field ws 3 3 0, group := wordAt ws 4, push := flag ws 5 15, slot := field ws 5 14 11
    winExp := signedBits 8 (field ws 5 7 0), src := word64 ws 6, dst := word64 ws 8, items := field ws 10 23 0
    cntMode := field ws 11 31 30, cnt := field ws 11 29 26, record := 8 * field ws 12 5 0, cap := field ws 13 23 0 }

/-- The fixed parameters: every field but RANK, PUSH, SLOT, SRC, DST and the counter fields (R199). -/
def collParams (ws : List Word) : List Word :=
  (ws.drop 3).mapIdx fun i w =>
    if i = 0 then w &&& 0xFF00FFFF else if i = 2 then w &&& 0xFFFF07FF
    else if 3 ≤ i ∧ i ≤ 6 then 0 else if i = 8 then w &&& 0x03FFFFFF else w

/-- Bytes of an element of a `REDUCE` format. -/
def collElem (fmt : Nat) : Nat := if fmt = 1 ∨ fmt = 2 then 2 else 4

/-- Bytes of one member's contribution. -/
def collBytes (op : Nat) (q : CollReq) : Nat :=
  if op = 0xC0 then q.items * collElem q.fmt else if op = 0xC1 then q.items * 64 else q.items * q.record

/-- Bytes that the output takes at most. -/
def collOutput (op : Nat) (q : CollReq) : Nat :=
  if op = 0xC0 then collBytes op q else if op = 0xC1 then q.count * collBytes op q
  else min q.cap (q.count * q.items) * q.record

/-- This member's DST receives the output. -/
def collReceives (q : CollReq) : Bool := q.all || decide (q.rank = q.root)

def termOk (ws : List Word) (record t : Nat) : Bool :=
  !flag ws (14 + 2 * t) 31 || decide (4 * field ws (14 + 2 * t) 7 0 + 4 ≤ record)

/-- The checks of Table 10.4 on one request. -/
def collValid (op : Nat) (ws : List Word) : Bool :=
  let q := collReq ws
  let zero := fun a b => (List.range (b + 1 - a)).all fun i => decide (wordAt ws (a + i) = 0)
  let fpSum := decide (op = 0xC0 ∧ q.func = 0 ∧ q.fmt ≠ 3)
  decide (op = 0xC2 ∨ 2 ≤ q.count) && decide (q.rank < q.count) && (q.all || decide (q.root < q.count))
    && (collReceives q || decide (q.dst = 0)) && (q.push || decide (q.slot = 0)) && decide (q.cntMode ≠ 3)
    && decide (1 ≤ field ws 5 31 16) && (fpSum || decide (field ws 5 7 0 = 0))
    && dvaClear ws 6 && dvaClear ws 8 && decide (1 ≤ q.items)
    && (if op = 0xC0 then decide (q.func ≤ 2 ∧ q.fmt ≤ 3 ∧ q.items ≤ 4194304) && zero 12 21
        else if op = 0xC1 then decide (q.func = 0 ∧ q.fmt = 0 ∧ q.items ≤ 262144) && zero 12 21
        else decide (q.func = 0 ∧ q.fmt = 0 ∧ q.items ≤ 4194304 ∧ 1 ≤ field ws 12 5 0 ∧ field ws 12 5 0 ≤ 32 ∧ 1 ≤ q.cap)
          && (List.range 4).all fun t => termOk ws q.record t)

def groupKey (c : Cmd) : Nat := c.polder * 2 ^ 32 + wordAt c.words 4

def isCollective (op : Nat) : Bool := decide (0xC0 ≤ op ∧ op ≤ 0xC2)

/-! ### Failures (Table 10.5) -/

/-- The group that a running command is a member of. -/
def groupOfCmd (s : State) (serial : Nat) : Option (Nat × Group) :=
  s.copy.groups.find? fun e => e.2.members.any fun m => m.serial = serial

def dropGroup (key : Nat) (s : State) : State := { s with copy := { s.copy with groups := tabErase s.copy.groups key } }

/-- Every member but one completes with a status, and the group ends. -/
def endGroup (key : Nat) (g : Group) (except : Option Nat) (st : Status) (s : State) : State :=
  let s := dropGroup key s
  let rest := (g.members.map (·.serial)).filter fun k => some k ≠ except
  let s := if st = .memberLost ∨ st = .stateLost then bumpCopy (key / 2 ^ 32) 0x38 (rest.length) s else s
  rest.foldl (fun s k => finish k { status := st } s) s

/-- A member is lost before publication: it completes with its own status, every other `MEMBER_LOST` (R204). -/
def loseMember (serial : Nat) (own : Result) (s : State) : State :=
  match groupOfCmd s serial with
  | none => finish serial own s
  | some (key, g) => endGroup key g (some serial) .memberLost (finish serial own (dropGroup key s))

/-- A tenant reset or a drain fences a command; every member of its group completes `FENCED` (R42, Table 10.5). -/
def fenceCommand (serial : Nat) (s : State) : State :=
  match groupOfCmd s serial with
  | none => finish serial { status := .fenced } s
  | some (key, g) => endGroup key g none .fenced s

/-- An abort stops a command; the other members of its group complete `MEMBER_LOST` (R356, Table 10.5). -/
def abortCommand (serial : Nat) (s : State) : State :=
  let value := ((s.q.cmds.find? fun c => c.serial = serial).map (·.value)).getD 0
  loseMember serial { status := .aborted, value := value } s

/-- Work-pool state of a command is lost (R147): counted, and for a collective every member. -/
def loseState (serial : Nat) (s : State) : State :=
  match s.q.cmds.find? fun c => c.serial = serial with
  | none => s
  | some c =>
    let s := bumpResil c.polder 0x50 1 s
    match groupOfCmd s serial with
    | none => finish serial { status := .stateLost } s
    | some (key, g) => endGroup key g none .stateLost s

/-! ### Joining (R199, R201) -/

/-- A collective at its dispatch: it joins its group, or opens it. [DEDUCED, log 38] -/
def collectiveBody (op : Nat) (c : Cmd) (s : State) : State :=
  let ws := c.words
  let q := collReq ws
  let key := groupKey c
  let need := q.count * collBytes op q + collOutput op q
  let ix := (srcSluice s c.src).getD mgmtIx
  let join := fun (g : Group) (s : State) =>
    let members := g.members ++ [{ rank := q.rank, serial := c.serial }]
    let s := if q.push then bindSlot c q.slot (collBytes op q) s else s
    let s := { s with copy := { s.copy with groups := tabInsert s.copy.groups key { g with members := members, full := decide (members.length = g.count) } } }
    modCmd c.serial (fun c => { c with phase := 1 }) s
  if !collValid op ws || decide (poolBytes (polderOf s c.polder) = 0) then finishWith c .invalid 0 s
  else if need > poolBytes (polderOf s c.polder) then finishWith c .invalid 0 s
  else if q.push ∧ slotTaken s ix q.slot then finishWith c .held 0 s
  else match tabFind s.copy.groups key with
    | some g =>
      if g.full ∨ g.opcode ≠ op ∨ g.params ≠ collParams ws ∨ g.members.any (fun m => m.rank = q.rank) then finishWith c .invalid 0 s
      else join g s
    | none =>
      if (s.copy.groups.filter fun e => e.1 / 2 ^ 32 = c.polder).length ≥ 64 then finishWith c .held 0 s
      else match takePool c need s with
        | none => waitForPool c s
        | some s => join { opcode := op, params := collParams ws, count := q.count } s

/-- `JOIN_TIMEOUT`: the joined members of a group that is not full complete `MEMBER_LOST` (R201). -/
def joinTimeoutOp (polder group : Nat) (s : State) : State :=
  let key := polder * 2 ^ 32 + group
  match tabFind s.copy.groups key with
  | none => s
  | some g => if g.full then s else endGroup key g none .memberLost s

/-! ### Gather, combine, publish (R201 to R203) -/

/-- Value of an element of a `REDUCE` format. -/
def collDecode (fmt b : Nat) : Val :=
  match fmt with
  | 0 => fpDecode fp32 b
  | 1 => fpDecode bf16 b
  | 2 => fpDecode fp16 b
  | _ => intVal (signedBits 32 b)

def collEncode (fmt : Nat) (v : Val) : Nat :=
  match fmt with
  | 0 => fpEncode fp32 v
  | 1 => fpEncode bf16 v
  | 2 => fpEncode fp16 v
  | _ => intEncode 32 v

/-- One output element of a `REDUCE`, its overflow and its poison, from the contributions in rank order (R202). -/
def reduceElem (q : CollReq) (parts : List CellBytes) (i : Nat) : Nat × Bool × Bool :=
  let n := collElem q.fmt
  let elems := parts.map fun p => elemAt p i n
  let vals := elems.map fun e => collDecode q.fmt e.1
  let (v, ovf) := match q.func with
    | 0 => ofaSum (if q.fmt = 3 then 0 else q.winExp) vals
    | 1 => (maxVal vals, false)
    | _ => (minVal vals, false)
  (collEncode q.fmt v, ovf, elems.any Prod.snd)

/-- A record passes one term of `FILTER_STREAM` (Table 10.4). -/
def termHolds (ws : List Word) (t : Nat) (record : CellBytes) : Bool :=
  let f := ofBytes (((record.drop (4 * field ws (14 + 2 * t) 7 0)).take 4).map Prod.fst)
  let k := wordAt ws (15 + 2 * t)
  if !flag ws (14 + 2 * t) 31 then true
  else match field ws (14 + 2 * t) 30 28 with
    | 0 => decide (f = k)
    | 1 => decide (f ≠ k)
    | 2 => decide (f < k)
    | 3 => decide (f ≥ k)
    | 4 => decide (signedBits 32 f < signedBits 32 k)
    | 5 => decide (signedBits 32 f ≥ signedBits 32 k)
    | 6 => decide (f &&& k ≠ 0)
    | _ => decide (f &&& k = 0)

def recordsOf (size : Nat) (n : Nat) (l : CellBytes) : List CellBytes := (List.range n).map fun i => (l.drop (i * size)).take size

/-- The output of a group: its bytes, whether an element fell back, and its result word (R202, R203). -/
def collCombine (op : Nat) (ws : List Word) (parts : List CellBytes) : CellBytes × Bool × Nat :=
  let q := collReq ws
  match op with
  | 0xC0 =>
    let elems := (List.range q.items).map (reduceElem q parts)
    (elems.flatMap fun e => (toBytes (collElem q.fmt) e.1).map fun b => (b, e.2.2), elems.any fun e => e.2.1, 0)
  | 0xC1 => (parts.flatten, false, 0)
  | _ =>
    let passed := (parts.flatMap (recordsOf q.record q.items)).filter fun r => (List.range 4).all fun t => termHolds ws t r
    ((passed.take q.cap).flatten, false, min passed.length (2 ^ 32 - 1))

/-- The contribution of a member whose bytes are all there. -/
def contribution (c : Cmd) (r : Run) : Option CellBytes × Run :=
  let q := collReq c.words
  if q.push then
    match slotOfCmd r.s c.serial with
    | some (_, p) => (some ((List.range p.length).map fun i => ((tabFind p.arrived i).getD 0, false)), r)
    | none => (none, r)
  else readRange q.src (collBytes c.opcode q) r

/-- Every push contribution has arrived whole. -/
def pushReady (s : State) (c : Cmd) : Bool :=
  !(collReq c.words).push || (match slotOfCmd s c.serial with | some (_, p) => decide (p.passed = p.length) | none => false)

/-- A run on the copy unit of the die of the polder's lowest-numbered pseudo-channel (R201). -/
def collRun (c : Cmd) (s : State) : Run :=
  { runOf c s with unit := 0xE0 + (maskBits 256 (polderOf s c.polder).hbm.toNat).headD 0 / 64, engine := 6 }

/-- Gathers the contributions in rank order; the runs are kept for their faults. The state is threaded through. -/
def gatherAll : List Cmd → State → List (Option CellBytes × Run) × State
  | [], s => ([], s)
  | c :: rest, s =>
    let q := collReq c.words
    let (b, r) := contribution c (collRun c s)
    let r := if collReceives q && !r.stopped then
        checkWhole q.dst (if c.opcode = 0xC2 then 0 else collOutput c.opcode q) .write 0x3 (fun _ => false) r
      else r
    let (l, s) := gatherAll rest r.s
    ((b, r) :: l, s)

/-- Publishes the output to every member that receives it and counts it; the runs and the state after it. -/
def publishAll (out : CellBytes) : List Run → State → List Run × State
  | [], s => ([], s)
  | r :: rest, s =>
    let q := collReq r.cmd.words
    let r := { r with s := s }
    let r := if collReceives q then
        let r := writeRange q.dst out r
        if r.stopped then r
        else if q.cntMode = 1 then { r with s := raiseCounter r.cmd.tcx q.cnt out.length r.s }
        else if q.cntMode = 2 then { r with s := raiseCounter r.cmd.tcx q.cnt 1 r.s } else r
      else r
    let (l, s) := publishAll out rest r.s
    (r :: l, s)

/-- Digest records of the members: INPUT is the member's contribution, OUTPUT what was written at its DST (R317, R320). [DEDUCED, log 36] -/
def digestAll (st : Status) (ovf : Bool) (output : List Byte) : List (Run × CellBytes) → State → List (Run × Bool) × State
  | [], s => ([], s)
  | (r, input) :: rest, s =>
    let out := if collReceives (collReq r.cmd.words) then output else []
    let (r, d) := writeDigest false { status := st, overflow := ovf, input := input.map Prod.fst, output := out } { r with s := s }
    let (l, s) := digestAll st ovf output rest r.s
    ((r, d) :: l, s)

/-- Waits of the members for lines and flash data, from the state before the group ran. -/
def groupWait (runs : List Run) (s : State) : State :=
  runs.foldl (fun s r => if runBlocked r then waitForLines s r else s) s

/-- A full group whose contributions are all there runs to its end, or waits for lines (R201). -/
def runGroup (key : Nat) (g : Group) (s : State) : State :=
  let cmds := (g.members.mergeSort fun a b => a.rank ≤ b.rank).filterMap fun m => s.q.cmds.find? fun c => c.serial = m.serial
  let (parts, s1) := gatherAll cmds s
  let runs := parts.map (·.2)
  match runs.find? fun r => r.stopped with
  | some r =>
    let s := { s1 with q := s.q, copy := s.copy, coh := s.coh }
    loseMember r.cmd.serial { status := r.status, faultDva := r.faultDva, faultTiles := r.faultTiles } s
  | none =>
    if runs.any runBlocked then groupWait runs s
    else
      let data := parts.map fun p => p.1.getD []
      let (out, ovf, value) := collCombine g.opcode ((cmds.head?.map (·.words)).getD []) data
      let (runs, s2) := publishAll out runs s1
      let bad := out.any Prod.snd
      let st := statusOf (runs.map (·.status) ++ [statusIf bad .poisoned, statusIf ovf .ofaOverflow])
      let st := runs.foldl (fun st r => endStatus s2 r.cmd (fatalStatus s2 r.cmd st)) st
      let (ends, s3) := digestAll st ovf (out.map Prod.fst) (runs.zip data) s2
      if ends.any fun e => runBlocked e.1 then groupWait (ends.map (·.1)) s
      else
        let s := dropGroup key s3
        let s := if st = .ok then bumpCopy (key / 2 ^ 32) 0x30 ends.length s else s
        let hosts := (ends.flatMap fun e => e.1.cmd.zeroReads).dedup
        ends.foldl (fun s e =>
          let r := e.1
          let res : Result := { status := st, value := value, faultDva := r.faultDva, faultTiles := r.faultTiles, digested := e.2 }
          if hosts = [] then finish r.cmd.serial res s
          else
            let s := modCmd r.cmd.serial (fun c => { c with zeroReads := hosts, outcome := some res, decided := true }) s
            hosts.foldl (fun s h => emit (.zeroRead r.cmd.serial h) s) s) s

/-- Groups that can go on do. -/
def stepGroups (s : State) : State :=
  s.copy.groups.foldl (fun s e =>
    match tabFind s.copy.groups e.1 with
    | none => s
    | some g =>
      let cmds := s.q.cmds.filter fun c => g.members.any fun m => m.serial = c.serial
      if g.full && cmds.all fun c => pushReady s c && c.lines = [] && c.outcome.isNone then runGroup e.1 g s else s) s

/-! ### Push bursts that stop (R198) -/

/-- The passed chunks of a copy that have not landed yet are written. -/
def landPassed : Nat → Nat → State → State
  | 0, _, s => s
  | fuel + 1, serial, s =>
    let before := tabGet s.copy.progress 0 serial
    let s' := chunkLand serial [] s
    if tabGet s'.copy.progress 0 serial = before then s else landPassed fuel serial s'

/-- `PUSH_BURST_EXPIRY`: the partial chunk is discarded and the command completes `STALE_BURST` (R198, R204). -/
def burstExpiry (ix slot : Nat) (s : State) : State :=
  match tabFind s.copy.slots (slotKey ix slot) with
  | none => s
  | some p =>
    if !p.timer || s.q.intakeHeld then s
    else match s.q.cmds.find? fun c => c.serial = p.serial with
      | none => s
      | some c =>
        let part := p.arrived.any fun e => e.1 ≥ p.passed
        let s := if part then bumpCopy c.polder 0x20 1 s else s
        let s := landPassed (p.passed / 4096 + 2) p.serial s
        loseMember p.serial { status := .staleBurst, value := tabGet s.copy.progress 0 p.serial } s

end Sys2Proof.Machine
end

