-- ==== Sys2Proof/Machine/Tiers.lean ====
section
/-!
DEFINITION. Tiers and placement (chapter 5): the row cache and its sketch (R224 to R227), promotion (R94 to R97), host-tier
windows (R98 to R100) and the tier counters (R108).
-/

namespace Sys2Proof.Machine

/-! ### The row cache (R224) and the sketch (R225) -/

def cacheSets (p : Polder) : Nat := 87381 * p.rowCacheUnits

def cacheKey (s : State) (p line : Nat) : Nat :=
  p * 2 ^ 24 + Config.rowSet (polderOf s p).rowKey line % max 1 (cacheSets (polderOf s p))

def cacheSet (s : State) (p line : Nat) : List CacheWay := tabGet s.tbl.cache [] (cacheKey s p line)

def isCached (s : State) (p line : Nat) : Bool := (cacheSet s p line).any fun w => w.line = line

def putCacheSet (s : State) (p line : Nat) (ways : List CacheWay) : State :=
  { s with tbl := { s.tbl with cache := tabPut s.tbl.cache [] (cacheKey s p line) ways } }

/-- The key of the sketch's counter for a row key in row `i` of the sketch. -/
def sketchKey (s : State) (p i key : Nat) : Nat :=
  (p * 4 + i) * 2 ^ 24 + Config.sketchIndex (polderOf s p).rowKey i key % max 1 (65536 * (polderOf s p).rowCacheUnits)

/-- The estimate of a row key: the smallest of its four counters. -/
def estimate (s : State) (p key : Nat) : Nat :=
  ((List.range 4).map fun i => tabGet s.tbl.sketch 0 (sketchKey s p i key)).foldl min 255

/-- An eligible read increments one counter in each row of the sketch. -/
def sketchAdd (p key : Nat) (s : State) : State :=
  let t := (List.range 4).foldl (fun t i => tabModify t 0 (sketchKey s p i key) fun c => min 255 (c + 1)) s.tbl.sketch
  { s with tbl := { s.tbl with sketch := t, increments := tabModify s.tbl.increments 0 p (· + 1) } }

/-- `SKETCH_HALVING`: at 16 × 65,536 × u increments every counter is halved (R225). -/
def sketchHalve (p : Nat) (s : State) : State :=
  let u := (polderOf s p).rowCacheUnits
  if u = 0 ∨ tabGet s.tbl.increments 0 p < 16 * 65536 * u then s
  else
    let s := { s with tbl := { s.tbl with
      sketch := tabMap s.tbl.sketch 0 fun k c => if k / 2 ^ 24 / 4 = p then c / 2 else c
      increments := tabPut s.tbl.increments 0 p 0 } }
    bumpLookup p 0x30 1 s

/-- Whether a full set's least-recently-used unpinned way exists, and its snapshot; a way that is not VALID has snapshot 0 (R226). -/
def cacheVictim (ways : List CacheWay) : Option Nat :=
  if ways.length < 8 then some 0 else (ways.find? fun w => !w.pin).map (·.snapshot)

/-- Puts a line into its set in place of the victim. -/
def cacheInsert (p line snapshot : Nat) (pin : Bool) (s : State) : Option State :=
  let ways := cacheSet s p line
  if ways.any fun w => w.line = line then
    some (putCacheSet s p line ((ways.filter fun w => w.line ≠ line) ++
      (ways.filter fun w => w.line = line).map fun w => { w with pin := w.pin || pin }))
  else if ways.length < 8 then some (putCacheSet s p line (ways ++ [⟨line, pin, snapshot⟩]))
  else match ways.find? fun w => !w.pin with
    | none => none
    | some v => some (bumpLookup p 0x28 1 (putCacheSet s p line ((ways.filter fun w => w.line ≠ v.line) ++ [⟨line, pin, snapshot⟩])))

/-- A read of a row through the row cache: hits refresh, and an eligible row that misses is admitted when its estimate
exceeds the largest victim snapshot by more than the bias (R226). -/
def cacheRead (p : Nat) (key : Nat) (lines : List Nat) (eligible : Bool) (bias : Nat) (s : State) : State :=
  if (polderOf s p).rowCacheUnits = 0 then s
  else
    let s := if eligible then sketchAdd p key s else s
    let e := estimate s p key
    let hits := lines.filter fun l => isCached s p l
    let misses := lines.filter fun l => !isCached s p l
    let s := bumpLookup p 0x08 hits.length (bumpLookup p 0x10 misses.length s)
    let s := hits.foldl (fun s l =>
      let ways := cacheSet s p l
      putCacheSet s p l ((ways.filter fun w => w.line ≠ l) ++ (ways.filter fun w => w.line = l).map fun w => { w with snapshot := e })) s
    if !eligible || misses = [] then s
    else
      let victims := misses.map fun l => cacheVictim (cacheSet s p l)
      let worst := (victims.map fun v => v.getD 0).foldl max 0
      if victims.all (·.isSome) && decide (e > worst + bias) then
        bumpLookup p 0x18 1 (misses.foldl (fun s l => (cacheInsert p l e false s).getD s) s)
      else bumpLookup p 0x20 1 s

/-! ### Counting reads (R94, R108) -/

/-- A block of the polder has a copy in the promotion pool. -/
def isPromoted (s : State) (tpa : Nat) : Bool := (tabFind s.tier.promoted (tpa / 65536)).any (·.installed)

/-- Counter of Table 5.6 for a read: the tier that serves it, and how many reads (pages on flash). -/
def tierServed (s : State) (tpa n : Nat) (cached : Bool) : Nat × Nat :=
  if cached then (0x00, 1)
  else match regionOf tpa with
    | .row => (0x00, 1)
    | .hbm => (0x08, 1)
    | .dram => if isPromoted s tpa then (0x08, 1) else (0x10, 1)
    | .flash => if isPromoted s tpa then (0x08, 1) else (0x18, (tpa + n - 1) / 16384 + 1 - tpa / 16384)
    | _ => (0x20, 1)

/-- Segment hints whose rows may enter the row cache: NONE, T0, T0_T1 (R226). -/
def hintCaches (hint : Nat) : Bool := decide (hint = 0 ∨ hint = 1 ∨ hint = 3)

/-- One read of `n` bytes by an engine or crown core as placement sees it: row cache, sampling for promotion, tier counter.
`bias` is the table's ADMIT_BIAS for a lookup or `SEQ_POOL` row. -/
def noteRead (p hint tpa n : Nat) (bias : Option Nat) (s : State) : State :=
  if n = 0 then s
  else
    let lines := linesOf tpa n
    let region := regionOf tpa
    let medium := decide (region = .hbm ∨ region = .dram ∨ region = .flash)
    let cached := medium && !(polderOf s p).rowCacheUnits = 0 && lines.all fun l => isCached s p l
    let (counter, count) := tierServed s tpa n cached
    let s := bumpTier p counter count s
    let s := if medium && decide (hint ≠ 4) then
        cacheRead p (lineOf tpa) lines (hintCaches hint) (if hint = 1 ∨ hint = 3 then bias.getD 4 else 4) s
      else s
    if (hint = 2 ∨ hint = 3) ∧ (region = .dram ∨ region = .flash) then
      let s := { s with tier := { s.tier with sample := tabModify s.tier.sample 0 (tpa / 65536) (· + 1) } }
      if isPromoted s tpa then { s with tier := { s.tier with promoLru := touch s.tier.promoLru (tpa / 65536) } } else s
    else s

/-! ### The promotion pool (R94, R95) -/

/-- Blocks that the promotion pool of a polder holds. -/
def poolBlocks (p : Polder) : Nat := p.promoPool * 16384

def promotedOf (s : State) (p : Nat) : List (Nat × Promoted) := s.tier.promoted.filter fun e => e.2.polder = p

/-- Drops a block's copy. -/
def dropPromoted (block : Nat) (s : State) : State :=
  { s with tier := { s.tier with promoted := tabErase s.tier.promoted block, promoLru := s.tier.promoLru.filter (· ≠ block) } }

/-- Makes room for one block: free space, or the least-recently-read unpinned block (R94). -/
def promoRoom (p : Nat) (s : State) : Option State :=
  let mine := (promotedOf s p).filter fun e => e.2.installed
  if mine.length < poolBlocks (polderOf s p) then some s
  else match s.tier.promoLru.find? fun b => mine.any fun e => e.1 = b && !e.2.pin with
    | none => none
    | some b => some (bumpTier p 0x30 1 (dropPromoted b s))

/-- Installs a block in the promotion pool. -/
def installBlock (p block : Nat) (pin : Bool) (s : State) : Option State :=
  (promoRoom p s).map fun s => bumpTier p 0x28 1
    { s with tier := { s.tier with promoted := tabInsert s.tier.promoted block { pin := pin, installed := true, polder := p }
                                   promoLru := touch s.tier.promoLru block } }

/-- `PROMOTION_SAMPLE_PERIOD`: blocks with 64 reads or more in the period begin to be copied (R94). -/
def samplePeriod (p : Nat) (s : State) : State :=
  let mine := s.tier.sample.filter fun e => polderAt s (e.1 * 65536) = some p
  let hot := (mine.filter fun e => e.2 ≥ 64 && (tabFind s.tier.promoted e.1).isNone).map (·.1)
  let hot := if poolBlocks (polderOf s p) = 0 then [] else hot
  { s with tier := { s.tier with
      sample := s.tier.sample.filter fun e => polderAt s (e.1 * 65536) ≠ some p
      promoted := hot.foldl (fun t b => tabInsert t b { pin := false, installed := false, polder := p }) s.tier.promoted } }

/-- `PROMOTION_COPY_COMPLETE`: a copy that no write has cancelled is installed (R95). -/
def promotionDone (tpa : Nat) (s : State) : State :=
  let block := tpa / 65536
  match tabFind s.tier.promoted block with
  | none => s
  | some b => if b.installed then s else
    let s := dropPromoted block s
    (installBlock b.polder block false s).getD s

/-! ### TIER_PROMOTE and TIER_DEMOTE (R96, R97) -/

/-- TPA of each block of a mapped DVA range. -/
def blockTpas (s : State) (t dva blocks : Nat) : List (Option Nat) :=
  (List.range blocks).map fun i => match checkByte s t (dva + i * 65536) .read with
    | .at _ tpa => some tpa
    | _ => none

/-- The lines of a block. -/
def blockLines (tpa : Nat) : List Nat := (List.range 1024).map fun i => tpa / 64 + i

/-- A block has a copy in the target tier, or lies in it or above it. -/
def inTier (s : State) (p target tpa : Nat) : Bool :=
  match regionOf tpa with
  | .row => true
  | .hbm => if target = 2 then true else (blockLines tpa).all fun l => isCached s p l
  | .dram | .flash => if target = 2 then isPromoted s tpa else (blockLines tpa).all fun l => isCached s p l
  | _ => false

/-- Pinned blocks of the promotion pool, or pinned lines of the row cache, of a polder. -/
def pinnedCount (s : State) (p target : Nat) : Nat :=
  if target = 2 then ((promotedOf s p).filter fun e => e.2.pin).length
  else ((s.tbl.cache.filter fun e => e.1 / 2 ^ 24 = p).map fun e => (e.2.filter (·.pin)).length).sum

/-- What pinning one more block adds stays within 75 % of the capacity, inclusive. -/
def pinFits (s : State) (p target : Nat) : Bool :=
  if target = 2 then decide (4 * (pinnedCount s p 2 + 1) ≤ 3 * poolBlocks (polderOf s p))
  else decide (4 * (pinnedCount s p 1 + 1024) ≤ 3 * (699048 * (polderOf s p).rowCacheUnits))

/-- Promotes one block; none when it would exceed the pin limit or finds no unpinned victim. -/
def promoteBlock (p target tpa : Nat) (pin : Bool) (s : State) : Option State :=
  if target = 2 then
    match tabFind s.tier.promoted (tpa / 65536) with
    | some b =>
      if b.installed then
        if pin && !b.pin then
          if pinFits s p 2 then some { s with tier := { s.tier with promoted := tabInsert s.tier.promoted (tpa / 65536) { b with pin := true } } }
          else none
        else some s
      else if pin && !pinFits s p 2 then none
      else installBlock p (tpa / 65536) pin (dropPromoted (tpa / 65536) s)
    | none => if pin && !pinFits s p 2 then none else installBlock p (tpa / 65536) pin s
  else if (polderOf s p).rowCacheUnits = 0 then none
  else if pin && !pinFits s p 1 then none
  else (blockLines tpa).foldl (fun (acc : Option State) l =>
    acc.bind fun s => cacheInsert p l (estimate s p l) pin s) (some s)

/-- Blocks of the range that a promotion to the target copies: backed below the target tier. -/
def promotable (target tpa : Nat) : Bool :=
  match regionOf tpa with
  | .dram | .flash => true
  | .hbm => decide (target = 1)
  | _ => false

/-- Promotes the blocks of a range that may be promoted, and says whether the tier had no room for one. -/
def promoteAll (p target : Nat) (pin : Bool) (tpas : List Nat) (s : State) : State × Bool :=
  tpas.foldl (fun (acc : State × Bool) tpa =>
    if promotable target tpa then
      match promoteBlock p target tpa pin acc.1 with
      | some s => (s, acc.2)
      | none => (acc.1, true)
    else acc) (s, false)

/-- TARGET, DVA and BLOCKS of a tier command (R97). -/
def tierFields (ws : List Word) : Bool :=
  decide ((field ws 3 2 0 = 1 ∨ field ws 3 2 0 = 2) ∧ word64 ws 4 % 65536 = 0 ∧ 1 ≤ wordAt ws 6 ∧ wordAt ws 6 ≤ 0x1000000
    ∧ word64 ws 4 + wordAt ws 6 * 65536 ≤ 2 ^ 52)

/-- The range of a tier command is checked whole for R. -/
def tierRun (c : Cmd) (s : State) : Run := checkWhole (word64 c.words 4) (wordAt c.words 6 * 65536) .read 0x2 (fun _ => false) (runOf c s)

/-- `TIER_PROMOTE`. [DESIGN CHOICE, log 60] -/
def tierPromoteBody (c : Cmd) (s : State) : State :=
  let target := field c.words 3 2 0
  if tierFields c.words = false then finishWith c .invalid 0 s
  else
    let r := tierRun c s
    if r.stopped then concludeRun r {} s
    else
      let tpas := (blockTpas s c.tcx (word64 c.words 4) (wordAt c.words 6)).filterMap id
      let done := promoteAll c.polder target (flag c.words 3 3) tpas r.s
      let held := (tpas.filter fun tpa => inTier done.1 c.polder target tpa).length
      finishWith c (if done.2 then .promotePartial else .ok) held done.1

/-- Takes the copy of one block, or only its pin, from a tier. -/
def demoteBlock (p target : Nat) (pinOnly : Bool) (s : State) (tpa : Nat) : State :=
  if target = 2 then
    match tabFind s.tier.promoted (tpa / 65536) with
    | none => s
    | some b =>
      if pinOnly then { s with tier := { s.tier with promoted := tabInsert s.tier.promoted (tpa / 65536) { b with pin := false } } }
      else if b.installed then bumpTier p 0x30 1 (dropPromoted (tpa / 65536) s) else dropPromoted (tpa / 65536) s
  else
    let had := (blockLines tpa).any fun l => isCached s p l
    let s := (blockLines tpa).foldl (fun s l =>
      let ways := cacheSet s p l
      if ways.any fun w => w.line = l then
        putCacheSet s p l (if pinOnly then ways.map fun w => if w.line = l then { w with pin := false } else w
          else ways.filter fun w => w.line ≠ l)
      else s) s
    if had && !pinOnly then bumpTier p 0x30 1 s else s

/-- `TIER_DEMOTE`: copies and pins, or only pins, are removed; always `OK` once the range is mapped. [DESIGN CHOICE, log 60] -/
def tierDemoteBody (c : Cmd) (s : State) : State :=
  let target := field c.words 3 2 0
  if tierFields c.words = false then finishWith c .invalid 0 s
  else
    let r := tierRun c s
    if r.stopped then concludeRun r {} s
    else
      let tpas := (blockTpas s c.tcx (word64 c.words 4) (wordAt c.words 6)).filterMap id
      let s' := tpas.foldl (demoteBlock c.polder target (flag c.words 3 3)) r.s
      finishWith c .ok (tpas.filter fun tpa => promotable target tpa && inTier s' c.polder target tpa).length s'

/-- `TIER_STATS` (R108, Table 5.6). -/
def tierStatsBody (c : Cmd) (s : State) : State :=
  statsRun c (counterBytes (polderOf s c.polder).tierCnt 17) (fun p => { p with tierCnt := [] }) s

/-! ### Host-tier windows (R98, R99) -/

def windowNumber (ws : List Word) : Nat := field ws 3 11 0

/-- The descriptor of Table 5.4 in words 4 to 7. -/
def windowRequest (ws : List Word) : Window :=
  { valid := flag ws 4 31, w := flag ws 4 30, r := flag ws 4 29
    owner := BitVec.ofNat 12 (field ws 4 19 8), hid := BitVec.ofNat 8 (field ws 4 7 0)
    hpaBase := BitVec.ofNat 52 (word64 ws 5 / 4096), length := BitVec.ofNat 16 (field ws 7 15 0) }

/-- A source on the management sluice, or on the sluice of a HID with ADMIN = 1. -/
def windowRights (s : State) (src : Src) (hid : Nat) : Bool :=
  srcIsMgmt s src || ((hitOf s (srcHid s src)).admin && decide (srcHid s src = hid))

/-- The write clears VALID, removes a right, shortens the window or moves it (R99). -/
def windowNarrows (old new : Window) : Bool :=
  old.valid && (!new.valid || (old.w && !new.w) || (old.r && !new.r) || decide (new.length.toNat < old.length.toNat)
    || decide (new.owner ≠ old.owner ∨ new.hid ≠ old.hid ∨ new.hpaBase ≠ old.hpaBase))

/-- Some host-tier read through the window is outstanding. -/
def windowBusy (s : State) (n : Nat) : Bool := s.tier.thReads.any fun e => e.2.1 = n || e.2.2.2.2 = n + 1

/-- `HTW_WRITE`: a narrowing write completes once no access goes on under the old descriptor. [DESIGN CHOICE, log 60] -/
def htwWriteBody (c : Cmd) (s : State) : State :=
  let n := windowNumber c.words
  let d := windowRequest c.words
  let owner := tcxOf s d.owner.toNat
  if windowRights s c.src d.hid.toNat = false then finishWith c .rightsFault 0 s
  else if d.valid ∧ (d.length = 0 ∨ d.length.toNat > 0x8000 ∨ owner.state = .free
      ∨ polderBit (hitOf s d.hid.toNat) owner.polder = false) then finishWith c .invalid 0 s
  else
    let narrow := windowNarrows (windowOf s n) d
    let s := { s with tier := { s.tier with windows := tabPut s.tier.windows {} n d } }
    if narrow && windowBusy s n then modCmd c.serial (fun c => { c with phase := 1, decided := true }) s
    else finishWith c .ok 0 s

/-- `HTW_READ` (R377). -/
def htwReadBody (c : Cmd) (s : State) : State :=
  let d := windowOf s (windowNumber c.words)
  if windowRights s c.src d.hid.toNat = false then finishWith c .rightsFault 0 s
  else
    let w0 := (if d.valid then 2 ^ 31 else 0) + (if d.w then 2 ^ 30 else 0) + (if d.r then 2 ^ 29 else 0) + d.owner.toNat * 256 + d.hid.toNat
    finish c.serial { value := w0 + d.length.toNat * 2 ^ 32, faultDva := d.hpaBase.toNat } s

end Sys2Proof.Machine
end

