-- ==== Sys2Proof/Machine/Tables.lean ====
section
/-!
DEFINITION. Tables and their versions (R210 to R213, R228 to R233), and how one row reaches an engine: delivered, replaced
by a fallback, or still awaited (R102 to R105, R214, R215).
-/

namespace Sys2Proof.Machine

/-! ### Row formats (Table 11.1) -/

/-- Bytes of a row. -/
def rowBytes (fmt width : Nat) : Nat :=
  match fmt with
  | 0 => 4 * width
  | 1 => 2 * width
  | 2 | 3 => width
  | 4 => 4 + width
  | _ => 4 + (width + 1) / 2

/-- A nibble of an INT4 element: element i lies in byte i / 2, the even one low (R210). -/
def nibbleAt (b : CellBytes) (i : Nat) : Nat × Bool :=
  let e := elemAt b (i / 2) 1
  (if i % 2 = 0 then e.1 % 16 else e.1 / 16, e.2)

/-- Elements of a row with their poison (R210): an integer row's element is SCALE × the integer, exactly. -/
def rowVals (fmt width : Nat) (b : CellBytes) : List (Val × Bool) :=
  let plain := fun (f : Fp) (n : Nat) => (List.range width).map fun i => let e := elemAt b i n; (fpDecode f e.1, e.2)
  let scaled := fun (w : Nat) (get : Nat → Nat × Bool) =>
    let sc := elemAt b 0 4
    (List.range width).map fun i => let e := get i; (mulVal (fpDecode fp32 sc.1) (intVal (signedBits w e.1)), sc.2 || e.2)
  match fmt with
  | 0 => plain fp32 4
  | 1 => plain bf16 2
  | 2 => plain fpE4M3 1
  | 3 => plain fpE5M2 1
  | 4 => scaled 8 fun i => elemAt (b.drop 4) i 1
  | _ => scaled 4 fun i => nibbleAt (b.drop 4) i

/-- Bytes of a replica entry: RS of R215. -/
def replicaBytes (width : Nat) : Nat := 16 * ((12 + (width + 1) / 2 + 15) / 16)

/-- Home slot of a row in a replica region (R215). -/
def replicaHome (log2 row : Nat) : Nat := (row * 0x9E3779B97F4A7C15 % 2 ^ 64) / 2 ^ (64 - log2)

/-! ### Version blocks (Table 11.2, R213) -/

/-- Every byte of a DVA range is mapped with R. -/
def rangeMapped (s : State) (t dva len : Nat) : Bool :=
  decide (dva + len ≤ 2 ^ 52) && (checkRange s t dva len .read).all fun p => match p.2.2 with | .at _ _ => true | _ => false

/-- Every byte of a DVA range is mapped with R in the HBM region. -/
def rangeHbm (s : State) (t dva len : Nat) : Bool :=
  decide (dva + len ≤ 2 ^ 52) && (checkRange s t dva len .read).all fun p => match p.2.2 with
    | .at _ tpa => decide (regionOf tpa = .hbm)
    | _ => false

/-- The version that words 5 to 12 describe. -/
def versionBlock (ws : List Word) (number : Nat) : Version :=
  { number := number, base := word64 ws 5, rowsM1 := word64 ws 7
    defValid := flag ws 10 31, dflt := word64 ws 9 % 2 ^ 52
    replValid := flag ws 12 31, replLog2 := field ws 12 24 20, repl := word64 ws 11 % 2 ^ 52 }

/-- Alignment of the DVAs of a version block, and R213. -/
def versionOk (s : State) (t fmt width : Nat) (v : Version) : Bool :=
  decide (v.base % 8 = 0)
    && (if v.defValid then decide (v.dflt % 8 = 0) && rangeMapped s t v.dflt (rowBytes fmt width) else true)
    && (if v.replValid then decide (v.repl % 16 = 0 ∧ 10 ≤ v.replLog2 ∧ v.replLog2 ≤ 28)
          && rangeHbm s t v.repl (2 ^ v.replLog2 * replicaBytes width) else true)

/-- BASE + rows × STRIDE × 8 stays within the DVA space (R212). -/
def rowsFit (v : Version) (stride : Nat) : Bool := decide (v.base + (v.rowsM1 + 1) * (stride * 8) ≤ 2 ^ 52)

def tableKey (tcx table : Nat) : Nat := 64 * tcx + table

def putTable (key : Nat) (t : Table) (s : State) : State := { s with tbl := { s.tbl with tables := tabInsert s.tbl.tables key t } }

def dropTable (key : Nat) (s : State) : State := { s with tbl := { s.tbl with tables := tabErase s.tbl.tables key } }

/-- Gives the work pool that a version's overlay takes back to its polder. -/
def freeOverlay (polder : Nat) (v : Version) (s : State) : State :=
  if v.pool = 0 then s else modPolder polder (fun p => { p with workUsed := p.workUsed - v.pool }) s

/-- Discards the open version of a table and counts it (Table 11.5, Table 11.8). -/
def discardOpen (key : Nat) (s : State) : State :=
  match tabFind s.tbl.tables key with
  | none => s
  | some t => match t.opened with
    | none => s
    | some v =>
      let p := (tcxOf s (key / 64)).polder
      bumpLookup p 0x48 1 (freeOverlay p v (putTable key { t with opened := none } s))

/-! ### TABLE_DEFINE (R211, R212) -/

/-- [DEDUCED, log 34] -/
def tableDefineBody (c : Cmd) (s : State) : State :=
  let ws := c.words
  let op := field ws 3 31 28
  let key := tableKey c.tcx (field ws 3 21 16)
  if op = 1 then
    let clear := decide (field ws 3 15 12 = 0) && (ws.drop 4).all fun w => decide (w = 0)
    match tabFind s.tbl.tables key with
    | none => finishWith c .invalid 0 s
    | some t =>
      if clear = false ∨ t.destroying.isSome then finishWith c .invalid 0 s
      else
        let s := discardOpen key s
        let s := match tabFind s.tbl.tables key with
          | some t => putTable key { t with destroying := some c.serial } s
          | none => s
        modCmd c.serial (fun c => { c with phase := 1, decided := true }) s
  else
    let fmt := field ws 3 15 12
    let stride := field ws 4 31 22
    let width := field ws 4 10 0
    let v := versionBlock ws 1
    if op ≠ 0 ∨ (tabFind s.tbl.tables key).isSome ∨ s.tbl.tables.length ≥ 8192 ∨ fmt > 5
        ∨ width < 4 ∨ width > 1024 ∨ stride < 1 ∨ stride > 512 ∨ rowBytes fmt width > stride * 8
        ∨ rowsFit v stride = false ∨ versionOk s c.tcx fmt width v = false then finishWith c .invalid 0 s
    else
      finishWith c .ok 1 (putTable key { fmt := fmt, width := width, stride := stride, bias := field ws 4 21 18, current := v } s)

/-! ### TABLE_REFRESH_BEGIN (R229) -/

/-- The overlay of a version waits to be merged. -/
def unmerged (v : Version) : Bool := v.delta && !v.merged

/-- Bytes of an overlay: ⌈2 × rows × (STRIDE × 8 + 16) ÷ 2^20⌉ MiB. -/
def overlayBytes (rows stride : Nat) : Nat := (2 * rows * (stride * 8 + 16) + mib - 1) / mib * mib

/-- [DEDUCED, log 34] -/
def refreshBeginBody (c : Cmd) (s : State) : State :=
  let ws := c.words
  let mode := field ws 3 31 28
  let key := tableKey c.tcx (field ws 3 21 16)
  let rows := field ws 4 22 0
  match tabFind s.tbl.tables key with
  | none => finishWith c .invalid 0 s
  | some t =>
    let v := versionBlock ws t.next
    let delta := decide (mode = 1)
    if t.destroying.isSome ∨ poolBytes (polderOf s c.polder) = 0 ∨ mode > 1 ∨ (delta ∧ (rows < 1 ∨ rows > 4194304)) ∨ (!delta ∧ rows ≠ 0) ∨ t.opened.isSome
        ∨ rowsFit v t.stride = false ∨ versionOk s c.tcx t.fmt t.width v = false ∨ (delta ∧ v.base ≠ t.current.base) then
      finishWith c .invalid 0 s
    else if delta ∧ overlayBytes rows t.stride > poolBytes (polderOf s c.polder) then finishWith c .invalid 0 s
    else if (delta ∧ (t.retiring ≠ [] ∨ unmerged t.current)) ∨ t.retiring.length > 1 then finishWith c .held 0 s
    else if delta then
      let need := overlayBytes rows t.stride
      if (polderOf s c.polder).workUsed + need > poolBytes (polderOf s c.polder) then waitForPool c s
      else
        let s := modPolder c.polder (fun p => { p with workUsed := p.workUsed + need }) s
        finishWith c .ok t.next (putTable key { t with
          next := t.next + 1, opened := some { v with delta := true, overlayCap := rows, merged := false, pool := need } } s)
    else finishWith c .ok t.next (putTable key { t with next := t.next + 1, opened := some v } s)

/-! ### TABLE_WRITE (R230) -/

/-- The 8-byte entries of an index array with their poison. -/
def indexEntries (b : CellBytes) (n : Nat) : List (Nat × Bool) := (List.range n).map fun i => elemAt b i 8

/-- An index with non-zero bits 63:40, or not below the version's rows (R222). -/
def outOfRange (v : Version) (ix : Nat) : Bool := decide (ix > v.rowsM1)

/-- [DEDUCED, log 34] -/
def tableWriteBody (c : Cmd) (s : State) : State :=
  let ws := c.words
  let key := tableKey c.tcx (field ws 3 31 26)
  let count := field ws 8 20 0
  match tabFind s.tbl.tables key with
  | none => finishWith c .invalid 0 s
  | some t => match t.opened with
    | none => finishWith c .invalid 0 s
    | some v =>
      if count < 1 ∨ count > 1048576 ∨ v.delta = false then finishWith c .invalid 0 s
      else
        let step := t.stride * 8
        let size := rowBytes t.fmt t.width
        let (src, r) := readRange (word64 ws 4) ((count - 1) * step + size) (runOf c s)
        let (ixs, r) := readRange (word64 ws 6) (count * 8) r
        match src, ixs with
        | some rows, some ib =>
          if runBlocked r then waitForLines s r
          else
            let indices := indexEntries ib count
            let bad := (rows.any Prod.snd) || (ib.any Prod.snd)
            let outside := indices.any fun e => outOfRange v e.1
            let overlay := indices.zipIdx.foldl (fun o e =>
              tabInsert o e.1.1 (((rows.drop (e.2 * step)).take size).map Prod.fst)) v.overlay
            if bad || outside then
              concludeRun { r with status := statusOf [r.status, statusIf outside .indexRange, statusIf bad .poisoned] } {} s
            else if overlay.length > v.overlayCap then finishWith c .invalid 0 s
            else concludeRun { r with s := putTable key { t with opened := some { v with overlay := overlay } } r.s }
              { value := (indices.map Prod.fst).eraseDups.length } s
        | _, _ => concludeRun r {} s

/-! ### TABLE_REFRESH_COMMIT (R231) and retirement (R232) -/

/-- The open version of a table becomes current and the old one retiring. -/
def flipTable (count : Option Nat) (key : Nat) (s : State) : State :=
  match tabFind s.tbl.tables key with
  | none => s
  | some t => match t.opened with
    | none => s
    | some v => bumpLookup (tcxOf s (key / 64)).polder 0x40 1
        (putTable key { t with current := v, opened := none, retiring := t.retiring ++ [{ t.current with countTo := count }] } s)

/-- [DEDUCED, log 34] -/
def refreshCommitBody (c : Cmd) (s : State) : State :=
  let ws := c.words
  let op := field ws 3 31 28
  let tables := (maskBits 64 (word64 ws 4)).map (tableKey c.tcx)
  let opened := fun k => (tabFind s.tbl.tables k).bind (·.opened)
  if op > 1 ∨ tables.any (fun k => (opened k).isNone) then finishWith c .invalid 0 s
  else if op = 1 then finishWith c .ok 0 (tables.foldl (fun s k => discardOpen k s) s)
  else if tables.any fun k => (opened k).any (·.lost) then
    finishWith c .stateLost 0 (tables.foldl (fun s k => discardOpen k s) s)
  else
    let count := if flag ws 3 7 then some (field ws 3 3 0) else none
    finishWith c .ok tables.length (tables.foldl (fun s k => flipTable count k s) s)

/-- Retiring versions without a pin retire: counted, their counter raised, their overlay freed (R228, R232). -/
def retireVersions (key : Nat) (t : Table) (s : State) : State :=
  let tcx := key / 64
  let p := (tcxOf s tcx).polder
  let gone := t.retiring.filter fun v => v.pins = []
  if gone = [] then s
  else
    let s := putTable key { t with retiring := t.retiring.filter fun v => v.pins ≠ [] } s
    gone.foldl (fun s v =>
      let s := bumpLookup p 0x50 1 (freeOverlay p v s)
      match v.countTo with
      | some cnt => raiseCounter tcx cnt 1 s
      | none => s) s

/-- The merge of a committed DELTA version starts once no version before it is left (R232). -/
def startMerge (key : Nat) (s : State) : State :=
  match tabFind s.tbl.tables key with
  | none => s
  | some t =>
    let starts := fun v : Version => unmerged v && !v.merging && t.retiring.all fun w => v.number ≤ w.number
    let go := fun v : Version => if starts v then { v with merging := true } else v
    putTable key { t with current := go t.current, retiring := t.retiring.map go } s

/-- Tables whose last pin has gone: versions retire, merges start, and a `DESTROY` completes (R212, R232). -/
def settleTables (s : State) : State :=
  s.tbl.tables.foldl (fun s e =>
    match tabFind s.tbl.tables e.1 with
    | none => s
    | some t =>
      let s := startMerge e.1 (retireVersions e.1 t s)
      match t.destroying with
      | none => s
      | some serial =>
        if t.current.pins = [] ∧ t.retiring.all (fun v => v.pins = []) then
          let s := freeOverlay (tcxOf s (e.1 / 64)).polder t.current s
          finish serial {} (dropTable e.1 s)
        else s) s

/-- The device writes bytes at a TPA, line by line, taking the lines back from hosts that hold them (R73, R75). -/
def deviceWrite (tpa : Nat) (data : CellBytes) (s : State) : State :=
  (byLine tpa data).foldl (fun s e =>
    let bytes := e.2.map fun b => (b.1, b.2.1)
    let poison := e.2.any (·.2.2)
    if regionOf tpa = .flash then (writeFlashLine e.1 bytes poison s).1
    else
      let mask := bytes.foldl (fun m b => m ||| BitVec.ofNat 64 (2 ^ b.1)) (0 : BitVec 64)
      let value := bytes.foldl (fun v b => v ||| BitVec.ofNat 512 (b.2.toNat * 2 ^ (8 * b.1))) (0 : BitVec 512)
      requestLine e.1 { op := .write 0, asker := .device, tpa := e.1 * 64, mask := mask, data := value, poison := poison } s) s

/-- Writes bytes at a DVA of a TCX, where it is mapped. -/
def deviceWriteDva (t dva : Nat) (data : CellBytes) (s : State) : State :=
  (pieces dva data.length).foldl (fun s p =>
    match checkByte s t p.1 .read with
    | .at _ tpa => deviceWrite tpa ((data.drop (p.1 - dva)).take p.2) s
    | .denied n => deviceWrite (segTpa (segOf s t n) p.1) ((data.drop (p.1 - dva)).take p.2) s
    | .unmapped => s) s

/-- The merged rows are written into the base and the overlay is freed. [DEDUCED, log 34] -/
def mergeRows (key : Nat) (t : Table) (v : Version) (s : State) : State :=
  let tcx := key / 64
  let p := (tcxOf s tcx).polder
  let s := v.overlay.foldl (fun s e =>
    deviceWriteDva tcx (v.base + e.1 * (t.stride * 8)) (e.2.map fun b => (b, v.overlayPoison.contains e.1)) s) s
  freeOverlay p v (bumpLookup p 0x58 v.overlay.length s)

/-- `OVERLAY_MERGE_END` (R232). -/
def mergeEnd (key : Nat) (s : State) : State :=
  match tabFind s.tbl.tables key with
  | none => s
  | some t =>
    match (tableVersions t).find? fun v => v.merging with
    | none => s
    | some v =>
      let done := fun w : Version => if w.number = v.number then
        { w with merging := false, merged := true, overlay := [], overlayPoison := [], pool := 0 } else w
      mergeRows key t v (putTable key { t with current := done t.current, retiring := t.retiring.map done } s)

/-- The work-pool state of a polder's tables is lost: open versions are lost, committed overlays read poisoned (R147, R232). -/
def loseTables (p : Nat) (s : State) : State :=
  let lose := fun v : Version => if unmerged v then { v with overlayPoison := v.overlay.map (·.1) } else v
  { s with tbl := { s.tbl with tables := s.tbl.tables.map fun e =>
      if (tcxOf s (e.1 / 64)).polder = p then
        (e.1, { e.2 with current := lose e.2.current, retiring := e.2.retiring.map lose
                         opened := e.2.opened.map fun v => if v.delta then { v with lost := true } else v })
      else e } }

/-- The pinned version of a table. -/
def pinnedVersion (t : Table) (number : Option Nat) : Option Version := number.bind fun n => (tableVersions t).find? fun v => v.number = n

/-! ### One item: delivered, replaced, or awaited (R102 to R105) -/

/-- Time in L1 until a link of a host-tier window has woken, in ticks of 40 ns (R414: the next slot plus 6 µs; port 16: 4 µs). [DEDUCED, log 50] -/
def wakeTicks (s : State) (ld : Nat) : Nat :=
  let l := linkAt s (ld / 16) (linkOfLd (portAt s (ld / 16)).width (ld % 16))
  if l.state ≠ .l1 then 0
  else if ld / 16 = 16 then 100
  else (800 - (s.time + 800 - l.origin.toNat / 40 % 800) % 800) % 800 + 150

/-- The spill point: deadline less reserve, in ticks (R101, R102). -/
def spillPoint (c : Cmd) (reserve : Nat) : Nat := c.origin + 25 * (hdrDeadline c.words - reserve)

/-- HIDs whose host-tier reads would come too late, decided when the command is dispatched (R103, Early). [DEDUCED, log 35] -/
def lateHosts (s : State) (c : Cmd) (reserve : Nat) : List Nat :=
  if !spills c then []
  else (s.q.bound.filter fun e => decide (s.time + wakeTicks s e.1 + 25 > spillPoint c reserve)).map (·.2)

/-- Marks the late hosts of a command at its first run. -/
def markLate (c : Cmd) (reserve : Nat) (s : State) : Cmd × State :=
  if c.phase ≠ 0 then (c, s)
  else
    let late := lateHosts s c reserve
    ({ c with lateHids := late }, modCmd c.serial (fun c => { c with lateHids := late }) s)

/-- Counter of Table 5.6 for an item that takes its fallback: too short, early or cut-off; none when it is fetched (R103). -/
def spillReason (s : State) (c : Cmd) (reserve dva n : Nat) : Option Nat :=
  if !spills c then none
  else if hdrDeadline c.words ≤ reserve then some 0x50
  else
    let at_ := (checkRange s c.tcx dva n .read).filterMap fun p => match p.2.2 with | .at _ tpa => some (tpa, p.2.1) | _ => none
    let missing := at_.flatMap fun p => missingT3 c p.1 p.2
    let late := at_.any fun p => regionOf p.1 = .host && c.lateHids.contains (windowOf s (windowIx p.1)).hid.toNat
    let owned := at_.any fun p => regionOf p.1 ≠ .host && (linesOf p.1 p.2).any fun l => lineDb s l && (hostOwner s l).isSome
    let awaited := at_.any fun p => windowAwaited s c p.1 p.2
    if late || missing.any (fun g => c.early.contains g) then some 0x48
    else if c.cut && (missing ≠ [] || owned || awaited) then some 0x40
    else none

/-- How an item reached its engine. -/
inductive Item1 where
  /-- the row's bytes; some of them are fill bytes (R60). -/
  | row (b : CellBytes) (part : Bool)
  /-- SCALE and elements of its INT4 replica. -/
  | replica (b : CellBytes)
  | dflt (b : CellBytes)
  | missing
deriving DecidableEq, Repr

/-- A read of a fallback: none where a byte faults or is poisoned (R213). -/
def quietRead (dva n : Nat) (r : Run) : Option CellBytes × Run :=
  if !rangeMapped r.s r.cmd.tcx dva n then (none, r)
  else
    let (b, r) := (checkRange r.s r.cmd.tcx dva n .read).foldl (fun (acc : CellBytes × Run) p =>
      match p.2.2 with
      | .at _ tpa => let (b, r) := readPiece acc.2 tpa p.2.1; (acc.1 ++ b, r)
      | _ => acc) ([], r)
    (if b.any Prod.snd || decide (b.length < n) then none else some b, r)

/-- The replica of a row: the first of four slots that is VALID and names it; a slot that is not VALID ends the search (R215). -/
def findReplica (t : Table) (v : Version) (row : Nat) : Nat → Nat → Run → Option CellBytes × Run
  | 0, _, r => (none, r)
  | fuel + 1, k, r =>
    let rs := replicaBytes t.width
    let slot := (replicaHome v.replLog2 row + k) % 2 ^ v.replLog2
    match quietRead (v.repl + slot * rs) rs r with
    | (none, r) => (none, r)
    | (some b, r) =>
      let head := (elemAt b 0 8).1
      if head.testBit 63 = false then (none, r)
      else if head % 2 ^ 40 = row then (some ((b.drop 8).take (4 + (t.width + 1) / 2)), r)
      else findReplica t v row fuel (k + 1) r

/-- Counts a fallback that is served (Table 5.6). -/
def countFallback (offset : Nat) (r : Run) : Run := { r with s := bumpTier r.cmd.polder offset 1 r.s }

/-- The fallback of an item, counted: replica, default row, missing marker (R104, R214). [DEDUCED, log 35] -/
def fallbackItem (t : Table) (v : Version) (row : Nat) (replica : Bool) (r : Run) : Item1 × Run :=
  let (rep, r) := if v.replValid && replica then findReplica t v row 4 0 r else (none, r)
  match rep with
  | some b => (.replica b, countFallback 0x58 r)
  | none =>
    let (d, r) := if v.defValid then quietRead v.dflt (rowBytes t.fmt t.width) r else (none, r)
    match d with
    | some b => (.dflt b, countFallback 0x60 r)
    | none => (.missing, countFallback 0x68 r)

/-- Notes what placement sees of a read by DVA (R94, R108, R224). -/
def noteDva (dva n : Nat) (bias : Option Nat) (r : Run) : Run :=
  (checkRange r.s r.cmd.tcx dva n .read).foldl (fun r p =>
    match p.2.2 with
    | .at seg tpa => { r with s := noteRead r.cmd.polder (segOf r.s r.cmd.tcx seg).hint.toNat tpa p.2.1 bias r.s }
    | _ => r) r

/-- A row of a version as an engine receives it (R216 to R219, R232): its item, and whether it spilled. [DEDUCED, log 35] -/
def fetchRow (t : Table) (v : Version) (reserve row : Nat) (replica : Bool) (r : Run) : Item1 × Bool × Run :=
  let n := rowBytes t.fmt t.width
  let dva := v.base + row * (t.stride * 8)
  match spillReason r.s r.cmd reserve dva n with
  | some reason =>
    let (it, r) := fallbackItem t v row replica (tdcRun 1 (countFallback reason r))
    (it, true, r)
  | none =>
    let r := { r with s := bumpLookup r.cmd.polder 0x00 1 r.s }
    match if unmerged v then tabFind v.overlay row else none with
    | some b => (.row (b.map fun x => (x, v.overlayPoison.contains row)) false, false, r)
    | none =>
      let before := r.faultTiles
      let (b, r) := readTile dva n r
      match b with
      | none => (.missing, false, r)
      | some b => (.row b (decide (r.faultTiles ≠ before)), false, noteDva dva n (some t.bias) r)

/-- The bytes that fill an array of outputs: a poisoned output is poisoned in each of its bytes (Table 7.2). -/
def markBytes (n v : Nat) (bad : Bool) : CellBytes := (toBytes n v).map fun b => (b, bad)

/-- A field of VERSION or of a digest: 32 bits, little-endian. -/
def le32 (n : Nat) : List Byte := toBytes 4 n

/-- Segments that a command reads for rows, defaults and replicas, with their GENs, ascending, each once (R319). -/
def segmentGens (s : State) (t : Nat) (dvas : List Nat) : List Byte :=
  let segs := (List.range 16).filter fun n => dvas.any fun d => segAt s t d = some n
  segs.flatMap fun n => le32 n ++ le32 (segOf s t n).gen.toNat

end Sys2Proof.Machine
end

