-- ==== Sys2Proof/Machine/Resilience.lean ====
section
/-!
DEFINITION. Errors of the media and what they lead to: correction, poison, tag failures, failed channels, the PARITY
rebuild and the fatal latch (R128 to R148, R159 to R161).
-/

namespace Sys2Proof.Machine

/-- The data commands of a polder's TCXs that run or wait. -/
def polderCmds (s : State) (p : Nat) : List Cmd := s.q.cmds.filter fun c => decide (c.polder = p)

/-- NONE-FATAL: the first unrepaired error or failed channel sets the fatal latch (R143). [DEDUCED, log 33] -/
def latchFatal (p : Nat) (s : State) : State :=
  let po := polderOf s p
  if !isFatalMode po.modes || po.fatal then s
  else
    let s := modPolder p (fun x => { x with fatal := true }) s
    let s := backInvalidate (fun line _ => lineDb s line && decide (polderAt s (line * 64) = some p)) s
    let s := notifyFm { kind := 0x0B, polder := p } 0 s
    postAsyncAll 0x05 0 p 0 (polderSluices s p) s

/-- Key of the channel of a line: DDR channels 0 to 23, pseudo-channels 256 + n, 1,024 for the SRAM. [DEDUCED, log 42] -/
def channelKey (s : State) (tpa : Nat) : Nat :=
  match polderAt s tpa with
  | none => 1024
  | some p =>
    let po := polderOf s p
    match regionOf tpa with
    | .dram => (dramChannels po (tpa - po.dramRange.base)).headD 0
    | .hbm => 256 + (hbmChannels po (tpa - po.hbmRange.base)).headD 0
    | _ => 1024

/-- Byte offset of the corrected-error counter of a medium (Table 7.7). -/
def correctedOffset (tpa : Nat) : Nat := match regionOf tpa with | .dram => 0x00 | .hbm => 0x08 | _ => 0x10

/-- A correctable error is counted; the 1,024th of one DRAM device within 1 h (9 × 10^10 ticks) notifies the FM (R129). [DEDUCED, log 42] -/
def countCorrected (tpa device : Nat) (s : State) : State :=
  let p := (polderAt s tpa).getD 64
  let s := bumpResil p (correctedOffset tpa) 1 s
  let ch := channelKey s tpa
  if regionOf tpa = .row then s
  else
    let s := { s with res := { s.res with corrected := tabModify s.res.corrected 0 ch (· + 1) } }
    if regionOf tpa ≠ .dram then s
    else
      let key := ch * 64 + device
      let seen := (tabGet s.res.device [] key).filter (fun t => decide (s.time ≤ t + 90000000000)) ++ [s.time]
      if seen.length ≥ 1024 then notifyFm { kind := 0x0A, polder := p, unit := ch } tpa { s with res := { s.res with device := tabErase s.res.device key } }
      else { s with res := { s.res with device := tabPut s.res.device [] key seen } }

/-- Whether another copy can repair a line: its mirror, its stripe, or the home behind a row-cache or promoted copy (R138, R139, R144). [DEDUCED, log 42] -/
def repairable (s : State) (tpa : Nat) : Bool :=
  match polderAt s tpa with
  | none => false
  | some p =>
    let po := polderOf s p
    (isMirror po.modes && decide (regionOf tpa = .dram ∨ regionOf tpa = .hbm)) || (isParity po.modes && decide (regionOf tpa = .dram))
      || isPromoted s tpa || isCached s p (lineOf tpa)

/-- A bad row-cache or promotion copy is dropped (R144). -/
def dropCopies (tpa : Nat) (s : State) : State :=
  let s := if isPromoted s tpa then dropPromoted (tpa / 65536) s else s
  writeCached (lineOf tpa) s

/-- The repair of a line is counted. -/
def repairLine (tpa : Nat) (s : State) : State := bumpResil ((polderAt s tpa).getD 64) 0x18 1 (dropCopies tpa s)

/-- The polder that holds a DDR channel or a pseudo-channel. -/
def channelPolder (s : State) (ch : MemChannel) : Option Nat :=
  (s.polders.find? fun e => match ch with
    | .ddr n => e.2.ddr.getLsbD n.val
    | .hbm n => e.2.hbm.getLsbD n.val).map (·.1)

def channelUnit : MemChannel → Nat
  | .ddr n => n.val
  | .hbm n => 0x100 + n.val

/-- The work-pool state of a polder is lost: its commands and its open versions (R147). -/
def losePool (p : Nat) (s : State) : State :=
  let mine := (s.q.cmds.filter fun c => decide (c.polder = p) && (decide (c.pool ≠ 0) || (groupOfCmd s c.serial).isSome)).map (·.serial)
  loseTables p (mine.foldl (fun s k => loseState k s) s)

/-- A failed DDR channel in its polder (R138, R141, R142): in a PARITY polder with its spare the rebuild starts. -/
def failDdr (n p : Nat) (s : State) : State :=
  let po := polderOf s p
  let ids := maskBits 24 po.ddr.toNat
  let spare := ids.getLastD 0
  let po := { po with failedCh := BitVec.ofNat 5 n, lostDdr := po.lostDdr ||| BitVec.ofNat 24 (2 ^ n) }
  let po := if isParity po.modes && po.spareFor.isNone && po.rebuild.isNone && decide (n ≠ spare) && !po.lostDdr.getLsbD spare then
      { po with rebuild := some { failed := n, done := 0 } } else po
  setPolder p po s

/-- A pseudo-channel of a polder fails; without a mirror its work-pool state is lost. -/
def failHbm (n p : Nat) (s : State) : State :=
  let s := modPolder p (fun x => { x with lostHbm := x.lostHbm ||| BitVec.ofNat 256 (2 ^ n) }) s
  let po := polderOf s p
  let ids := maskBits 256 po.hbm.toNat
  let half := ids.length / 2
  let k := ids.findIdx (· = n)
  let partner := ids.getD (if k < half then k + half else k - half) 0
  if isMirror po.modes && !po.lostHbm.getLsbD partner then s else losePool p s

/-- The NAND maps that lay in the share of a failed DDR channel are rebuilt where the firmware share has free room; the
others stay away until the next device reset, and the FM is notified (R28). -/
def loseMaps (n : Nat) (s : State) : State :=
  ((s.tray.mapHome.filter fun e => e.2 = n).map (·.1)).foldl (fun s ch =>
    let s := modNand ch (fun x => { x with mapLoaded := false }) s
    if s.tray.fwFree ≥ 1 then { s with tray := { s.tray with fwFree := s.tray.fwFree - 1, mapHome := tabPut s.tray.mapHome 99 ch 24 } }
    else notifyFm { kind := 0x09, polder := ((s.polders.find? fun e => e.2.nand.getLsbD ch).map (·.1)).getD 64, unit := ch } 0
      { s with tray := { s.tray with mapHome := tabErase s.tray.mapHome ch } }) s

/-- `CHANNEL_FAILURE_DECLARED` (R140). [DEDUCED, log 42] -/
def channelFailed (ch : MemChannel) (s : State) : State :=
  let known := match ch with | .ddr n => s.res.failedDdr.getLsbD n.val | .hbm n => s.res.failedHbm.getLsbD n.val
  if known then s
  else
    let s := { s with res := match ch with
      | .ddr n => { s.res with failedDdr := s.res.failedDdr ||| BitVec.ofNat 24 (2 ^ n.val) }
      | .hbm n => { s.res with failedHbm := s.res.failedHbm ||| BitVec.ofNat 256 (2 ^ n.val) } }
    let s := match ch with | .ddr n => loseMaps n.val s | .hbm _ => s
    match channelPolder s ch with
    | none => notifyFm { kind := 0x08, unit := channelUnit ch } 0 s
    | some p =>
      let s := match ch with | .ddr n => failDdr n.val p s | .hbm n => failHbm n.val p s
      let s := notifyFm { kind := 0x08, polder := p, unit := channelUnit ch } 0 s
      let s := postAsyncAll 0x06 0 p 0 (polderSluices s p) s
      latchFatal p s

/-- The channel that a channel key names. -/
def keyChannel (key : Nat) : Option MemChannel :=
  if key < 24 then some (.ddr (Fin.ofNat 24 key)) else if 256 ≤ key ∧ key < 512 then some (.hbm (Fin.ofNat 256 (key - 256))) else none

/-- An uncorrectable error of a channel is counted: the 16th distinct line within 1 ms declares the channel failed (R140). [DEDUCED, log 42] -/
def countUncorrectable (tpa : Nat) (s : State) : State :=
  let key := channelKey s tpa
  match keyChannel key with
  | none => s
  | some ch =>
    let line := lineOf tpa
    let seen := (tabGet s.res.uncorrectable [] key).filter fun e => decide (s.time ≤ e.2 + 25000 ∧ e.1 ≠ line)
    let seen := seen ++ [(line, s.time)]
    if seen.length ≥ 16 then channelFailed ch { s with res := { s.res with uncorrectable := tabErase s.res.uncorrectable key } }
    else { s with res := { s.res with uncorrectable := tabPut s.res.uncorrectable [] key seen } }

/-- A line is found uncorrectable and nothing repairs it (R132, R143). -/
def loseLine (tpa : Nat) (s : State) : State :=
  let s := countUncorrectable tpa (poisonLine (lineOf tpa) .uncorrectable s)
  match polderAt s tpa with
  | some p => latchFatal p s
  | none => s

/-- A tag failure is counted and reported, once per TCX per 1 ms (R161). -/
def reportTag (tpa : Nat) (repaired : Bool) (s : State) : State :=
  match bindingOf s tpa with
  | .bound t _ =>
    let p := (tcxOf s t).polder
    let s := modTcx t (fun x => { x with tagFails := x.tagFails + 1 }) s
    let last := tabGet s.key.tagNoted 0 t
    if last ≠ 0 ∧ s.time < last - 1 + 25000 then countEvent 0x06 0 s
    else
      let s := { s with key := { s.key with tagNoted := tabInsert s.key.tagNoted t (s.time + 1) } }
      let s := writeEvent 0x06 0 t p tpa (if repaired then 1 else 0) s
      match (tcxOf s t).keySluice with
      | some ix => postAsync 0x01 t p tpa ix s
      | none => s
  | _ => s

/-- What a read of the medium finds: the state after it, and whether its tag failed beyond repair (Table 7.1, R129, R132, R159). [DESIGN CHOICE, log 12] -/
def mediumFind (tpa : Nat) (e : Ecc) (s : State) : State × Bool :=
  match e with
  | .clean => (s, false)
  | .corrected d => (countCorrected tpa d.val s, false)
  | .uncorrectable ok =>
    if ok && repairable s tpa then
      let copy := isPromoted s tpa || isCached s ((polderAt s tpa).getD 64) (lineOf tpa)
      (repairLine tpa (if copy then s else countUncorrectable tpa s), false)
    else (loseLine tpa s, false)
  | .tagFail ok =>
    if !isTagged (polderOf s ((polderAt s tpa).getD 64)).modes then (s, false)
    else if ok && repairable s tpa then (reportTag tpa true (repairLine tpa s), false)
    else (reportTag tpa false (poisonLine (lineOf tpa) .tagFail s), true)

/-- `MEDIUM_READ_COMPLETE`: the medium read of the flow in service on a line returns (R70). -/
def mediumDone (tpa : Nat) (e : Ecc) (s : State) : State :=
  let line := lineOf tpa
  match tabFind s.coh.flows line with
  | none => s
  | some f =>
    if !f.medium || decide (regionOf tpa = .flash) then s
    else
      let (s, bad) := mediumFind (line * 64) e s
      match tabFind s.coh.flows line with
      | none => s
      | some f => putFlow line { f with medium := false, bad := f.bad || bad } s

/-- `MEDIUM_WRITE_COMPLETE`: the line leaves the forwarding buffer of its die (R72). -/
def mediumWritten (tpa : Nat) (s : State) : State :=
  { s with coh := { s.coh with forwarding := s.coh.forwarding.filter (· ≠ lineOf tpa) } }

/-- `PATROL_READ` (R130, R132, R145): copies that differ are a divergence, or a parity block to rewrite. [DESIGN CHOICE, log 12] -/
def patrolOp (tpa : Nat) (e : Ecc) (differ : Bool) (s : State) : State :=
  match polderAt s tpa with
  | none => s
  | some p =>
    if regionOf tpa = .flash then s
    else
      let (s, _) := mediumFind tpa e s
      let po := polderOf s p
      if !differ || decide (e ≠ .clean) then s
      else if isMirror po.modes && decide (regionOf tpa = .dram ∨ regionOf tpa = .hbm) then
        writeEvent 0x05 0 0 p tpa 0 (bumpResil p 0x38 1 (poisonLine (lineOf tpa) .diverged s))
      else if isParity po.modes && decide (regionOf tpa = .dram) then
        writeEvent 0x05 0 0 p tpa 1 (bumpResil p 0x40 1 s)
      else s

/-- `PARITY_REBUILD_COMPLETE`: the spare takes the failed channel's position (Table 7.5). -/
def rebuildDone (p : Nat) (s : State) : State :=
  let po := polderOf s p
  match po.rebuild with
  | none => s
  | some r =>
    if s.pins.ilOpen || s.pins.ilFault then s
    else
    let k := (maskBits 24 po.ddr.toNat).findIdx (· = r.failed)
    let s := setPolder p { po with rebuild := none, spareFor := some k } s
    notifyFm { kind := 0x08, polder := p, unit := r.failed } 0 (bumpResil p 0x58 (s.tray.share * gib) s)

/-- A failed channel of the polder is served by reconstruction or by an unmirrored partner (Table 7.8, DEGRADED). -/
def polderDegraded (p : Polder) : Bool :=
  let lostPair := fun (ids : List Nat) (lost : Nat → Bool) =>
    let half := ids.length / 2
    (List.range half).any fun k => (lost (ids.getD k 0)) != (lost (ids.getD (k + half) 0))
  (isMirror p.modes && (lostPair (maskBits 24 p.ddr.toNat) (fun c => p.lostDdr.getLsbD c) || lostPair (maskBits 256 p.hbm.toNat) (fun c => p.lostHbm.getLsbD c)))
    || (isParity p.modes && (parityIds p).any fun c => p.lostDdr.getLsbD c)

/-- The state word of Table 7.8. -/
def resilState (p : Polder) : Nat :=
  (if p.fatal then 1024 else 0) + (if polderDegraded p then 512 else 0) + (if p.spareFor.isSome then 256 else 0)
    + (if p.rebuild.isSome then 128 else 0) + p.failedCh.toNat

/-- `RESIL_STATS` (R148, Table 7.7). -/
def resilStatsBody (c : Cmd) (s : State) : State :=
  let p := polderOf s c.polder
  statsRun c (counterBytes p.resilCnt 12 ++ toBytes 8 (resilState p) ++ toBytes 8 0) (fun p => { p with resilCnt := [] }) s

end Sys2Proof.Machine
end

