-- ==== Sys2Proof/Machine/Lookups.lean ====
section
/-!
DEFINITION. `LOOKUP_POOLED` and `GATHER_ROWS` (R216 to R223).
-/

namespace Sys2Proof.Machine

/-! ### The request (Table 11.3) -/

structure LookupReq where
  pool : Nat
  ofmt : Nat
  winExp : Int
  bags : Nat
  indices : Nat
  idx : Nat
  offs : Nat
  wgt : Nat
  age : Nat
  out : Nat
  flag : Nat
  halfLife : Nat
  ostride : Nat
deriving DecidableEq, Repr

def lookupReq (ws : List Word) : LookupReq :=
  { pool := field ws 3 23 20, ofmt := field ws 3 19 16, winExp := signedBits 8 (field ws 3 15 8)
    bags := field ws 4 16 0, indices := field ws 5 20 0, idx := word64 ws 6, offs := word64 ws 8, wgt := word64 ws 10
    age := word64 ws 12, out := word64 ws 14, flag := word64 ws 16, halfLife := field ws 18 31 16, ostride := 8 * field ws 18 9 0 }

/-- Bytes of an output row: FP32, BF16 or FP16 elements, or the raw row (R217). -/
def outBytes (ofmt rowB width : Nat) : Nat := if ofmt = 0 then 4 * width else if ofmt = 0xF then rowB else 2 * width

/-- The format of an output element. -/
def outFp (ofmt : Nat) : Fp := if ofmt = 0 then fp32 else if ofmt = 1 then bf16 else fp16

def outElem (ofmt : Nat) : Nat := if ofmt = 0 then 4 else 2

/-- The checks of R216 and R217 on the fields of a request. -/
def lookupValid (op : Nat) (t : Table) (ws : List Word) : Bool :=
  let q := lookupReq ws
  let raw := decide (q.ofmt = 0xF)
  let weighted := decide (q.pool = 3 ∨ q.pool = 4)
  decide (q.ofmt ≤ 2 ∨ q.ofmt = 0xF) && decide (1 ≤ q.indices ∧ q.indices ≤ 1048576)
    && decide (8 ≤ q.ostride ∧ q.ostride ≤ 4096) && decide (outBytes q.ofmt (rowBytes t.fmt t.width) t.width ≤ q.ostride)
    && (if op = 0x80 then decide (q.pool ≤ 4 ∧ 1 ≤ q.bags ∧ q.bags ≤ 65536) && !raw
        else decide (q.pool = 0 ∧ q.bags = 0 ∧ q.offs = 0))
    && (if raw || decide (q.pool = 2) then decide (q.winExp = 0) else true)
    && (if op = 0x80 && weighted then decide (q.wgt ≠ 0) else decide (q.wgt = 0))
    && (if op = 0x80 && decide (q.pool = 4) then decide (q.age ≠ 0 ∧ q.halfLife ≠ 0) else decide (q.age = 0 ∧ q.halfLife = 0))

/-! ### DECAY (R220) -/

/-- The significand n, 2^23 to 2^24, of T[j] = 2^(−j/1024) in units of 2^(−24): the largest n with (2n − 1)^1024 ≤ 2^(25·1024 − j),
so that n is the value rounded to nearest (a tie cannot occur for j from 1 to 1,023). -/
def decaySearch (j : Nat) : Nat → Nat → Nat → Nat
  | 0, lo, _ => lo
  | fuel + 1, lo, hi =>
    if hi ≤ lo + 1 then lo
    else
      let m := (lo + hi) / 2
      if (2 * m - 1) ^ 1024 ≤ 2 ^ (25 * 1024 - j) then decaySearch j fuel m hi else decaySearch j fuel lo m

/-- T[j] (R220). -/
def decayTable (j : Nat) : Val := if j = 0 then .fin false 1 0 else .fin false (decaySearch j 30 (2 ^ 23) (2 ^ 24 + 1)) (-24)

/-- f(a) (R220). -/
def decayFactor (h a : Nat) : Val :=
  if a / h > 126 then .fin false 0 0 else scaleVal (-((a / h : Nat) : Int)) (decayTable (1024 * (a % h) / h))

/-! ### Pooling (R219) -/

/-- A pooled row: its elements, its weight, and whether it is poisoned. -/
structure PoolRow where
  vals : List Val
  weight : Option Val
  bad : Bool
deriving DecidableEq, Repr

/-- Division in FP32 to nearest even of a value by a count (R219, MEAN). -/
def divVal (v : Val) (n : Nat) : Val :=
  match v with
  | .fin s m e =>
    if n = 0 then .fin false 0 0
    else
      let q := m * 2 ^ 64 / n
      .fin s (2 * q + (if m * 2 ^ 64 % n = 0 then 0 else 1)) (e - 65)
  | v => v

/-- One output element of a bag: its bits, and whether the ordered sum was taken (R219, R294). -/
def poolElem (pool : Nat) (winExp : Int) (f : Fp) (rows : List PoolRow) (i : Nat) : Nat × Bool :=
  let addends := rows.map fun r =>
    let x := r.vals.getD i (.fin false 0 0)
    match r.weight with
    | none => x
    | some w => mulVal w x
  if rows = [] then (0, false)
  else match pool with
    | 2 => (fpEncode f (maxVal addends), false)
    | 1 =>
      let (v, ovf) := ofaSum winExp addends
      (fpEncode f (roundVal fp32 (divVal (roundVal fp32 v) rows.length)), ovf)
    | _ =>
      let (v, ovf) := ofaSum winExp addends
      (fpEncode f v, ovf)

/-- An item's elements for a table. -/
def itemVals (t : Table) : Item1 → List (Val × Bool)
  | .row b _ => rowVals t.fmt t.width b
  | .replica b => rowVals 5 t.width b
  | .dflt b => rowVals t.fmt t.width b
  | .missing => []

/-- Flag bits of an item (Table 11.4). -/
def itemFlags (it : Item1) (spilled : Bool) : Nat :=
  (match it with
    | .row b part => (if part then 0x20 else 0) + (if b.any Prod.snd then 0x02 else 0)
    | .replica _ => 0x10
    | .dflt _ => 0x08
    | .missing => 0x04) + (if spilled then 0x01 else 0)

/-- A row of a lookup: its item, its flags. -/
structure Fetched where
  item : Item1
  flags : Nat
  /-- its index entry is poisoned. -/
  ixBad : Bool := false
deriving DecidableEq, Repr

/-- Fetches the rows that indices name, in order; a poisoned index entry flags its item POISON. -/
def fetchRows (t : Table) (v : Version) (reserve : Nat) (replica : Bool) : List (Nat × Bool) → Run → List Fetched × Run
  | [], r => ([], r)
  | (ix, bad) :: rest, r =>
    if r.stopped then ([], r)
    else
      let flagBad := if bad then 0x02 else 0
      if outOfRange v ix then
        let r := { r with s := bumpLookup r.cmd.polder 0x38 1 r.s }
        let (spilled, r) := if spills r.cmd && decide (hdrDeadline r.cmd.words ≤ reserve) then
            (true, countFallback 0x68 (tdcRun 1 (countFallback 0x50 r))) else (false, r)
        let (l, r) := fetchRows t v reserve replica rest r
        (⟨.missing, 0x40 + flagBad + (if spilled then 0x05 else 0), bad⟩ :: l, r)
      else
        let (it, spilled, r) := fetchRow t v reserve ix replica r
        let (l, r) := fetchRows t v reserve replica rest r
        (⟨it, (itemFlags it spilled) ||| flagBad, bad⟩ :: l, r)

/-- The offsets of the bags (R217): from 0, non-decreasing, up to INDICES. -/
def offsetsOk (indices : Nat) (offs : List Nat) : Bool :=
  decide (offs.head? = some 0) && decide (offs.getLast? = some indices) && (offs.zip offs.tail).all fun p => decide (p.1 ≤ p.2)

/-- Flag byte of a bag: the flags of its rows, with OVERFLOW and POISON of its output. [DEDUCED, log 35] -/
def bagFlags (items : List Fetched) (ovf bad : Bool) : Nat :=
  (items.foldl (fun f i => f ||| i.flags) 0) ||| (if ovf then 0x80 else 0) ||| (if bad then 0x02 else 0)

/-- One bag: its output bytes, its flag byte and the number of elements of the ordered fallback. -/
def poolBag (t : Table) (q : LookupReq) (items : List (Fetched × Option Val × Bool)) (badOffs : Bool) : CellBytes × Nat × Nat :=
  let rows := items.filterMap fun e => match e.1.item with
    | .missing => none
    | it => let vs := itemVals t it; some (⟨vs.map Prod.fst, e.2.1, vs.any Prod.snd⟩ : PoolRow)
  let bad := badOffs || rows.any (·.bad) || items.any fun e => e.2.2 || e.1.ixBad
  let elems := (List.range t.width).map fun i => poolElem q.pool q.winExp (outFp q.ofmt) rows i
  let fell := (elems.filter (·.2)).length
  (elems.flatMap fun e => markBytes (outElem q.ofmt) e.1 bad, bagFlags (items.map (·.1)) (decide (fell ≠ 0)) bad, fell)

/-- The output row of one index of `GATHER_ROWS` (R221). -/
def gatherRow (t : Table) (q : LookupReq) (f : Fetched) : CellBytes :=
  let b : CellBytes := match f.item with
    | .missing => List.replicate (outBytes q.ofmt (rowBytes t.fmt t.width) t.width) (0, false)
    | it =>
      if q.ofmt = 0xF then (match it with | .row b _ | .dflt b => b | _ => [])
      else (itemVals t it).flatMap fun e => markBytes (outElem q.ofmt) (fpEncode (outFp q.ofmt) e.1) e.2
  if f.ixBad then b.map fun x => (x.1, true) else b

/-- Writes output rows at a stride. -/
def writeRows (base stride : Nat) : Nat → List CellBytes → Run → Run
  | _, [], r => r
  | i, b :: rest, r => writeRows base stride (i + 1) rest (writeRange (base + i * stride) b r)

/-- Reads an array that a request names only in some forms. -/
def readArray (dva n : Nat) (wanted : Bool) (r : Run) : CellBytes × Run :=
  if wanted then let (b, r) := readRange dva n r; (b.getD [], r) else ([], r)

/-- The weight of an index: none, WGT, or WGT × f(age) rounded to FP32 (R219, R220), and its poison. -/
def weightOf (q : LookupReq) (wgt age : CellBytes) (i : Nat) : Option Val × Bool :=
  if q.wgt = 0 then (none, false)
  else
    let w := elemAt wgt i 4
    if q.age = 0 then (some (fpDecode fp32 w.1), w.2)
    else
      let a := elemAt age i 2
      (some (roundVal fp32 (mulVal (fpDecode fp32 w.1) (decayFactor q.halfLife a.1))), w.2 || a.2)

/-- DVAs whose segments VERSION lists: the rows delivered and the fallbacks served. -/
def rowSources (t : Table) (v : Version) (rows : List (Nat × Fetched)) : List Nat :=
  rows.filterMap fun e => match e.2.item with
    | .row _ _ => some (v.base + e.1 * (t.stride * 8))
    | .replica _ => some v.repl
    | .dflt _ => some v.dflt
    | .missing => none

/-- VERSION of a lookup (R319). -/
def lookupVersion (s : State) (tcx table : Nat) (v : Version) (sources : List Nat) : List Byte :=
  le32 tcx ++ le32 table ++ le32 v.number ++ segmentGens s tcx sources

/-- The arrays of a lookup: indices, offsets, weights, ages. -/
structure LookupArrays where
  idx : CellBytes
  offs : CellBytes
  wgt : CellBytes
  age : CellBytes

/-- Reads the arrays of a lookup (R216 to R221). -/
def lookupArrays (op : Nat) (q : LookupReq) (r : Run) : LookupArrays × Run :=
  let (ib, r) := readArray q.idx (8 * q.indices) true r
  let (ob, r) := readArray q.offs (4 * (q.bags + 1)) (decide (op = 0x80)) r
  let (wb, r) := readArray q.wgt (4 * q.indices) (q.wgt ≠ 0) r
  let (ab, r) := readArray q.age (2 * q.indices) (q.age ≠ 0) r
  (⟨ib, ob, wb, ab⟩, r)

/-- OFFSETS of a pooled lookup. -/
def lookupOffsets (q : LookupReq) (a : LookupArrays) : List Nat := (List.range (q.bags + 1)).map fun i => (elemAt a.offs i 4).1

/-- Output rows, flag bytes and overflows of a lookup: a pooled row per bag, or a row per index (R217 to R222). -/
def lookupRows (op : Nat) (t : Table) (q : LookupReq) (a : LookupArrays) (fetched : List Fetched) : List (CellBytes × Nat × Nat) :=
  let items := fetched.zipIdx.map fun e => let w := weightOf q a.wgt a.age e.2; (e.1, w.1, w.2)
  if op = 0x80 then
    (List.range q.bags).map fun b =>
      let first := (lookupOffsets q a).getD b 0
      let n := (lookupOffsets q a).getD (b + 1) 0 - first
      poolBag t q ((items.drop first).take n) ((elemAt a.offs b 4).2 || (elemAt a.offs (b + 1) 4).2)
  else fetched.map fun f => (gatherRow t q f, f.flags, 0)

/-- Writes what a lookup delivers, and gives its result. -/
def lookupDeliver (op : Nat) (c : Cmd) (t : Table) (v : Version) (a : LookupArrays) (fetched : List Fetched) (r : Run) : Result × Run :=
  let q := lookupReq c.words
  let outs := lookupRows op t q a fetched
  let rows := outs.map (·.1)
  let flags := outs.map (·.2.1)
  let fell : Nat := (outs.map (·.2.2)).sum
  let r := { r with s := bumpLookup c.polder 0x60 fell r.s }
  let r := writeRows q.out q.ostride 0 rows r
  let r := if q.flag = 0 then r else writeRange q.flag (flags.map fun f => (BitVec.ofNat 8 f, false)) r
  let any := fun bit => fetched.any fun f => decide (f.flags &&& bit ≠ 0)
  let st := statusOf [statusIf (any 0x40) .indexRange, statusIf (rows.any fun b => b.any Prod.snd) .poisoned,
    statusIf (decide (fell ≠ 0)) .ofaOverflow, statusIf (any 0x01) .spillway]
  let indices := indexEntries a.idx q.indices
  ({ status := st, value := (flags.filter (· ≠ 0)).length, overflow := decide (fell ≠ 0)
     version := lookupVersion r.s c.tcx (field c.words 3 31 26) v (rowSources t v ((indices.map Prod.fst).zip fetched))
     input := (a.idx ++ a.offs ++ a.wgt ++ a.age).map Prod.fst
     output := (rows.flatMap fun b => b.map Prod.fst) ++ (if q.flag = 0 then [] else flags.map fun f => BitVec.ofNat 8 f) }, r)

/-- Outputs of a lookup: a row per bag or index, and the flag bytes (R217, R222). -/
def lookupOutputs (op : Nat) (t : Table) (ws : List Word) : List (Nat × Nat) :=
  let q := lookupReq ws
  let count := if op = 0x80 then q.bags else q.indices
  ((List.range count).map fun i => (q.out + i * q.ostride, outBytes q.ofmt (rowBytes t.fmt t.width) t.width))
    ++ (if q.flag = 0 then [] else [(q.flag, count)])

/-- The body of both lookups. [DEDUCED, log 35] -/
def lookupBody (op : Nat) (c0 : Cmd) (s0 : State) : State :=
  let ws := c0.words
  match (tabFind s0.tbl.tables (tableKey c0.tcx (field ws 3 31 26))).bind fun t => (pinnedVersion t c0.pinned).map fun v => (t, v) with
  | none => finishWith c0 .invalid 0 s0
  | some (t, v) =>
    if lookupValid op t ws = false then finishWith c0 .invalid 0 s0
    else
      let q := lookupReq ws
      let (c, s) := markLate c0 10 s0
      let outs := lookupOutputs op t ws
      let (a, r) := lookupArrays op q { runOf c s with engine := 2, unit := 0xFF }
      if r.stopped || runBlocked r then concludeRun (stopOutputs outs r) {} s
      else if decide (op = 0x80) && !offsetsOk q.indices (lookupOffsets q a) then finishWith c .invalid 0 s
      else
        let (fetched, r) := fetchRows t v 10 (q.ofmt ≠ 0xF) (indexEntries a.idx q.indices) r
        if r.stopped || runBlocked r then concludeRun (stopOutputs outs r) {} s
        else
          let done := lookupDeliver op c t v a fetched r
          concludeRun (stopOutputs outs done.2) done.1 s

/-- `LOOKUP_POOLED`. -/
def lookupPooledBody (c : Cmd) (s : State) : State := lookupBody 0x80 c s

/-- `GATHER_ROWS`. -/
def gatherRowsBody (c : Cmd) (s : State) : State := lookupBody 0x81 c s

/-- `LOOKUP_STATS` (R234, Table 11.8). -/
def lookupStatsBody (c : Cmd) (s : State) : State :=
  statsRun c (counterBytes (polderOf s c.polder).lookupCnt 13) (fun p => { p with lookupCnt := [] }) s

end Sys2Proof.Machine
end

