-- ==== Sys2Proof/Machine/Sequences.lean ====
section
/-!
DEFINITION. `SEQ_POOL` and `DECODE_ATTN` (R235 to R251).
-/

namespace Sys2Proof.Machine

/-! ### Attention numerics (R242 to R244) -/

/-- T2[i] = 2^(i/4096) rounded to FP32, in units of 2^(−23): the largest n with (2n − 1)^4096 ≤ 2^(24·4096 + i). -/
def expSearch (i : Nat) : Nat → Nat → Nat → Nat
  | 0, lo, _ => lo
  | fuel + 1, lo, hi =>
    if hi ≤ lo + 1 then lo
    else
      let m := (lo + hi) / 2
      if (2 * m - 1) ^ 4096 ≤ 2 ^ (24 * 4096 + i) then expSearch i fuel m hi else expSearch i fuel lo m

def expTable (i : Nat) : Val := .fin false (expSearch i 30 (2 ^ 23) (2 ^ 24 + 1)) (-23)

/-- The largest integer not above a finite value. -/
def floorVal : Val → Int
  | .fin s m e =>
    let n : Int := if s then -(m : Int) else m
    if 0 ≤ e then n * 2 ^ e.toNat else n / 2 ^ (-e).toNat
  | _ => 0

def fpAdd (a b : Val) : Val := roundVal fp32 (addVal a b)
def fpMul (a b : Val) : Val := roundVal fp32 (mulVal a b)

/-- E(x) for x ≤ 0 (R242). -/
def expVal (x : Val) : Val :=
  let t := fpMul x (fpDecode fp32 0x3FB8AA3B)
  if valLt t (intVal (-126)) then .fin false 0 0
  else
    let k := floorVal t
    let f := addVal t (intVal (-k))
    let i := (floorVal (scaleVal 12 f)).toNat
    let r := addVal f (scaleVal (-12) (intVal (-(i : Int))))
    let p := fpMul (expTable i) (fpAdd (intVal 1) (fpMul r (fpDecode fp32 0x3F317218)))
    scaleVal k p

/-- FP32 division to nearest even (R243). -/
def fpDiv (a b : Val) : Val :=
  match a, b with
  | .nan, _ | _, .nan => .nan
  | .inf _, .inf _ => .nan
  | .inf s, .fin t _ _ => .inf (s ^^ t)
  | .fin s _ _, .inf t => .fin (s ^^ t) 0 0
  | .fin s m e, .fin t n g =>
    if n = 0 then (if m = 0 then .nan else .inf (s ^^ t))
    else
      let q := m * 2 ^ 64 / n
      roundVal fp32 (.fin (s ^^ t) (2 * q + (if m * 2 ^ 64 % n = 0 then 0 else 1)) (e - g - 65))

def isFinite : Val → Bool | .fin _ _ _ => true | _ => false

/-- The score of a key for a query: FP32(SCALE × FP32(Σ q k)), and whether its window overflowed (R241, R244, R247). -/
def scoreOf (swin : Int) (scale : Val) (q k : List Val) : Val × Bool :=
  let (v, ovf) := ofaSum swin ((q.zip k).map fun p => mulVal p.1 p.2)
  (fpMul scale (roundVal fp32 v), ovf)

/-- One element of a head: its score, a further factor of its weight, its value elements with their poison. -/
structure HeadElem where
  score : Val
  factor : Option Val
  value : List (Val × Bool)
deriving DecidableEq, Repr

/-- The result of a head: M, W, and per output element its bits, whether it fell back and whether it is poisoned. -/
structure HeadOut where
  m : Nat
  w : Nat
  elems : List (Nat × Bool × Bool)
deriving DecidableEq, Repr

/-- Attention of one head over its elements (R243, R244). `half`: weights are rounded to BF16 (R247). -/
def attend (winExp : Int) (f : Fp) (width : Nat) (half : Bool) (elems : List HeadElem) : HeadOut :=
  if elems = [] then ⟨0xFF800000, 0, List.replicate width (0, false, false)⟩
  else
    let scores := elems.map (·.score)
    if scores.any fun v => !isFinite v then
      ⟨fpEncode fp32 (maxVal scores), fpEncode fp32 .nan,
        (List.range width).map fun i => (fpEncode f .nan, false, elems.any fun e => (e.value.getD i (.nan, false)).2)⟩
    else
      let m := maxVal scores
      let weights := elems.map fun e =>
        let w := expVal (fpAdd e.score (negVal m))
        let w := match e.factor with | some a => fpMul w a | none => w
        if half then roundVal bf16 w else w
      let w := roundVal fp32 (ofaSum (-64) weights).1
      let out := (List.range width).map fun i =>
        let addends := (weights.zip elems).map fun p => mulVal p.1 (p.2.value.getD i (.fin false 0 0, false)).1
        let (v, ovf) := ofaSum winExp addends
        (fpEncode f (fpDiv (roundVal fp32 v) w), ovf, elems.any fun e => (e.value.getD i (.nan, false)).2)
      ⟨fpEncode fp32 m, fpEncode fp32 w, out⟩

/-! ### SEQ_POOL (Table 12.3) -/

structure SeqReq where
  mode : Nat
  ofmt : Nat
  ageW : Bool
  winExp : Int
  mask : Nat
  nseq : Nat
  swin : Int
  window : Nat
  desc : Nat
  query : Nat
  out : Nat
  flag : Nat
  halfLife : Nat
  ostride : Nat
  now : Nat
  scale : Nat
deriving DecidableEq, Repr

def seqReq (ws : List Word) : SeqReq :=
  { mode := field ws 3 19 16, ofmt := field ws 3 15 12, ageW := flag ws 3 11, winExp := signedBits 8 (field ws 3 7 0)
    mask := field ws 4 31 16, nseq := field ws 4 12 0, swin := signedBits 8 (field ws 5 31 24), window := field ws 5 23 0
    desc := word64 ws 6, query := word64 ws 8, out := word64 ws 10, flag := word64 ws 12
    halfLife := field ws 14 31 16, ostride := 8 * field ws 14 9 0, now := field ws 15 19 0, scale := wordAt ws 16 }

/-- The checks of R238 and R239 on the fields of a request; `width`: WIDTH of VTABLE. -/
def seqValid (ws : List Word) (width : Nat) : Bool :=
  let q := seqReq ws
  let target := decide (q.mode = 4)
  decide (q.mode ≤ 4 ∧ q.ofmt ≤ 2 ∧ 1 ≤ q.nseq ∧ q.nseq ≤ 4096 ∧ 1 ≤ q.window ∧ q.window ≤ 8388608 ∧ q.desc % 32 = 0)
    && decide (8 ≤ q.ostride ∧ q.ostride ≤ 4096 ∧ outElem q.ofmt * width ≤ q.ostride)
    && (target || decide (field ws 3 25 20 = field ws 3 31 26 ∧ q.ageW = false ∧ field ws 5 31 24 = 0 ∧ q.query = 0 ∧ q.scale = 0 ∧ wordAt ws 18 = 0))
    && (!target || (decide (q.query ≠ 0) && isFinite (fpDecode fp32 q.scale)))
    && (if decide (q.mode = 3) || (target && q.ageW) then decide (q.halfLife ≠ 0) else decide (q.halfLife = 0))
    && (if q.mode = 2 then decide (q.winExp = 0) else true)

/-- A sequence descriptor (Table 12.2). -/
structure SeqDesc where
  elem : Nat
  capacity : Nat
  head : Nat
  count : Nat
  bad : Bool
deriving DecidableEq, Repr

def seqDesc (b : CellBytes) (i : Nat) : SeqDesc :=
  let d := (b.drop (32 * i)).take 32
  { elem := (elemAt d 0 8).1, capacity := (elemAt d 2 4).1, head := (elemAt d 3 4).1, count := (elemAt d 4 4).1, bad := d.any Prod.snd }

def descOk (b : CellBytes) (i : Nat) : Bool :=
  let d := seqDesc b i
  decide (d.elem < 2 ^ 52 ∧ d.elem % 8 = 0 ∧ 1 ≤ d.capacity ∧ d.capacity ≤ 8388608 ∧ d.head < d.capacity ∧ d.count ≤ d.capacity)
    && ((b.drop (32 * i + 20)).take 12).all fun x => decide (x.1 = 0)

/-- Elements taken of a sequence. -/
def taken (q : SeqReq) (d : SeqDesc) : Nat := min d.count q.window

/-- The taken elements of a history, oldest first, and their poison (R236); reads the ring in its two stretches. -/
def readHistory (q : SeqReq) (d : SeqDesc) (r : Run) : List (Nat × Bool) × Run :=
  let n := taken q d
  let first := (d.head + d.capacity - n) % d.capacity
  let a := min n (d.capacity - first)
  let (b1, r) := readRange (d.elem + 8 * first) (8 * a) r
  let (b2, r) := readRange d.elem (8 * (n - a)) r
  (indexEntries (b1.getD [] ++ b2.getD []) n, r)

/-- Age of an element (R235). -/
def elemAge (q : SeqReq) (e : Nat) : Nat := min ((q.now + 2 ^ 20 - bits e 63 44) % 2 ^ 20) 65535

/-- Elements whose ACTION is taken. -/
def actionTaken (q : SeqReq) (l : List (Nat × Bool)) : List (Nat × Bool) := l.filter fun e => q.mask.testBit (bits e.1 43 40)

/-- One sequence of SUM, MEAN, MAX or DECAY: output, flags, elements of the ordered fallback (R240). -/
def poolSequence (t : Table) (v : Version) (q : SeqReq) (bad : Bool) (elems : List (Nat × Bool)) (r : Run) :
    (CellBytes × Nat × Nat × List (Nat × Fetched)) × Run :=
  let (rows, r) := fetchRows t v 20 true (elems.map fun e => (e.1 % 2 ^ 40, e.2)) r
  let lq : LookupReq := { pool := if q.mode = 3 then 4 else q.mode, ofmt := q.ofmt, winExp := q.winExp, bags := 0, indices := 0
                          idx := 0, offs := 0, wgt := 0, age := 0, out := 0, flag := 0, halfLife := 0, ostride := 0 }
  let items := (rows.zip elems).map fun p =>
    (p.1, (if q.mode = 3 then some (decayFactor q.halfLife (elemAge q p.2.1)) else none), false)
  let (b, f, n) := poolBag t lq items bad
  ((b, f, n, (elems.map fun e => e.1 % 2 ^ 40).zip rows), r)

/-- One sequence of TARGET (R241). [DEDUCED, log 35] -/
def targetSequence (kt vt : Table) (kv vv : Version) (q : SeqReq) (bad : Bool) (query : List (Val × Bool)) (elems : List (Nat × Bool)) (r : Run) :
    (CellBytes × Nat × Nat × List (Nat × Fetched) × List (Nat × Fetched)) × Run :=
  let rows := elems.map fun e => (e.1 % 2 ^ 40, e.2)
  let out := fun (e : Nat × Bool) => outOfRange kv e.1 || outOfRange vv e.1
  let (keys, r) := fetchRows kt kv 20 true (rows.map fun e => if out e then (2 ^ 41, e.2) else e) r
  let (values, r) := fetchRows vt vv 20 true ((rows.filter fun e => !out e)) r
  let inside := (keys.zip elems).filter fun p => p.1.flags &&& 0x40 = 0
  let scale := fpDecode fp32 q.scale
  let picked := (inside.zip values).filterMap fun p =>
    match p.1.1.item, p.2.item with
    | .missing, _ | _, .missing => none
    | k, x =>
      let kvals := itemVals kt k
      let (sc, ovf) := scoreOf q.swin scale (query.map Prod.fst) (kvals.map Prod.fst)
      let factor := if q.ageW then some (decayFactor q.halfLife (elemAge q p.1.2.1)) else none
      some ((⟨sc, factor, itemVals vt x⟩ : HeadElem), ovf, kvals.any Prod.snd || p.1.1.ixBad)
  let h := attend q.winExp (outFp q.ofmt) vt.width false (picked.map (·.1))
  let bad := bad || query.any Prod.snd || picked.any fun e => e.2.2
  let fell := (h.elems.filter fun e => e.2.1).length
  let ovf := decide (fell ≠ 0) || picked.any fun e => e.2.1
  let b := h.elems.flatMap fun e => markBytes (outElem q.ofmt) e.1 (bad || e.2.2)
  let f := (bagFlags (keys ++ values) ovf (bad || h.elems.any fun e => e.2.2)) ||| (if picked = [] then 0x04 else 0)
  ((b, f, fell, (rows.map Prod.fst).zip keys, ((rows.filter fun e => !out e).map Prod.fst).zip values), r)

/-- What a sequence leaves: its output, its flag byte, its ordered elements, and the DVAs its rows were read from. -/
structure SeqOut where
  bytes : CellBytes
  flags : Nat
  fell : Nat
  sources : List Nat
deriving DecidableEq, Repr

/-- Runs the sequences one after another. -/
def runSequences (kt vt : Table) (kv vv : Version) (q : SeqReq) (desc query : CellBytes) : Nat → Nat → Run → List SeqOut × Run
  | 0, _, r => ([], r)
  | fuel + 1, i, r =>
    let d := seqDesc desc i
    let (hist, r) := readHistory q d r
    let elems := actionTaken q hist
    if r.stopped then ([], r)
    else
      let (o, r) := if q.mode = 4 then
          let qv := (List.range kt.width).map fun e => let x := elemAt query (i * kt.width + e) 4; (fpDecode fp32 x.1, x.2)
          let (x, r) := targetSequence kt vt kv vv q d.bad qv elems r
          ((⟨x.1, x.2.1, x.2.2.1, rowSources kt kv x.2.2.2.1 ++ rowSources vt vv x.2.2.2.2⟩ : SeqOut), r)
        else
          let (x, r) := poolSequence kt kv q d.bad elems r
          (⟨x.1, x.2.1, x.2.2.1, rowSources kt kv x.2.2.2⟩, r)
      let (l, r) := runSequences kt vt kv vv q desc query fuel (i + 1) r
      (o :: l, r)

/-- The pinned tables of a `SEQ_POOL`, in ascending order of number (R319). -/
def pinnedTables (tcx a : Nat) (va : Version) (b : Nat) (vb : Version) (target : Bool) : List Byte :=
  let one := fun (n : Nat) (v : Version) => le32 tcx ++ le32 n ++ le32 v.number
  if !target || decide (a = b ∧ va.number = vb.number) then one a va
  else if a ≤ b then one a va ++ one b vb else one b vb ++ one a va

/-- Writes what `SEQ_POOL` delivers, and gives its result. -/
def seqDeliver (c : Cmd) (kv vv : Version) (input : CellBytes) (outs : List SeqOut) (r : Run) : Result × Run :=
  let ws := c.words
  let q := seqReq ws
  let target := decide (q.mode = 4)
  let kn := field ws 3 31 26
  let fell : Nat := (outs.map (·.fell)).sum
  let flags := outs.map (·.flags)
  let any := fun bit => flags.any fun f => decide (f &&& bit ≠ 0)
  let r := { r with s := bumpLookup c.polder 0x60 fell r.s }
  let r := writeRows q.out q.ostride 0 (outs.map (·.bytes)) r
  let r := if q.flag = 0 then r else writeRange q.flag (flags.map fun f => (BitVec.ofNat 8 f, false)) r
  let st := statusOf [statusIf (any 0x40) .indexRange, statusIf (outs.any fun o => o.bytes.any Prod.snd) .poisoned,
    statusIf (any 0x80) .ofaOverflow, statusIf (any 0x01) .spillway]
  ({ status := st, value := (flags.filter (· ≠ 0)).length, overflow := any 0x80
     version := pinnedTables c.tcx kn kv (if target then field ws 3 25 20 else kn) vv target ++ segmentGens r.s c.tcx (outs.flatMap (·.sources))
     input := input.map Prod.fst
     output := (outs.flatMap fun o => o.bytes.map Prod.fst) ++ (if q.flag = 0 then [] else flags.map fun f => BitVec.ofNat 8 f) }, r)

/-- A table of a command with the version it has pinned (R218, R238). -/
def pinnedTable (s : State) (key : Nat) (pinned : Option Nat) : Option (Table × Version) :=
  (tabFind s.tbl.tables key).bind fun t => (pinnedVersion t pinned).map fun v => (t, v)

/-- Outputs of a `SEQ_POOL`: a row per sequence of a table's width, and the flag bytes. -/
def seqOutputs (width : Nat) (ws : List Word) : List (Nat × Nat) :=
  let q := seqReq ws
  ((List.range q.nseq).map fun i => (q.out + i * q.ostride, outElem q.ofmt * width)) ++ (if q.flag = 0 then [] else [(q.flag, q.nseq)])

/-- `SEQ_POOL`. [DEDUCED, log 36] -/
def seqPoolBody (c0 : Cmd) (s0 : State) : State :=
  let ws := c0.words
  let q := seqReq ws
  let target := decide (q.mode = 4)
  let kn := field ws 3 31 26
  let vn := if target then field ws 3 25 20 else kn
  match pinnedTable s0 (tableKey c0.tcx kn) c0.pinned, pinnedTable s0 (tableKey c0.tcx vn) (if target then c0.pinned2 else c0.pinned) with
  | some (kt, kv), some (vt, vv) =>
    if seqValid ws vt.width = false then finishWith c0 .invalid 0 s0
    else
      let (c, s) := markLate c0 20 s0
      let spoilt := seqOutputs vt.width ws
      let (db, r) := readArray q.desc (32 * q.nseq) true { runOf c s with engine := 2 }
      let (qb, r) := readArray q.query (4 * kt.width * q.nseq) target r
      if r.stopped || runBlocked r then concludeRun (stopOutputs spoilt r) {} s
      else
        let descs := (List.range q.nseq).map (seqDesc db)
        if !(List.range q.nseq).all (descOk db) || decide ((descs.map (taken q)).sum > 16777216) then finishWith c .invalid 0 s
        else
          let (outs, r) := runSequences kt vt kv vv q db qb q.nseq 0 r
          if r.stopped || runBlocked r then concludeRun (stopOutputs spoilt r) {} s
          else
            let done := seqDeliver c kv vv (db ++ qb) outs r
            concludeRun (stopOutputs spoilt done.2) done.1 s
  | _, _ => finishWith c0 .invalid 0 s0

/-! ### DECODE_ATTN (Table 12.5) -/

structure AttnReq where
  kfmt : Nat
  ofmt : Nat
  group : Nat
  kvh : Nat
  d : Nat
  winExp : Int
  swin : Int
  nseq : Nat
  scale : Nat
  pool : Nat
  pages : Nat
  desc : Nat
  query : Nat
  out : Nat
  flag : Nat
  lse : Nat
deriving DecidableEq, Repr

def attnReq (ws : List Word) : AttnReq :=
  { kfmt := field ws 3 31 28, ofmt := field ws 3 27 24, group := field ws 3 23 20 + 1, kvh := field ws 3 19 13 + 1
    d := 32 * field ws 3 11 8, winExp := signedBits 8 (field ws 3 7 0), swin := signedBits 8 (field ws 4 31 24)
    nseq := field ws 4 12 0, scale := wordAt ws 5, pool := word64 ws 6, pages := wordAt ws 8 + 1
    desc := word64 ws 10, query := word64 ws 12, out := word64 ws 14, flag := word64 ws 16, lse := word64 ws 18 }

def attnHeads (q : AttnReq) : Nat := q.kvh * q.group

/-- The checks of R248 on the fields of a request. -/
def attnValid (q : AttnReq) : Bool :=
  decide (q.kfmt ≤ 3 ∧ q.ofmt ≤ 2 ∧ attnHeads q ≤ 128 ∧ 32 ≤ q.d ∧ q.d ≤ 256 ∧ 1 ≤ q.nseq ∧ q.nseq ≤ 4096)
    && isFinite (fpDecode fp32 q.scale)
    && decide (q.pool % 64 = 0 ∧ q.desc % 16 = 0 ∧ q.query % 4 = 0 ∧ q.out % outElem q.ofmt = 0 ∧ q.lse % 8 = 0)

def kvElem (kfmt : Nat) : Nat := if kfmt = 0 then 2 else 1

/-- H_B of Table 12.4. -/
def halfBytes (q : AttnReq) : Nat := 16 * q.kvh * q.d * kvElem q.kfmt + (if q.kfmt = 3 then 16 * q.kvh * q.d / 32 else 0)

/-- P_S of R245. -/
def pageStride (q : AttnReq) : Nat := (2 * halfBytes q + 63) / 64 * 64

/-- The parts of a half that KV head `g` reads: its elements, and for MXFP8 its scales; offset in the half and bytes (R245). -/
def sliceParts (q : AttnReq) (g : Nat) : List (Nat × Nat) :=
  let n := 16 * q.d * kvElem q.kfmt
  (g * n, n) :: (if q.kfmt = 3 then [(16 * q.kvh * q.d + g * (16 * q.d / 32), 16 * q.d / 32)] else [])

/-- The value that an E8M0 scale stands for (R285). -/
def e8m0 (b : Nat) : Val := if b = 255 then .nan else .fin false 1 ((b : Int) - 127)

/-- Elements of a head's slice of a page, token by token, from its parts. -/
def sliceVals (q : AttnReq) (parts : List CellBytes) : List (Val × Bool) :=
  let data := parts.headD []
  let scales := (parts.drop 1).headD []
  (List.range (16 * q.d)).map fun i =>
    let e := elemAt data i (kvElem q.kfmt)
    match q.kfmt with
    | 0 => (fpDecode bf16 e.1, e.2)
    | 1 => (fpDecode fpE4M3 e.1, e.2)
    | 2 => (fpDecode fpE5M2 e.1, e.2)
    | _ => let sc := elemAt scales (i / 32) 1; (mulVal (e8m0 sc.1) (fpDecode fpE4M3 e.1), e.2 || sc.2)

/-- Reads the parts of a slice. -/
def readParts (base : Nat) : List (Nat × Nat) → Run → List CellBytes × Run
  | [], r => ([], r)
  | p :: rest, r =>
    let (b, r) := readTile (base + p.1) p.2 r
    let r := noteDva (base + p.1) p.2 none r
    let (l, r) := readParts base rest r
    (b.getD [] :: l, r)

/-- One item: a page as one KV head sees it (R249). -/
structure PageItem where
  keys : List (Val × Bool)
  values : List (Val × Bool)
  /-- it takes the missing marker. -/
  missing : Bool
  flags : Nat
deriving DecidableEq, Repr

/-- Fetches an item: out of range, spilled, or delivered. -/
def fetchPage (q : AttnReq) (g page : Nat) (r : Run) : PageItem × Run :=
  if page ≥ q.pages then
    if spills r.cmd && decide (hdrDeadline r.cmd.words ≤ 20) then
      (⟨[], [], true, 0x45⟩, countFallback 0x68 (tdcRun 1 (countFallback 0x50 r)))
    else (⟨[], [], true, 0x40⟩, r)
  else
    let kbase := q.pool + page * pageStride q
    let vbase := kbase + halfBytes q
    let parts := sliceParts q g
    let reason := (parts.map (fun p => (kbase + p.1, p.2)) ++ parts.map fun p => (vbase + p.1, p.2)).findSome? fun p =>
      spillReason r.s r.cmd 20 p.1 p.2
    match reason with
    | some off => (⟨[], [], true, 0x05⟩, countFallback 0x68 (tdcRun 1 (countFallback off r)))
    | none =>
      let before := r.faultTiles
      let (k, r) := readParts kbase parts r
      let (v, r) := readParts vbase parts r
      (⟨sliceVals q k, sliceVals q v, false, if r.faultTiles = before then 0 else 0x20⟩, r)

def fetchPages (q : AttnReq) (g : Nat) : List Nat → Run → List PageItem × Run
  | [], r => ([], r)
  | p :: rest, r =>
    if r.stopped then ([], r)
    else
      let (i, r) := fetchPage q g p r
      let (l, r) := fetchPages q g rest r
      (i :: l, r)

/-- The output of one query head: its elements, its overflow, and whether keys or query poison it. -/
def attnHead (q : AttnReq) (len : Nat) (query : List (Val × Bool)) (items : List PageItem) : HeadOut × Bool × Bool :=
  let qv := query.map fun x => roundVal bf16 x.1
  let scale := fpDecode fp32 q.scale
  let tokens := items.zipIdx.flatMap fun e =>
    if e.1.missing then []
    else ((List.range 16).filter fun t => decide (16 * e.2 + t < len)).map fun t =>
      let k := (e.1.keys.drop (t * q.d)).take q.d
      let (sc, ovf) := scoreOf q.swin scale qv (k.map Prod.fst)
      ((⟨sc, none, (e.1.values.drop (t * q.d)).take q.d⟩ : HeadElem), ovf, k.any Prod.snd)
  let h := attend q.winExp (outFp q.ofmt) q.d true (tokens.map (·.1))
  (h, h.elems.any (fun e => e.2.1) || tokens.any (fun t => t.2.1), query.any Prod.snd || tokens.any fun t => t.2.2)

/-- What a sequence of a `DECODE_ATTN` leaves. -/
structure AttnOut where
  out : CellBytes
  lse : CellBytes
  flags : Nat
  fell : Nat
deriving DecidableEq, Repr

/-- The KV heads of a sequence, one after another. -/
def attnGroups (q : AttnReq) (len : Nat) (pages : List Nat) (query : Nat → List (Val × Bool)) (bad : Bool) :
    Nat → Nat → Run → List AttnOut × Run
  | 0, _, r => ([], r)
  | fuel + 1, g, r =>
    let (items, r) := fetchPages q g pages r
    let heads := (List.range q.group).map fun i => attnHead q len (query (g * q.group + i)) items
    let out := heads.flatMap fun h => h.1.elems.flatMap fun e => markBytes (outElem q.ofmt) e.1 (bad || h.2.2 || e.2.2)
    let lse := heads.flatMap fun h => markBytes 4 h.1.m (bad || h.2.2) ++ markBytes 4 h.1.w (bad || h.2.2)
    let flags := (items.foldl (fun f i => f ||| i.flags) 0) ||| (if heads.any fun h => h.2.1 then 0x80 else 0)
      ||| (if out.any Prod.snd then 0x02 else 0) ||| (if items.all (·.missing) then 0x04 else 0)
    let fell := (heads.map fun h => (h.1.elems.filter fun e => e.2.1).length).sum
    let (l, r) := attnGroups q len pages query bad fuel (g + 1) r
    (⟨out, lse, flags, fell⟩ :: l, r)

/-- The sequences: descriptor index, page numbers read, poison of either. -/
def attnSequences (q : AttnReq) (query : CellBytes) : List (Nat × Nat × List Nat × Bool) → Run → List AttnOut × Run
  | [], r => ([], r)
  | (i, len, pages, bad) :: rest, r =>
    if r.stopped then ([], r)
    else
      let qv := fun h => (List.range q.d).map fun e =>
        let x := elemAt query ((i * attnHeads q + h) * q.d + e) 4; (fpDecode fp32 x.1, x.2)
      let (gs, r) := attnGroups q len pages qv bad q.kvh 0 r
      let o : AttnOut := ⟨gs.flatMap (·.out), gs.flatMap (·.lse), gs.foldl (fun f g => f ||| g.flags) 0, (gs.map (·.fell)).sum⟩
      let (l, r) := attnSequences q query rest r
      (o :: l, r)

/-- Reads the page tables of the sequences. -/
def readTables : List (Nat × Nat) → Run → List CellBytes × Run
  | [], r => ([], r)
  | d :: rest, r =>
    let (b, r) := readRange d.1 (4 * ((d.2 + 15) / 16)) r
    let (l, r) := readTables rest r
    (b.getD [] :: l, r)

/-- Writes what `DECODE_ATTN` delivers, and gives its result. -/
def attnDeliver (c : Cmd) (input : CellBytes) (outs : List AttnOut) (r : Run) : Result × Run :=
  let q := attnReq c.words
  let flags := outs.map (·.flags)
  let any := fun bit => flags.any fun f => decide (f &&& bit ≠ 0)
  let out := outs.flatMap (·.out)
  let lse := outs.flatMap (·.lse)
  let r := { r with s := bumpLookup c.polder 0x60 ((outs.map (·.fell)).sum) r.s }
  let r := writeRange q.out out r
  let r := if q.flag = 0 then r else writeRange q.flag (flags.map fun f => (BitVec.ofNat 8 f, false)) r
  let r := if q.lse = 0 then r else writeRange q.lse lse r
  let st := statusOf [statusIf (any 0x40) .indexRange, statusIf (out.any Prod.snd) .poisoned,
    statusIf (any 0x80) .ofaOverflow, statusIf (any 0x01) .spillway]
  ({ status := st, value := (flags.filter (· ≠ 0)).length, overflow := any 0x80
     input := input.map Prod.fst
     output := (out.map Prod.fst) ++ (if q.flag = 0 then [] else flags.map fun f => BitVec.ofNat 8 f)
       ++ (if q.lse = 0 then [] else lse.map Prod.fst) }, r)

/-- A `DECODE_ATTN` descriptor: address of its page table, tokens, reserved word, poison (Table 12.6). -/
def attnDesc (db : CellBytes) (i : Nat) : Nat × Nat × Nat × Bool :=
  let d := (db.drop (16 * i)).take 16
  ((elemAt d 0 8).1, (elemAt d 2 4).1, (elemAt d 3 4).1, d.any Prod.snd)

/-- A descriptor breaks the rules of R248. -/
def attnDescBad (d : Nat × Nat × Nat × Bool) : Bool :=
  decide (d.1 ≥ 2 ^ 52 ∨ d.1 % 4 ≠ 0 ∨ d.2.1 < 1 ∨ d.2.1 > 8388608 ∨ d.2.2.1 ≠ 0)

/-- The sequences of a `DECODE_ATTN`: number, tokens, pages, poison of what names them. -/
def attnSeqs (descs : List (Nat × Nat × Nat × Bool)) (tables : List CellBytes) : List (Nat × Nat × List Nat × Bool) :=
  (descs.zip tables).zipIdx.map fun e =>
    let b := e.1.2
    (e.2, e.1.1.2.1, (List.range ((e.1.1.2.1 + 15) / 16)).map (fun i => (elemAt b i 4).1), e.1.1.2.2.2 || b.any Prod.snd)

/-- Outputs of a `DECODE_ATTN`: elements of every head, flag bytes, and M and W of every head (R250). -/
def attnOutputs (q : AttnReq) : List (Nat × Nat) :=
  (q.out, q.nseq * attnHeads q * q.d * outElem q.ofmt) :: ((if q.flag = 0 then [] else [(q.flag, q.nseq)])
    ++ (if q.lse = 0 then [] else [(q.lse, 8 * q.nseq * attnHeads q)]))

/-- `DECODE_ATTN`. -/
def decodeAttnBody (c0 : Cmd) (s0 : State) : State :=
  let q := attnReq c0.words
  if attnValid q = false then finishWith c0 .invalid 0 s0
  else
    let (c, s) := markLate c0 20 s0
    let spoilt := attnOutputs q
    let (db, r) := readArray q.desc (16 * q.nseq) true { runOf c s with engine := 0 }
    if r.stopped || runBlocked r then concludeRun (stopOutputs spoilt r) {} s
    else
      let descs := (List.range q.nseq).map (attnDesc db)
      if descs.any attnDescBad then finishWith c .invalid 0 s
      else
        let (tables, r) := readTables (descs.map fun d => (d.1, d.2.1)) r
        let (qb, r) := readArray q.query (4 * q.d * attnHeads q * q.nseq) true r
        if r.stopped || runBlocked r then concludeRun (stopOutputs spoilt r) {} s
        else
          let (outs, r) := attnSequences q qb (attnSeqs descs tables) r
          if r.stopped || runBlocked r then concludeRun (stopOutputs spoilt r) {} s
          else
            let done := attnDeliver c (db ++ tables.flatten ++ qb) outs r
            concludeRun (stopOutputs spoilt done.2) done.1 s

/-! ### The end of a lookup from outside -/

/-- Outputs of a lookup, `SEQ_POOL` or `DECODE_ATTN` (Table 18.3, opcodes 0x80, 0x81, 0x84 and 0x86). -/
def commandOutputs (s : State) (c : Cmd) : List (Nat × Nat) :=
  let table := fun n => tabFind s.tbl.tables (tableKey c.tcx n)
  if c.opcode = 0x80 ∨ c.opcode = 0x81 then
    match table (field c.words 3 31 26) with
    | some t => lookupOutputs c.opcode t c.words
    | none => []
  else if c.opcode = 0x84 then
    match table (if (seqReq c.words).mode = 4 then field c.words 3 25 20 else field c.words 3 31 26) with
    | some t => seqOutputs t.width c.words
    | none => []
  else if c.opcode = 0x86 then attnOutputs (attnReq c.words)
  else []

/-- An abort or a fence that ends a dispatched lookup leaves its outputs unspecified (R223, Table 18.3). -/
def spoilOutputs (serial : Nat) (s : State) : State :=
  match s.q.cmds.find? fun c => c.serial = serial with
  | none => s
  | some c => match commandOutputs s c with
    | [] => s
    | l => if c.waiting then s else spoilRanges c.tcx l s

end Sys2Proof.Machine
end

