-- ==== Sys2Proof/Machine/Search.lean ====
section
/-!
DEFINITION. `SEARCH` and `SEARCH_COMPAT` (R252 to R277): the index, the scans of the channels, and the result.
-/

namespace Sys2Proof.Machine

/-! ### Request and index descriptor (Tables 13.1, 13.6) -/

structure SearchReq where
  given : Bool
  fshared : Bool
  hgate : Bool
  stop : Nat
  hmax : Nat
  nprobe : Nat
  k : Nat
  rr : Nat
  cap1 : Nat
  nq : Nat
  index : Nat
  query : Nat
  plist : Nat
  filter : Nat
  out : Nat
  flag : Nat
  pflag : Nat
  f32 : Nat
  q32 : Nat
deriving DecidableEq, Repr

def searchReq (ws : List Word) : SearchReq :=
  { given := flag ws 3 31, fshared := flag ws 3 30, hgate := flag ws 3 29, stop := field ws 3 23 20, hmax := field ws 3 11 0
    nprobe := field ws 4 25 16 + 1, k := field ws 4 11 0 + 1, rr := field ws 5 28 16, cap1 := field ws 5 8 0 + 1, nq := field ws 6 5 0 + 1
    index := word64 ws 8, query := word64 ws 10, plist := word64 ws 12, filter := word64 ws 14, out := word64 ws 16
    flag := word64 ws 18, pflag := word64 ws 20, f32 := word64 ws 22, q32 := word64 ws 24 }

structure IndexDesc where
  sketch : Nat
  l2 : Bool
  attrw : Nat
  d : Nat
  lists : Nat
  region : Nat
  dir : Nat
  cent : Nat
  cscale : Nat
  units : Nat
  rrbase : Nat
deriving DecidableEq, Repr

def indexDesc (b : CellBytes) : IndexDesc :=
  let w := fun i => (elemAt b i 4).1
  let d := fun i => (elemAt b (i / 2) 8).1
  { sketch := bits (w 0) 19 17, l2 := (w 0).testBit 16, attrw := bits (w 0) 15 12, d := 64 * bits (w 0) 5 0, lists := bits (w 1) 19 0 + 1
    region := d 2, dir := d 4, cent := d 6, cscale := w 8, units := w 9, rrbase := d 10 }

def fpPositive (b : Nat) : Bool := match fpDecode fp32 b with | .fin s m _ => !s && decide (m ≠ 0) | _ => false

/-- The checks of R252 on a descriptor. -/
def indexOk (b : CellBytes) : Bool :=
  let x := indexDesc b
  let w := fun i => (elemAt b i 4).1
  decide (bits (w 0) 31 20 = 0 ∧ bits (w 0) 11 6 = 0 ∧ bits (w 1) 31 20 = 0 ∧ w 12 = 0 ∧ w 13 = 0 ∧ w 14 = 0 ∧ w 15 = 0)
    && decide (x.sketch ≤ 3 ∧ x.attrw ≤ 8 ∧ (x.sketch = 0 ∨ x.attrw = 0) ∧ 64 ≤ x.d ∧ x.d ≤ 2048)
    && decide (x.region < 2 ^ 52 ∧ x.region % mib = 0 ∧ x.dir < 2 ^ 52 ∧ x.dir % 32 = 0 ∧ x.cent < 2 ^ 52 ∧ x.cent % 16 = 0 ∧ x.rrbase < 2 ^ 52 ∧ x.rrbase % 16 = 0)
    && (if x.cent = 0 then decide (x.cscale = 0) else fpPositive x.cscale)
    && (decide (x.sketch ≠ 0) || decide (x.rrbase = 0))

/-- Sketch width in bits; 0 in the native layout. -/
def sketchBits (x : IndexDesc) : Nat := if x.sketch = 0 then 0 else 128 * 2 ^ x.sketch

/-- Vectors per unit: V, or SPP (R254, R274). -/
def unitVectors (x : IndexDesc) : Nat := if x.sketch = 0 then min 512 (131072 / x.d) else 131072 / sketchBits x

def planeBytes (x : IndexDesc) : Nat := unitVectors x * x.d / 8
def recordBytes (x : IndexDesc) : Nat := 12 + 4 * x.attrw
def headBytes (x : IndexDesc) : Nat := 16384 * ((unitVectors x * recordBytes x + 16383) / 16384)
def blockBytes (x : IndexDesc) : Nat := headBytes x + 8 * planeBytes x

/-- DVA of unit `n`: a block, or a sketch page (R254, R274). -/
def unitDva (x : IndexDesc) (n : Nat) : Nat :=
  if x.sketch = 0 then
    let bpc := mib / blockBytes x
    x.region + n / bpc * mib + n % bpc * blockBytes x
  else x.region + n * 16384

/-- A query (R255): its scale, codes, sketch bits. -/
structure Query where
  scale : Val
  codes : List Int
  sketch : List Bool
deriving DecidableEq, Repr

def queryBytes (x : IndexDesc) : Nat := 64 + x.d + sketchBits x / 8

def byteBits (l : List Byte) : List Bool := l.flatMap fun b => (List.range 8).map fun j => b.getLsbD j

def queryOf (x : IndexDesc) (b : CellBytes) (i : Nat) : Query :=
  let r := (b.drop (i * queryBytes x)).take (queryBytes x)
  { scale := fpDecode fp32 (elemAt r 0 4).1
    codes := ((r.drop 64).take x.d).map fun e => signedBits 8 e.1.toNat
    sketch := byteBits ((r.drop (64 + x.d)).map Prod.fst) }

def qPlus (q : Query) : Int := (q.codes.map fun c => max c 0).sum
def qMinus (q : Query) : Int := (q.codes.map fun c => min c 0).sum
def qNorm (q : Query) : Int := (q.codes.map fun c => c * c).sum

/-- score of R257. -/
def searchScore (l2 : Bool) (q : Query) (sl : Val) (nx : Nat) (dot : Int) : Val :=
  let c := fpMul q.scale sl
  let fdot := roundVal fp32 (intVal dot)
  if !l2 then fpMul c fdot
  else
    let a := fpMul (fpMul q.scale q.scale) (roundVal fp32 (intVal (qNorm q)))
    let b := fpMul (roundVal fp32 (scaleVal 1 c)) fdot
    let d := fpMul (fpMul sl sl) (roundVal fp32 (intVal nx))
    fpAdd (fpAdd a (negVal b)) d

/-- `a` is a strictly better score than `b`. -/
def betterScore (l2 : Bool) (a b : Val) : Bool := if l2 then valLt a b else valLt b a

/-! ### Lists (R253, R256) -/

structure ListEntry where
  number : Nat
  first : Nat
  units : Nat
  vectors : Nat
  scale : Nat
  memValid : Bool
  hot : Bool
  memDva : Nat
  rrfirst : Nat
  /-- its directory entry is poisoned. -/
  bad : Bool
  ok : Bool
deriving DecidableEq, Repr

/-- Every byte of a memory copy lies in T1 or T2, where it is mapped. -/
def copyPlaced (s : State) (t dva n : Nat) : Bool :=
  (checkRange s t dva n .read).all fun p => match p.2.2 with
    | .at _ tpa => decide (regionOf tpa = .hbm ∨ regionOf tpa = .dram)
    | _ => true

/-- Entry `l` of the directory and whether it is well formed (R253, R269). -/
def listEntry (s : State) (t : Nat) (x : IndexDesc) (l : Nat) (b : CellBytes) : ListEntry :=
  let w := fun i => (elemAt b i 4).1
  let m := (elemAt b 2 8).1
  let rr := (elemAt b 3 8).1
  let uv := unitVectors x
  let units := w 1
  let vectors := w 2
  let memValid := m.testBit 63
  let hot := m.testBit 62
  let ok := decide (vectors = 0 ∨ units = (vectors + uv - 1) / uv) && decide (w 0 + units ≤ x.units) && fpPositive (w 3)
    && decide (bits m 61 52 = 0 ∧ rr < 2 ^ 40) && (decide (x.sketch ≠ 0) || decide (rr = 0)) && (!hot || memValid)
    && (decide (x.sketch = 0) || !memValid)
    && (!memValid || copyPlaced s t (m % 2 ^ 52) (units * blockBytes x))
  { number := l, first := w 0, units := units, vectors := vectors, scale := w 3, memValid := memValid, hot := hot, memDva := m % 2 ^ 52
    rrfirst := rr, bad := b.any Prod.snd, ok := ok }

def readLists (x : IndexDesc) : List Nat → Run → List ListEntry × Run
  | [], r => ([], r)
  | l :: rest, r =>
    let (b, r) := readRange (x.dir + 32 * l) 32 r
    let (ls, r) := readLists x rest r
    (listEntry r.s r.cmd.tcx x l (b.getD []) :: ls, r)

/-- Centroid records with their poison: NORM and codes (R256). -/
def readCentroids (x : IndexDesc) : Nat → Nat → Run → List (Nat × List Int × Bool) × Run
  | 0, _, r => ([], r)
  | fuel + 1, l, r =>
    let (b, r) := readRange (x.cent + l * (x.d + 16)) (x.d + 16) r
    let b := b.getD []
    let (rest, r) := readCentroids x fuel (l + 1) r
    (((elemAt b 0 4).1, (b.drop 16).map (fun e => signedBits 8 e.1.toNat), b.any Prod.snd) :: rest, r)

def dotOf (a b : List Int) : Int := ((a.zip b).map fun p => p.1 * p.2).sum

/-- The lists of a query by centroid, best first, ties to the lower number; a poisoned record is never chosen. [DEDUCED, log 44] -/
def chooseLists (x : IndexDesc) (n : Nat) (cents : List (Nat × List Int × Bool)) (q : Query) : List Nat :=
  let scored := (cents.zipIdx.filter fun e => !e.1.2.2).map fun e =>
    (e.2, searchScore x.l2 q (fpDecode fp32 x.cscale) e.1.1 (dotOf q.codes e.1.2.1))
  ((scored.mergeSort fun a b => betterScore x.l2 a.2 b.2 || (!betterScore x.l2 b.2 a.2 && decide (a.1 ≤ b.1))).take n).map (·.1)

/-! ### Filters (R263, R264) -/

structure Filter where
  terms : List (Bool × Bool × Nat × Nat × Nat)
  allow : Option (Nat × Nat)
deriving DecidableEq, Repr

def filterOf (b : CellBytes) : Filter :=
  let w := fun i => (elemAt b i 4).1
  { terms := ((List.range 16).filter fun t => (w (2 * t)).testBit 31).map fun t =>
      ((w (2 * t)).testBit 30, (w (2 * t)).testBit 29, bits (w (2 * t)) 28 26, bits (w (2 * t)) 2 0, w (2 * t + 1))
    allow := if (w 33).testBit 31 then some ((elemAt b 16 8).1 % 2 ^ 52, (elemAt b 17 8).1) else none }

/-- Reserved fields and encodings of a filter block (R263, R266). -/
def filterOk (x : IndexDesc) (b : CellBytes) : Bool :=
  let w := fun i => (elemAt b i 4).1
  ((List.range 16).all fun t => decide (bits (w (2 * t)) 25 3 = 0) && (!(w (2 * t)).testBit 31 || decide (bits (w (2 * t)) 2 0 < x.attrw)))
    && decide (bits (w 33) 30 20 = 0 ∧ bits (w 35) 31 8 = 0 ∧ w 36 = 0 ∧ w 37 = 0 ∧ w 38 = 0 ∧ w 39 = 0)
    && (!(w 33).testBit 31 || decide (1 ≤ (elemAt b 17 8).1))

/-- CMP of Table 10.4. -/
def compareHolds (cmp f k : Nat) : Bool :=
  match cmp with
  | 0 => decide (f = k)
  | 1 => decide (f ≠ k)
  | 2 => decide (f < k)
  | 3 => decide (f ≥ k)
  | 4 => decide (signedBits 32 f < signedBits 32 k)
  | 5 => decide (signedBits 32 f ≥ signedBits 32 k)
  | 6 => decide (f &&& k ≠ 0)
  | _ => decide (f &&& k = 0)

/-- The predicate program, left to right (R263). -/
def predicate (f : Filter) (attrs : List Nat) : Bool :=
  let value := fun (t : Bool × Bool × Nat × Nat × Nat) => (compareHolds t.2.2.1 (attrs.getD t.2.2.2.1 0) t.2.2.2.2) ^^ t.1
  match f.terms with
  | [] => true
  | t :: rest => rest.foldl (fun acc t => if t.2.1 then acc || value t else acc && value t) (value t)

/-- The allow-bitmap lies in T0, T1 or T2 where it is mapped (R264, R266). -/
def allowPlaced (s : State) (t : Nat) (f : Filter) : Bool :=
  match f.allow with
  | none => true
  | some (dva, n) => (checkRange s t dva ((n + 7) / 8) .read).all fun p => match p.2.2 with
    | .at _ tpa => decide (regionOf tpa = .row ∨ regionOf tpa = .hbm ∨ regionOf tpa = .dram)
    | _ => true

/-- Whether the bitmap allows an ID, and whether the line that decides it is poisoned. -/
def allowed (f : Filter) (id : Nat) (r : Run) : Bool × Bool × Run :=
  match f.allow with
  | none => (true, false, r)
  | some (dva, n) =>
    if id ≥ n then (false, false, r)
    else
      let (b, r) := readTile (dva + id / 8) 1 r
      let e := (b.getD []).headD (0, true)
      (!e.2 && e.1.getLsbD (id % 8), e.2, r)

/-! ### Candidates -/

/-- A candidate of a query: where its vector lies and the dot product over its known planes (R258, R259). -/
structure Cand where
  q : Nat
  list : Nat
  chan : Nat
  unit : Nat
  pos : Nat
  id : Nat
  norm : Nat
  s : Int
  p : Nat
  fromCopy : Bool
deriving DecidableEq, Repr

/-- The whole request as it has been read. -/
structure SearchCtx where
  req : SearchReq
  x : IndexDesc
  queries : List Query
  filters : List Filter
  /-- the well-formed, non-empty lists that some query probes. -/
  lists : List ListEntry
  /-- list numbers that each query probes, each once. -/
  probes : List (List Nat)
deriving DecidableEq, Repr

def ctxQuery (c : SearchCtx) (q : Nat) : Query := c.queries.getD q ⟨.nan, [], []⟩
def ctxFilter (c : SearchCtx) (q : Nat) : Filter := c.filters.getD (if c.req.fshared then 0 else q) ⟨[], none⟩
def ctxList (c : SearchCtx) (l : Nat) : Option ListEntry := c.lists.find? fun e => e.number = l
def listScale (c : SearchCtx) (l : Nat) : Val := ((ctxList c l).map fun e => fpDecode fp32 e.scale).getD .nan

def scoreAt (c : SearchCtx) (k : Cand) (dot : Int) : Val := searchScore c.x.l2 (ctxQuery c k.q) (listScale c k.list) k.norm dot

/-- Worst-case score: score(LB). -/
def worstOf (c : SearchCtx) (k : Cand) : Val := scoreAt c k (k.s + (2 ^ k.p - 1) * qMinus (ctxQuery c k.q))
/-- Best-case score: score(UB). -/
def bestOf (c : SearchCtx) (k : Cand) : Val := scoreAt c k (k.s + (2 ^ k.p - 1) * qPlus (ctxQuery c k.q))

/-- τ of a query: the K-th best worst-case score, while K candidates are held (R260). -/
def tauOf (c : SearchCtx) (q : Nat) (cands : List Cand) : Option Val :=
  let w := ((cands.filter fun k => k.q = q).map (worstOf c)).mergeSort fun a b => !betterScore c.x.l2 b a
  if w.length < c.req.k then none else w[c.req.k - 1]?

/-- The better of two thresholds. -/
def betterTau (l2 : Bool) (a b : Option Val) : Option Val :=
  match a, b with
  | none, b => b
  | a, none => a
  | some x, some y => some (if betterScore l2 y x then y else x)

/-- Prunes the candidates whose best case is strictly worse than τ of their query. -/
def prune (c : SearchCtx) (tau : Nat → Option Val) (cands : List Cand) : List Cand :=
  cands.filter fun k => match tau k.q with
    | none => true
    | some t => !betterScore c.x.l2 t (bestOf c k)

/-! ### Reading -/

/-- How a read of the index answers. -/
inductive Got where
  | bytes (b : CellBytes)
  /-- flash data not delivered. -/
  | wait
  /-- the read would come too late and is not issued (R103). -/
  | early
deriving DecidableEq, Repr

/-- Reads bytes of the index (R268): flash granules not yet delivered are waited for, or have spilled. -/
def searchRead (dva n : Nat) (r : Run) : Got × Run :=
  let missing := (checkRange r.s r.cmd.tcx dva n .read).flatMap fun p => match p.2.2 with
    | .at _ tpa => missingT3 r.cmd tpa p.2.1
    | _ => []
  let awaited := (checkRange r.s r.cmd.tcx dva n .read).flatMap fun p => match p.2.2 with
    | .at _ tpa => if windowAwaited r.s r.cmd tpa p.2.1 then [tpa / 4096] else []
    | _ => []
  let missing := missing ++ awaited
  if spills r.cmd && missing.any (fun g => r.cmd.early.contains g) then (.early, r)
  else if missing ≠ [] then (.wait, if r.cmd.cut then r else { r with t3 := r.t3 ++ missing })
  else
    let (b, r) := readTile dva n r
    (.bytes (b.getD []), noteDva dva n none r)

/-- The bits of vector `pos` in a plane that was read from `from_`, and its poison. -/
def planeBits (x : IndexDesc) (plane : CellBytes) (pos : Nat) : List Bool × Bool :=
  let b := (plane.drop (pos * x.d / 8)).take (x.d / 8)
  (byteBits (b.map Prod.fst), b.any Prod.snd)

/-- Σ q_e over the set bits. -/
def dotBits (q : Query) (l : List Bool) : Int := ((q.codes.zip l).map fun p => if p.2 then p.1 else 0).sum

/-- Adds a plane to a candidate; the sign plane weighs −128 (R255). -/
def addPlane (c : SearchCtx) (p : Nat) (l : List Bool) (k : Cand) : Cand :=
  let d := dotBits (ctxQuery c k.q) l
  { k with s := k.s + (if p = 7 then -128 * d else 2 ^ p * d), p := p }

/-- A unit of a probed list as a scan finds it: where it is read from, its channel. -/
structure ScanUnit where
  list : ListEntry
  unit : Nat
  dva : Nat
  chan : Nat
  fromCopy : Bool
deriving DecidableEq, Repr

/-- NAND channel of a unit; 64 where it does not lie on flash. -/
def unitChannel (s : State) (t : Nat) (x : IndexDesc) (n : Nat) : Nat :=
  match checkByte s t (unitDva x n) .read with
  | .at _ tpa => if regionOf tpa = .flash then (cellOf s tpa - 2 ^ 60) / 2 ^ 44 else 64
  | _ => 64

/-- The units of a list (R269: from the memory copy when HOT, or when the channel has failed). -/
def unitsOf (s : State) (t : Nat) (x : IndexDesc) (l : ListEntry) : List ScanUnit :=
  (List.range l.units).map fun i =>
    let n := l.first + i
    let ch := unitChannel s t x n
    let copy := l.memValid && (l.hot || (decide (ch < 64) && decide ((nandOf s ch).health = .failed)))
    ⟨l, n, if copy then l.memDva + i * blockBytes x else unitDva x n, ch, copy⟩

/-- All units of the command, in ascending unit number. -/
def allUnits (s : State) (t : Nat) (c : SearchCtx) : List ScanUnit :=
  (c.lists.flatMap (unitsOf s t c.x)).mergeSort fun a b => a.unit ≤ b.unit

/-- Vector positions of a unit that hold vectors of its list. -/
def unitCount (c : SearchCtx) (u : ScanUnit) : Nat := min (unitVectors c.x) (u.list.vectors - (u.unit - u.list.first) * unitVectors c.x)

/-- Queries that probe a list. -/
def queriesOf (c : SearchCtx) (l : Nat) : List Nat := (List.range c.req.nq).filter fun q => (c.probes.getD q []).contains l

/-! ### Stages 1 and 2 of one unit (R259, R260) -/

/-- What a unit gives: candidates, poison marks (query, list), spilled, or awaited. -/
structure UnitOut where
  cands : List Cand := []
  poison : List (Nat × Nat) := []
  spilled : Bool := false
  waits : Bool := false
deriving DecidableEq, Repr

/-- Keeps at most CAP1, the best by a key, ties to the lower position (R259, R275). -/
def capBest (n : Nat) (le : Cand → Cand → Bool) (l : List Cand) : List Cand := (l.mergeSort le).take n

/-- Filters the positions of a unit for one query by their IDs, reading the allow-bitmap. -/
def allowAll (f : Filter) : List Cand → Run → List Cand × Bool × Run
  | [], r => ([], false, r)
  | k :: rest, r =>
    let (ok, bad, r) := allowed f k.id r
    let (l, bad', r) := allowAll f rest r
    (if ok then k :: l else l, bad || bad', r)

/-- Stage 1 for one query of a native block. -/
def stageOne (c : SearchCtx) (u : ScanUnit) (head plane : CellBytes) (q : Nat) (r : Run) : List Cand × Bool × Run :=
  let qu := ctxQuery c q
  let f := ctxFilter c q
  let rb := recordBytes c.x
  let rows := (List.range (unitCount c u)).map fun v =>
    let rec_ := (head.drop (v * rb)).take rb
    let pb := planeBits c.x plane v
    let h := ((qu.codes.zip pb.1).filter fun p => decide (p.1 < 0) ^^ p.2).length
    let attrs := (List.range c.x.attrw).map fun w => (elemAt (rec_.drop 12) w 4).1
    let k : Cand := { q := q, list := u.list.number, chan := u.chan, unit := u.unit, pos := v, id := (elemAt rec_ 0 8).1
                      norm := (elemAt (rec_.drop 8) 0 4).1, s := -128 * dotBits qu pb.1, p := 7, fromCopy := u.fromCopy }
    (k, rec_.any Prod.snd || pb.2, !(c.req.hgate && decide (h > c.req.hmax)) && predicate f attrs)
  let good := ((rows.filter fun e => !e.2.1 && e.2.2).map (·.1))
  let (kept, badMap, r) := allowAll f good r
  let le := fun a b => betterScore c.x.l2 (bestOf c a) (bestOf c b) || (!betterScore c.x.l2 (bestOf c b) (bestOf c a) && decide (a.pos ≤ b.pos))
  (capBest c.req.cap1 le kept, rows.any (fun e => e.2.1) || badMap, r)

/-- Stage 1 for the queries that probe the list. -/
def stageOneAll (c : SearchCtx) (u : ScanUnit) (head plane : CellBytes) : List Nat → Run → List Cand × List (Nat × Nat) × Run
  | [], r => ([], [], r)
  | q :: rest, r =>
    let (l, bad, r) := stageOne c u head plane q r
    let (l', p, r) := stageOneAll c u head plane rest r
    (l ++ l', (if bad then (q, u.list.number) :: p else p), r)

/-- Stage 2 of a block: prune and read the next plane while a candidate survives (R260). -/
def stageTwo (c : SearchCtx) (u : ScanUnit) (tau : List Cand → Nat → Option Val) : Nat → UnitOut → Run → UnitOut × Run
  | 0, o, r => (o, r)
  | p + 1, o, r =>
    let cands := prune c (tau o.cands) o.cands
    if p < c.req.stop ∨ cands = [] then ({ o with cands := cands }, r)
    else
      match searchRead (u.dva + headBytes c.x + (7 - p) * planeBytes c.x) (planeBytes c.x) r with
      | (.wait, r) => ({ o with cands := [], waits := true }, r)
      | (.early, r) => ({ o with cands := [], spilled := true }, r)
      | (.bytes b, r) =>
        let marked := cands.map fun k => let pb := planeBits c.x b k.pos; (addPlane c p pb.1 k, pb.2)
        stageTwo c u tau p { o with cands := (marked.filter fun e => !e.2).map (·.1)
                                    poison := o.poison ++ (marked.filter fun e => e.2).map fun e => (e.1.q, e.1.list) } r

/-- Stages 1 and 2 of a native block; `held`: the engine's candidates of earlier blocks, `others`: τ of the other engines. -/
def scanBlock (c : SearchCtx) (others : Nat → Option Val) (held : List Cand) (u : ScanUnit) (r : Run) : UnitOut × Run :=
  match searchRead u.dva (unitVectors c.x * recordBytes c.x) r with
  | (.wait, r) => ({ waits := true }, r)
  | (.early, r) => ({ spilled := true }, r)
  | (.bytes head, r) =>
    match searchRead (u.dva + headBytes c.x) (planeBytes c.x) r with
    | (.wait, r) => ({ waits := true }, r)
    | (.early, r) => ({ spilled := true }, r)
    | (.bytes plane, r) =>
      let (cands, poison, r) := stageOneAll c u head plane (queriesOf c u.list.number) r
      let tau := fun l q => betterTau c.x.l2 (tauOf c q (held ++ l)) (others q)
      let o : UnitOut := { cands := cands, poison := poison }
      let (o, r) := stageTwo c u tau 7 o r
      (o, r)

/-- The sketch stage of a page (R275): at most CAP1 sketches with the lowest Hamming distance. The norm field holds the distance. -/
def scanPage (c : SearchCtx) (u : ScanUnit) (r : Run) : UnitOut × Run :=
  match searchRead u.dva 16384 r with
  | (.wait, r) => ({ waits := true }, r)
  | (.early, r) => ({ spilled := true }, r)
  | (.bytes b, r) =>
    let sb := sketchBits c.x
    let per := (queriesOf c u.list.number).map fun q =>
      let qs := (ctxQuery c q).sketch
      let rows := (List.range (unitCount c u)).map fun v =>
        let e := (b.drop (v * sb / 8)).take (sb / 8)
        let h := ((qs.zip (byteBits (e.map Prod.fst))).filter fun p => p.1 ^^ p.2).length
        (({ q := q, list := u.list.number, chan := u.chan, unit := u.unit, pos := v, id := 0, norm := h, s := 0, p := 7, fromCopy := false } : Cand),
          e.any Prod.snd)
      let good := (rows.filter fun e => !e.2 && !(c.req.hgate && decide (e.1.norm > c.req.hmax))).map (·.1)
      (capBest c.req.cap1 (fun a b => decide (a.norm < b.norm ∨ (a.norm = b.norm ∧ a.pos ≤ b.pos))) good,
        if rows.any fun e => e.2 then [(q, u.list.number)] else [])
    ({ cands := per.flatMap (·.1), poison := per.flatMap (·.2) }, r)

/-! ### The scan of a channel (R268) -/

/-- What a channel's scan gives: candidates, poison, the items (list, channel) that spilled, and whether it still waits. -/
structure ScanOut where
  cands : List Cand := []
  poison : List (Nat × Nat) := []
  spilled : List (Nat × Nat × Nat) := []
  waits : Bool := false
deriving DecidableEq, Repr

/-- Takes the units of a channel in order; an item that spills loses its candidates (R270). Reasons are Table 5.6 offsets. [DEDUCED, log 44] -/
def scanUnits (c : SearchCtx) (others : Nat → Option Val) : List ScanUnit → ScanOut → Run → ScanOut × Run
  | [], o, r => (o, r)
  | u :: rest, o, r =>
    if r.stopped || o.waits then (o, r)
    else if o.spilled.any fun e => e.1 = u.list.number && e.2.1 = u.chan then scanUnits c others rest o r
    else
      let (x, r) := if c.x.sketch = 0 then scanBlock c others o.cands u r else scanPage c u r
      if x.waits && !r.cmd.cut then scanUnits c others rest { o with waits := true } r
      else if x.waits || x.spilled then
        scanUnits c others rest { o with
          cands := o.cands.filter fun k => !(k.list = u.list.number && k.chan = u.chan)
          spilled := o.spilled ++ [(u.list.number, u.chan, if x.waits then 0x40 else 0x48)] } r
      else scanUnits c others rest { o with cands := o.cands ++ x.cands, poison := o.poison ++ x.poison } r

/-- τ that the other engines of a command have sent, per query (R260). [DEDUCED, log 44] -/
def exchangedTau (c : SearchCtx) (run : SearchRun) (chan : Nat) (q : Nat) : Option Val :=
  ((run.tau.filter fun e => e.1 / 64 ≠ chan && decide (e.1 % 64 = q)).map fun e => fpDecode fp32 e.2.toNat).foldl
    (fun acc v => betterTau c.x.l2 acc (some v)) none

/-- Channels of the units that are read from flash; 64 stands for the memory copies. -/
def unitEngine (u : ScanUnit) : Nat := if u.fromCopy then 64 else u.chan

def engineChannels (units : List ScanUnit) : List Nat := (units.map unitEngine).dedup

/-- The scan of a channel runs, or has ended. -/
def scanStarted (s : State) (serial ch : Nat) : Bool :=
  decide (ch ≥ 64) || (match tabFind s.srch.running ch with | some sc => decide (sc.serial = serial) | none => false)
    || (match tabFind s.srch.runs serial with | some run => !run.open_.contains ch | none => false)

/-- Stages 1 and 2 on every channel; a channel whose scan has not started waits. -/
def scanAll (c : SearchCtx) (run : SearchRun) (units : List ScanUnit) : List Nat → Run → List (Nat × ScanOut) × Run
  | [], r => ([], r)
  | ch :: rest, r =>
    let mine := units.filter fun u => unitEngine u = ch
    let (o, r) :=
      if scanStarted r.s r.cmd.serial ch then scanUnits c (exchangedTau c run ch) mine {} r
      else if r.cmd.cut then ({ spilled := (mine.map fun u => (u.list.number, u.chan, 0x40)).dedup }, r)
      else ({ waits := true }, r)
    let (l, r) := scanAll c run units rest r
    ((ch, o) :: l, r)

/-! ### Stage 3 and the result (R261, R275) -/

/-- Reads the remaining planes of a survivor; none while it waits or spills. `drop`: it is poisoned. -/
def finishPlanes (c : SearchCtx) (u : ScanUnit) (k : Cand) : Nat → Cand → Run → Got × Cand × Bool × Run
  | 0, k, r => (.bytes [], k, false, r)
  | p + 1, k', r =>
    match searchRead (u.dva + headBytes c.x + (7 - p) * planeBytes c.x + k.pos * c.x.d / 8) (c.x.d / 8) r with
    | (.bytes b, r) =>
      if b.any Prod.snd then (.bytes [], k', true, r)
      else finishPlanes c u k p (addPlane c p (byteBits (b.map Prod.fst)) k') r
    | (g, r) => (g, k', false, r)

/-- Reads the rerank record of a kept sketch (R274): ID, NORM and codes give the exact dot product. -/
def finishRecord (c : SearchCtx) (u : ScanUnit) (k : Cand) (r : Run) : Got × Cand × Bool × Run :=
  let m := (k.unit - u.list.first) * unitVectors c.x + k.pos
  match searchRead (c.x.rrbase + (u.list.rrfirst + m) * (16 + c.x.d)) (16 + c.x.d) r with
  | (.bytes b, r) =>
    let codes := (b.drop 16).map fun e => signedBits 8 e.1.toNat
    (.bytes [], { k with id := (elemAt b 0 8).1, norm := (elemAt (b.drop 8) 0 4).1, s := dotOf (ctxQuery c k.q).codes codes, p := 0 },
      b.any Prod.snd, r)
  | (g, r) => (g, k, false, r)

/-- Finishes every survivor: the finished ones, those dropped for poison, and the items that spilled. -/
def finishAllCands (c : SearchCtx) (units : List ScanUnit) : List Cand → ScanOut → Run → ScanOut × Run
  | [], o, r => (o, r)
  | k :: rest, o, r =>
    if r.stopped then (o, r)
    else match units.find? fun u => u.list.number = k.list && u.unit = k.unit with
      | none => finishAllCands c units rest o r
      | some u =>
        let (g, k', bad, r) := if c.x.sketch = 0 then finishPlanes c u k c.req.stop k r else finishRecord c u k r
        match g with
        | .wait =>
          if r.cmd.cut then finishAllCands c units rest { o with spilled := o.spilled ++ [(k.list, k.chan, 0x40)] } r
          else finishAllCands c units rest { o with waits := true } r
        | .early => finishAllCands c units rest { o with spilled := o.spilled ++ [(k.list, k.chan, 0x48)] } r
        | .bytes _ =>
          if bad then finishAllCands c units rest { o with poison := o.poison ++ [(k.q, k.list)] } r
          else
            let (ok, badMap, r) := if c.x.sketch = 0 then (true, false, r) else allowed (ctxFilter c k.q) k'.id r
            let o := if badMap then { o with poison := o.poison ++ [(k.q, k.list)] } else o
            finishAllCands c units rest (if ok then { o with cands := o.cands ++ [k'] } else o) r

/-- Order of results: better score, then lower ID, list, unit and position (R257). -/
def resultBefore (l2 : Bool) (a b : Val × Cand) : Bool :=
  if betterScore l2 a.1 b.1 then true
  else if betterScore l2 b.1 a.1 then false
  else decide (a.2.id < b.2.id ∨ (a.2.id = b.2.id ∧ (a.2.list < b.2.list ∨ (a.2.list = b.2.list ∧
    (a.2.unit < b.2.unit ∨ (a.2.unit = b.2.unit ∧ a.2.pos ≤ b.2.pos))))))

/-- A result entry (R267): ID, SCORE bits, list, EFLAGS, poison. -/
structure Entry16 where
  id : Nat
  score : Nat
  list : Nat
  eflags : Nat
  bad : Bool
deriving DecidableEq, Repr

def entryBytes (e : Entry16) : CellBytes :=
  markBytes 8 e.id e.bad ++ markBytes 4 e.score e.bad ++ markBytes 3 e.list e.bad ++ markBytes 1 e.eflags e.bad

def emptyEntry : Entry16 := ⟨2 ^ 64 - 1, 0x7FC00000, 0xFFFFFF, 0, false⟩

/-- FP32 elements of a vector and their poison. -/
def fpVector (b : CellBytes) (d : Nat) : List Val × Bool := ((List.range d).map (fun i => fpDecode fp32 (elemAt b i 4).1), b.any Prod.snd)

/-- The FP32 score of R262, in ascending order of elements. -/
def rerankScore (l2 : Bool) (q x : List Val) : Val :=
  (q.zip x).foldl (fun s p => if l2 then let d := fpAdd p.1 (negVal p.2); fpAdd s (fpMul d d) else fpAdd s (fpMul p.1 p.2)) (.fin false 0 0)

/-- Reranks the first RR results of a query (R262). -/
def rerankReads (c : SearchCtx) (qv : List Val × Bool) : List (Val × Cand) → Run → List (Val × Cand × Bool) × Run
  | [], r => ([], r)
  | e :: rest, r =>
    let (b, r) := readRange (c.req.f32 + e.2.id * 4 * c.x.d) (4 * c.x.d) r
    let x := fpVector (b.getD []) c.x.d
    let (l, r) := rerankReads c qv rest r
    ((rerankScore c.x.l2 qv.1 x.1, e.2, x.2 || qv.2) :: l, r)

/-- The results of one query. -/
def queryResult (c : SearchCtx) (q32 : CellBytes) (q : Nat) (cands : List Cand) (r : Run) : List Entry16 × Run :=
  let scored := ((cands.filter fun k => k.q = q).map fun k => (scoreAt c k k.s, k)).mergeSort (resultBefore c.x.l2)
  let best := scored.take c.req.k
  let plain := fun (e : Val × Cand) => (⟨e.2.id, fpEncode fp32 e.1, e.2.list, (if e.2.fromCopy then 2 else 0), false⟩ : Entry16)
  let (top, r) := if c.req.rr = 0 then ([], r)
    else rerankReads c (fpVector ((q32.drop (q * 4 * c.x.d)).take (4 * c.x.d)) c.x.d) (best.take c.req.rr) r
  let top := top.mergeSort fun a b => betterScore c.x.l2 a.1 b.1 || (!betterScore c.x.l2 b.1 a.1 && decide (a.2.1.id ≤ b.2.1.id))
  let first := top.map fun e => (⟨e.2.1.id, fpEncode fp32 e.1, e.2.1.list, 1 + (if e.2.1.fromCopy then 2 else 0), e.2.2⟩ : Entry16)
  let l := first ++ (best.drop c.req.rr).map plain
  (l ++ List.replicate (c.req.k - l.length) emptyEntry, r)

def queryResults (c : SearchCtx) (q32 : CellBytes) (cands : List Cand) : List Nat → Run → List (List Entry16) × Run
  | [], r => ([], r)
  | q :: rest, r =>
    let (l, r) := queryResult c q32 q cands r
    let (ls, r) := queryResults c q32 cands rest r
    (l :: ls, r)

/-! ### The command -/

/-- A polder's search format fits the opcode (R266). -/
def formatFits (op : Nat) (modes : BitVec 32) : Bool := decide (modeSfmt modes = if op = 0x88 then 1 else 2)

/-- The checks on the request alone (R265, R266). -/
def searchValid (op : Nat) (q : SearchReq) (p : Polder) (modes : BitVec 32) : Bool :=
  decide (q.stop ≤ 7 ∧ q.hmax ≤ 2048 ∧ (q.hgate ∨ q.hmax = 0) ∧ q.rr ≤ q.k) && (decide (op = 0x88) || decide (q.stop = 0))
    && formatFits op modes && decide (poolBytes p ≠ 0 ∧ p.cores ≠ 0) && (decide (q.rr = 0) || decide (p.crown ≠ 0))
    && (if q.given then decide (q.plist ≠ 0) else decide (q.plist = 0))
    && (if q.rr = 0 then decide (q.f32 = 0 ∧ q.q32 = 0) else decide (q.f32 ≠ 0 ∧ q.q32 ≠ 0)) && decide (q.index % 64 = 0)

/-- The rerank copies lie in T1 or T2 (R266). -/
def f32Placed (s : State) (t dva : Nat) : Bool :=
  match checkByte s t dva .read with
  | .at _ tpa => decide (regionOf tpa = .hbm ∨ regionOf tpa = .dram)
  | _ => true

/-- Bytes of work pool of a search. -/
def searchPool (q : SearchReq) : Nat := q.nq * (65536 * 32 + q.k * 16)

/-- What reading the request and the index gives: done (answered or blocked), or the context, the probes as named, the
lists whose entry is poisoned, and the bytes of INPUT. -/
structure SearchRead where
  ctx : SearchCtx
  named : List (List Nat)
  entries : List ListEntry
  centBad : Bool
  q32 : CellBytes
  input : List Byte
deriving DecidableEq, Repr

/-- Units that a query probes. -/
def probedUnits (c : SearchCtx) (q : Nat) : Nat := (((c.probes.getD q []).filterMap (ctxList c)).map (·.units)).sum

/-- Reads everything a search needs before its scans; the state it leads to when it goes no further. -/
def searchPrepare (op : Nat) (c : Cmd) (s : State) : Except State (SearchRead × Run) :=
  let q := searchReq c.words
  let p := polderOf s c.polder
  let words := c.words.mapIdx fun i w => if i = 0 then w ||| 0x8000 else w
  if searchValid op q p c.modes = false then .error (finishWith c .invalid 0 s)
  else
    let (db, r) := readArray q.index 64 true { runOf { c with words := words } s with engine := 3 }
    if r.stopped || runBlocked r then .error (concludeRun r {} s)
    else if db.any Prod.snd then .error (concludeRun r { status := .poisoned } s)
    else if indexOk db = false ∨ (op = 0x88) ≠ ((indexDesc db).sketch = 0) then .error (finishWith c .invalid 0 s)
    else
      let x := indexDesc db
      let (qb, r) := readArray q.query (q.nq * queryBytes x) true r
      let (pb, r) := readArray q.plist (4 * q.nq * q.nprobe) q.given r
      let nf := if q.fshared then 1 else q.nq
      let (fb, r) := readArray q.filter (160 * nf) (q.filter ≠ 0) r
      let (q32, r) := readArray q.q32 (q.nq * 4 * x.d) (q.rr ≠ 0) r
      if r.stopped || runBlocked r then .error (concludeRun r {} s)
      else if qb.any Prod.snd || fb.any Prod.snd then .error (concludeRun r { status := .poisoned } s)
      else
        let blocks := if q.filter = 0 then [] else (List.range nf).map fun i => (fb.drop (160 * i)).take 160
        let filters := blocks.map filterOf
        let queries := (List.range q.nq).map (queryOf x qb)
        let scalesOk := (List.range q.nq).all fun i => fpPositive (elemAt (qb.drop (i * queryBytes x)) 0 4).1
        if !scalesOk || !blocks.all (filterOk x) || !filters.all (allowPlaced s c.tcx) || (!q.given && decide (x.cent = 0))
            || decide (q.cap1 > unitVectors x) || (decide (op = 0x89) && filters.any fun f => decide (f.terms ≠ []))
            || (decide (q.rr ≠ 0) && (!f32Placed s c.tcx q.f32 || decide (q.rr * x.d > 32768 * popcount 32 p.crown.toNat)))
            || decide (searchPool q > poolBytes p) then .error (finishWith c .invalid 0 s)
        else
          let (cents, r) := if q.given then ([], r) else readCentroids x x.lists 0 r
          if r.stopped || runBlocked r then .error (concludeRun r {} s)
          else
            let named := (List.range q.nq).map fun i =>
              if q.given then (List.range q.nprobe).map fun j => (elemAt pb (i * q.nprobe + j) 4).1
              else chooseLists x q.nprobe cents (queries.getD i ⟨.nan, [], []⟩)
            let numbers := (named.flatten.filter fun l => l < x.lists).dedup
            let (entries, r) := readLists x numbers r
            if r.stopped || runBlocked r then .error (concludeRun r {} s)
            else
              let lists := entries.filter fun e => e.ok && !e.bad && decide (e.vectors ≠ 0)
              let probes := named.map fun l => l.dedup.filter fun n => lists.any fun e => e.number = n
              let ctx : SearchCtx := ⟨q, x, queries, filters, lists, probes⟩
              if (List.range q.nq).any fun i => decide (q.cap1 * probedUnits ctx i > 65536) then .error (finishWith c .invalid 0 s)
              else
                let r := checkWhole q.out (16 * q.nq * q.k) .write 0x3 (fun _ => false) r
                let r := if q.flag = 0 || r.stopped then r else checkWhole q.flag q.nq .write 0x3 (fun _ => false) r
                let r := if q.pflag = 0 || r.stopped then r else checkWhole q.pflag (q.nq * q.nprobe) .write 0x3 (fun _ => false) r
                if r.stopped then .error (concludeRun r {} s)
                else .ok (⟨ctx, named, entries, cents.any (fun e => e.2.2), q32, (db ++ qb ++ pb ++ fb ++ q32).map Prod.fst⟩, r)

/-- Writes the results and completes the command (R267, R271, R272). -/
def searchPublish (sr : SearchRead) (cands : List Cand) (poison : List (Nat × Nat)) (spilled : List (Nat × Nat × Nat)) (r : Run) (s0 : State) : State :=
  let c := sr.ctx
  let q := c.req
  let items := spilled.foldl (fun acc e => if acc.any fun f => f.1 = e.1 && f.2.1 = e.2.1 then acc else acc ++ [e]) ([] : List (Nat × Nat × Nat))
  let r := items.foldl (fun r e => countFallback 0x68 (tdcRun 1 (countFallback e.2.2 r))) r
  let (results, r) := queryResults c sr.q32 cands (List.range q.nq) r
  if r.stopped || runBlocked r then concludeRun r {} s0
  else
    let entry := fun l => sr.entries.find? fun e => e.number = l
    let listFlags := fun (qi l : Nat) =>
      let range := decide (l ≥ c.x.lists) || (entry l).any fun e => !e.ok && !e.bad
      let bad := (entry l).any (·.bad) || poison.contains (qi, l)
      let spill := items.any fun e => e.1 = l
      let copy := (entry l).any fun e => e.ok && !e.bad && decide (e.vectors ≠ 0) && (unitsOf r.s r.cmd.tcx c.x e).any (·.fromCopy)
      (if spill then 1 else 0) + (if bad then 2 else 0) + (if copy then 4 else 0) + (if range then 8 else 0)
    let pflags := (List.range q.nq).map fun qi => (sr.named.getD qi []).map (listFlags qi)
    let flags := (List.range q.nq).map fun qi =>
      let fs := pflags.getD qi []
      let has := fun bit => fs.any fun f => decide (f &&& bit ≠ 0)
      let bad := has 2 || sr.centBad || (poison.any fun e => e.1 = qi) || (results.getD qi []).any (·.bad)
      (if has 8 then 0x40 else 0) + (if has 1 then 0x05 else 0) + (if bad then 2 else 0)
    let out := results.flatMap fun l => l.flatMap entryBytes
    let pbytes := pflags.flatMap fun l => (List.range q.nprobe).map fun j => (BitVec.ofNat 8 (l.getD j 0), false)
    let r := writeRange q.out out r
    let r := if q.flag = 0 then r else writeRange q.flag (flags.map fun f => (BitVec.ofNat 8 f, false)) r
    let r := if q.pflag = 0 then r else writeRange q.pflag pbytes r
    let any := fun bit => flags.any fun f => decide (f &&& bit ≠ 0)
    concludeRun { r with cmd := { r.cmd with words := r.cmd.words } }
      { status := statusOf [statusIf (any 0x40) .indexRange, statusIf (any 2) .poisoned, statusIf (any 1) .spillway]
        value := (flags.filter (· ≠ 0)).length, input := sr.input
        output := (out.map Prod.fst) ++ (if q.flag = 0 then [] else flags.map fun f => BitVec.ofNat 8 f)
          ++ (if q.pflag = 0 then [] else pbytes.map Prod.fst) } s0

/-- Scans whose stages 1 and 2 have ended leave their channels. -/
def endScans (serial : Nat) (chans : List Nat) (s : State) : State :=
  { s with srch := { s.srch with
      running := tabFilter s.srch.running fun ch v => !(v.serial = serial && chans.contains ch)
      runs := s.srch.runs.map fun e => if e.1 = serial then (e.1, { e.2 with open_ := e.2.open_.filter fun ch => !chans.contains ch }) else e } }

/-- A search whose scans are queued goes on: stages 1 and 2, then stage 3 once it has been started (R260, R261). [DEDUCED, log 44] -/
def searchContinue (sr : SearchRead) (run : SearchRun) (c : Cmd) (r : Run) (s : State) : State :=
  let units := allUnits s c.tcx sr.ctx
  let (outs, r1) := scanAll sr.ctx run units (engineChannels units) r
  if r1.stopped then concludeRun r1 {} s
  else if r1.recalls ≠ [] then waitForLines s r1
  else
    let ended := (outs.filter fun e => !e.2.waits).map (·.1)
    let s := endScans c.serial ended s
    let waits := outs.any fun e => e.2.waits
    let cands := outs.flatMap fun e => e.2.cands
    let poison := outs.flatMap fun e => e.2.poison
    let spilled := outs.flatMap fun e => e.2.spilled
    if waits ∨ (run.stage3 = false ∧ c.cut = false ∧ sr.ctx.x.sketch = 0) then modCmd c.serial (fun c => { c with phase := 1 }) s
    else
      let survivors := if sr.ctx.x.sketch = 0 then prune sr.ctx (fun q => tauOf sr.ctx q cands) cands else cands
      let (fin, r2) := finishAllCands sr.ctx units survivors {} { r1 with t3 := [] }
      if r2.stopped then concludeRun r2 {} s
      else if fin.waits || runBlocked r2 then waitForLines s r2
      else
        let spilled := spilled ++ fin.spilled
        let left := fin.cands.filter fun k => !(spilled.any fun e => e.1 = k.list && e.2.1 = k.chan)
        searchPublish sr left (poison ++ fin.poison) spilled r2 s

/-- Queues the scans of a command on its channels (R268). -/
def queueScans (serial : Nat) (chans : List Nat) (s : State) : State :=
  let flash := chans.filter (· < 64)
  { s with srch := { s.srch with
      queued := flash.foldl (fun t ch => tabModify t [] ch fun l => l ++ [{ serial := serial }]) s.srch.queued
      runs := tabInsert s.srch.runs serial { open_ := flash } } }

/-- `SEARCH` and `SEARCH_COMPAT`. -/
def searchBody (op : Nat) (c : Cmd) (s : State) : State :=
  match searchPrepare op c s with
  | .error s' => s'
  | .ok (sr, r) =>
    let units := allUnits s c.tcx sr.ctx
    let chans := engineChannels units
    match tabFind s.srch.runs c.serial with
    | some run => searchContinue sr run c r s
    | none =>
      if spills c && decide (hdrDeadline c.words ≤ 60) then
        searchPublish sr [] [] ((units.map fun u => (u.list.number, u.chan, 0x50)).dedup) r s
      else if chans.any fun ch => (tabGet s.srch.queued [] ch).length ≥ 32 then modCmd c.serial (fun c => { c with waiting := true }) s
      else match (if c.pool = 0 then takePool c (searchPool sr.ctx.req) s else some s) with
        | none => waitForPool c s
        | some s =>
          let s := queueScans c.serial chans s
          match tabFind s.srch.runs c.serial, s.q.cmds.find? fun d => d.serial = c.serial with
          | some run, some d =>
            let d := { d with host := c.host, phase := 1 }
            match searchPrepare op d s with
            | .error s' => s'
            | .ok (sr, r) => searchContinue sr run d r s
          | _, _ => s

/-- `SCAN_START`: an idle scan engine takes the oldest queued scan of its channel (R268). -/
def scanStart (ch : Nat) (s : State) : State :=
  if (tabFind s.srch.running ch).isSome then s
  else match tabGet s.srch.queued [] ch with
    | [] => s
    | sc :: rest => { s with srch := { s.srch with running := tabInsert s.srch.running ch sc, queued := tabPut s.srch.queued [] ch rest } }

/-- The running search with a serial and the context it has read, when it is in progress. -/
def searchOf (serial : Nat) (s : State) : Option (Cmd × SearchRun × SearchRead × Run) :=
  match s.q.cmds.find? (fun c => c.serial = serial && decide (c.opcode = 0x88 ∨ c.opcode = 0x89)), tabFind s.srch.runs serial with
  | some c, some run => match searchPrepare c.opcode c s with
    | .ok (sr, r) => some (c, run, sr, r)
    | .error _ => none
  | _, _ => none

/-- `TAU_EXCHANGE`: a scan engine sends τ of each query, from its own candidates, to the command's others (R260). -/
def tauExchangeOp (serial ch : Nat) (s : State) : State :=
  match searchOf serial s with
  | none => s
  | some (c, run, sr, r) =>
    if (tabFind s.srch.running ch).any (fun v => v.serial = serial) = false then s
    else
      let units := (allUnits s c.tcx sr.ctx).filter fun u => unitEngine u = ch
      let (o, _) := scanUnits sr.ctx (exchangedTau sr.ctx run ch) units {} r
      let sent := (List.range sr.ctx.req.nq).foldl (fun t q =>
        match tauOf sr.ctx q o.cands with
        | none => t
        | some v => tabInsert t (ch * 64 + q) (BitVec.ofNat 32 (fpEncode fp32 v))) run.tau
      { s with srch := { s.srch with runs := tabInsert s.srch.runs serial { run with tau := sent } } }

/-- `SEARCH_STAGE3_START`: every item has finished stage 2 or taken its fallback (R261). -/
def stage3Start (serial : Nat) (s : State) : State :=
  match s.q.cmds.find? (fun c => c.serial = serial && decide (c.opcode = 0x88)), tabFind s.srch.runs serial with
  | some c, some run =>
    if run.open_ ≠ [] ∨ run.stage3 then s
    else searchBody c.opcode c { s with srch := { s.srch with runs := tabInsert s.srch.runs serial { run with stage3 := true } } }
  | _, _ => s

end Sys2Proof.Machine
end

