-- ==== Sys2Proof/Machine/Flash.lean ====
section
/-!
DEFINITION. The flash translation layer of the channel cores (chapter 6): the queues of the dies, reads and their retries,
acknowledged writes and their programs, maintenance, failures, the map's replicas, and `FLASH_MANAGE`.
-/

namespace Sys2Proof.Machine

/-! ### Channels and dies -/

def dieOf (s : State) (ch d : Nat) : Die := tabGet (nandOf s ch).dies {} d

def modDie (ch d : Nat) (f : Die → Die) (s : State) : State :=
  modNand ch (fun n => { n with dies := tabModify n.dies {} d f }) s

/-- The polder that holds a NAND channel; 64 when none does. -/
def nandPolder (s : State) (ch : Nat) : Nat :=
  ((s.polders.find? fun e => e.2.nand.getLsbD ch).map (·.1)).getD 64

/-- NAND channel of a flash address. -/
def channelOf (s : State) (tpa : Nat) : Nat := (cellOf s tpa - 2 ^ 60) / 2 ^ 44

/-- A die that is in program or erase, a suspended erase included (R116). -/
def dieBusy (d : Die) : Bool :=
  (d.running.any fun o => decide (o.kind ≠ .read)) || d.writes.any (·.suspended)

/-- Dies of a channel in program or erase. -/
def busyDies (n : Nand) : Nat := (n.dies.filter fun e => dieBusy e.2).length

/-- A status reaches the command that a tile works for (R62). -/
def tileStatus (id : Nat) (st : Status) (s : State) : State :=
  match tabFind s.eng.tiles id with
  | none => s
  | some t => modCmd t.serial (fun c => { c with status := statusJoin c.status st }) s

/-- Lines of a tile's flash write are answered by the channel core. -/
def tileAcked (id tpa n : Nat) (poisoned : Bool) (s : State) : State :=
  match tabFind s.eng.tiles id with
  | none => s
  | some t => putTile id { t with left := t.left.filter fun e => !(linesOf tpa n).contains e.1
                                  poisoned := t.poisoned || poisoned } s

/-! ### Failures of a channel (R123) -/

/-- The events of a step of R123: a notice of KIND 0x09 and an asynchronous event to the polder's sluices. -/
def nandEvents (ch : Nat) (s : State) : State :=
  let p := nandPolder s ch
  let s := notifyFm { kind := 0x09, polder := p, unit := ch } 0 s
  postAsyncAll 0x06 0 p 0 (polderSluices s p) s

/-- Writes that have not been acknowledged end `MEDIA_READ_ONLY`. -/
def refuseWrites (ch : Nat) (s : State) : State :=
  let waiting := (nandOf s ch).writes.filter fun w => !w.acked
  let s := waiting.foldl (fun s w =>
    match w.tile with
    | none => s
    | some id => tileAcked id w.tpa w.data.length false (tileStatus id .mediaReadOnly s)) s
  modNand ch (fun n => { n with writes := n.writes.filter (·.acked) }) s

/-- The channel becomes read-only. -/
def nandReadOnly (ch : Nat) (exhausted : Bool) (s : State) : State :=
  let n := nandOf s ch
  if n.health = .ok then
    refuseWrites ch (nandEvents ch (setNand ch { n with health := .readOnly, exhausted := n.exhausted || exhausted } s))
  else setNand ch { n with exhausted := n.exhausted || exhausted } s

/-- The channel fails: its reads are poisoned and its writes refused. -/
def nandFail (ch : Nat) (s : State) : State :=
  let n := nandOf s ch
  if !n.present ∨ n.health = .failed then s
  else refuseWrites ch (nandEvents ch (setNand ch { n with health := .failed } s))

/-- A die is marked failed: the first makes its channel read-only, the second fails it. -/
def dieFail (ch d : Nat) (s : State) : State :=
  if (dieOf s ch d).failed then s
  else
    let s := modDie ch d (fun x => { x with failed := true, running := none, reads := [], writes := [] }) s
    if ((nandOf s ch).dies.filter fun e => e.2.failed).length ≥ 2 then nandFail ch s else nandReadOnly ch false s

/-- A superblock is retired and replaced from the reserve; with none left the channel becomes read-only (R122, R123). -/
def retireBlock (ch d block : Nat) (s : State) : State :=
  let x := dieOf s ch d
  if x.retired.contains block then s
  else
    let s := bumpFlash (nandPolder s ch) 0x58 1 s
    let s := modDie ch d (fun x => { x with retired := x.retired ++ [block], reserve := x.reserve - 1
                                            free := if x.reserve = 0 then x.free else x.free + 1 }) s
    if x.reserve = 0 then nandReadOnly ch true s else s

/-- Schedules the refresh of a superblock (Table 6.5). -/
def scheduleRefresh (ch d block : Nat) (s : State) : State :=
  modDie ch d (fun x => { x with refresh := if x.refresh.contains block then x.refresh else x.refresh ++ [block] }) s

/-! ### The queue of a die (R116) -/

/-- Remaining time of the operation under way on a die, in ticks, as the media engine reports it. -/
def dieRemaining (s : State) (ch d : Nat) : Nat :=
  match (dieOf s ch d).running with
  | none => 0
  | some o => if o.kind = .erase ∧ o.suspends < 8 then 500 else o.until_ - s.time

/-- A write may start: it is suspended already, or no warning episode holds it and fewer than 4 dies of the channel are in
program or erase (R116, R433). -/
def mayWrite (s : State) (ch : Nat) (o : DieOp) : Bool := o.suspended || (!s.pwr.warnNow && decide (busyDies (nandOf s ch) < 4))

/-- The operation a free die starts next, with what stays queued: a starved write, the first read, or the first write. -/
def nextOp (s : State) (ch : Nat) (x : Die) : Option (DieOp × Die) :=
  match x.reads, x.writes with
  | r :: reads, w :: writes =>
    if w.urgent && mayWrite s ch w then some (w, { x with writes := writes }) else some (r, { x with reads := reads })
  | r :: reads, [] => some (r, { x with reads := reads })
  | [], w :: writes => if mayWrite s ch w then some (w, { x with writes := writes }) else none
  | [], [] => none

/-- `FLASH_DIE_OPERATION_START`: a die starts its next operation, which will take `remaining` ticks; a read suspends an erase. -/
def dieStart (ch d remaining : Nat) (s : State) : State :=
  let x := dieOf s ch d
  if x.failed then s
  else match x.running with
    | none =>
      match nextOp s ch x with
      | none => s
      | some (o, x) => modDie ch d (fun _ => { x with running := some { o with suspended := false, until_ := s.time + remaining } }) s
    | some o =>
      match x.reads with
      | [] => s
      | r :: reads =>
        if o.kind = .erase ∧ o.suspends < 8 ∧ !o.urgent then
          modDie ch d (fun x => { x with running := some { r with until_ := s.time + remaining }, reads := reads
                                         writes := { o with suspended := true, suspends := o.suspends + 1 } :: x.writes }) s
        else s

/-- `PROGRAM_STARVATION_TIMEOUT`: the first program or erase is started next. -/
def starvation (ch d : Nat) (s : State) : State :=
  modDie ch d (fun x => { x with writes := match x.writes with | [] => [] | w :: rest => { w with urgent := true } :: rest }) s

/-- `NAND_DIE_TIMEOUT`: a die has not answered for 100 ms. -/
def dieTimeout (ch d : Nat) (s : State) : State := if (nandOf s ch).present then dieFail ch d s else s

/-! ### Reads (R114, R115) -/

/-- Flows that wait for flash data of a granule of 4 KiB. -/
def granuleFlows (s : State) (g : Nat) : List (Nat × Flow) :=
  s.coh.flows.filter fun e => decide (e.1 / 64 = g ∧ regionOf (e.1 * 64) = .flash) && e.2.medium

/-- A read of the array for a granule is queued or under way. -/
def readQueued (s : State) (tpa : Nat) : Bool :=
  let x := dieOf s (channelOf s tpa) (mapOf s tpa).die
  (x.running.any fun o => decide (o.kind = .read ∧ o.id = tpa / 4096)) || x.reads.any fun o => decide (o.id = tpa / 4096)

/-- The unit is in the array: its read senses a page. -/
def inArray (s : State) (tpa : Nat) : Bool := decide ((mapOf s tpa).state = .qlc ∨ (mapOf s tpa).state = .slc)

/-- Queues the read of a granule at its die. -/
def queueRead (tpa : Nat) (s : State) : State :=
  if !inArray s tpa || readQueued s tpa then s
  else
    let e := mapOf s tpa
    modDie (channelOf s tpa) e.die (fun x => { x with reads := x.reads ++
      [{ id := tpa / 4096, kind := .read, unit := unitOf s tpa, block := e.block, page := e.page, issued := s.time }] }) s

/-- The estimate E of R103 for a T3 read, in ticks. -/
def estimateT3 (s : State) (tpa : Nat) : Nat :=
  if !inArray s tpa then s.time + 1125
  else
    let ch := channelOf s tpa
    let d := (mapOf s tpa).die
    s.time + dieRemaining s ch d + 1125 * (dieOf s ch d).reads.length + 1125

/-- `FLASH_READ_REQUEST`: a T3 read reaches its channel core; an item whose estimate passes the spill point takes its
fallback and is never issued (R103, R116). -/
def readRequest (serial tpa : Nat) (s : State) : State :=
  let g := tpa / 4096
  if regionOf tpa ≠ .flash ∨ (polderAt s tpa).isNone then s
  else match s.q.cmds.find? fun c => c.serial = serial && !c.waiting with
    | none => if granuleFlows s g = [] then s else queueRead tpa s
    | some c =>
      if c.issued.any (fun e => e.1 = g) || c.early.contains g then s
      else if spills c && decide (estimateT3 s tpa > spillPoint c (reserveOf c.opcode)) then
        modCmd serial (fun c => { c with early := c.early ++ [g] }) s
      else queueRead tpa (modCmd serial (fun c => { c with issued := c.issued ++ [(g, s.time)] }) s)

/-- Reads of a superblock since its last erase that call for its refresh (Table 6.5). -/
def disturbLimit (st : MapState) : Nat := if st = .slc then 200000 else 40000

/-- `FLASH_SENSE_COMPLETE`: a page sense ends decoded at a level, rebuilt from its stripe, or lost. -/
def senseDone (ch d : Nat) (res : SenseResult) (s : State) : State :=
  let x := dieOf s ch d
  match x.running with
  | none => s
  | some o =>
    if o.kind ≠ .read then s
    else
      let p := nandPolder s ch
      let tpa := o.id * 4096
      let count := tabGet x.readCount 0 o.block + 1
      let s := modDie ch d (fun x => { x with running := none, readCount := tabPut x.readCount 0 o.block count }) s
      let s := if count ≥ disturbLimit (mapOf s tpa).state then scheduleRefresh ch d o.block s else s
      match res with
      | .decoded level =>
        let s := modDie ch d (fun x => { x with stripeFails := 0 }) (bumpFlash p 0x30 level.val s)
        if level.val ≥ 3 then scheduleRefresh ch d o.block s else s
      | _ =>
        let s := bumpFlash p 0x30 7 s
        let s := scheduleRefresh ch d o.block s
        let s := match res with
          | .rebuilt => bumpFlash p 0x38 1 s
          | _ => (List.range 64).foldl (fun s i => poisonLine (tpa / 64 + i) .uncorrectable s) (bumpFlash p 0x40 1 s)
        let s := modDie ch d (fun x => { x with stripeFails := x.stripeFails + 1 }) s
        if x.stripeFails + 1 ≥ 3 then dieFail ch d s else s

/-- The data of a granule reaches the flows that wait for it, no earlier than 45 µs after they began. -/
def deliverFlows (g : Nat) (s : State) : State :=
  (granuleFlows s g).foldl (fun s e =>
    if s.time < e.2.opened + 1125 then s else putFlow e.1 { e.2 with medium := false } s) s

/-- `FLASH_READ_DELIVER`: the data of a T3 read reaches its command and the flows of its lines; that of a spilled item is
discarded and counted (R103, R115). [DEDUCED, log 43] -/
def readDeliver (serial tpa : Nat) (s : State) : State :=
  let g := tpa / 4096
  if regionOf tpa ≠ .flash ∨ readQueued s tpa then s
  else if s.tier.spilledReads.any fun e => e.1 = serial && e.2.1 = g then
    let p := ((s.tier.spilledReads.find? fun e => e.1 = serial && e.2.1 = g).map (·.2.2)).getD 64
    bumpTier p 0x70 1 { s with tier := { s.tier with spilledReads := s.tier.spilledReads.filter fun e => !(decide (e.1 = serial ∧ e.2.1 = g)) } }
  else match s.q.cmds.find? fun c => c.serial = serial with
    | none => deliverFlows g s
    | some c =>
      match c.issued.find? fun e => e.1 = g with
      | none => deliverFlows g s
      | some e =>
        if s.time < e.2 + 1125 then s
        else deliverFlows g (modCmd serial (fun c => { c with delivered := if c.delivered.contains g then c.delivered else c.delivered ++ [g] }) s)

/-- `SPILL_CUTOFF`: at the spill point every item whose data has not arrived takes its fallback (R103). The flash reads of
the items that spill go on. -/
def spillCutoff (serial : Nat) (s : State) : State :=
  match s.q.cmds.find? fun c => c.serial = serial && !c.waiting && !c.cut with
  | none => s
  | some c =>
    if !spills c || decide (hdrDeadline c.words ≤ reserveOf c.opcode) || decide (s.time < spillPoint c (reserveOf c.opcode)) then s
    else
      let left := (c.issued.filter fun e => !c.delivered.contains e.1).map fun e => (serial, e.1, c.polder)
      let s := { s with tier := { s.tier with spilledReads := s.tier.spilledReads ++ left } }
      modCmd serial (fun c => { c with cut := true, lines := [] }) s

/-! ### Writes (R117 to R120) -/

/-- The throttle of Table 6.5: a die has fewer than 2 free superblocks. -/
def throttled (n : Nand) : Bool := n.dies.any fun e => decide (e.2.free < 2) && !e.2.failed

/-- The journal of a channel takes a write of `n` bytes now. -/
def journalRoom (n : Nand) (bytes : Nat) : Bool := !throttled n && decide (n.journalUsed + bytes ≤ mib)

/-- Some line of a partial write belongs to an unreadable unit, or holds an uncorrectable old codeword (R119). -/
def writeBytes (tpa : Nat) (data : List Byte) (poison : Bool) (s : State) : State × Bool :=
  let part := (linesOf tpa data.length).any fun l => decide ((mapOf s (l * 64)).state = .unreadable) &&
    decide (l / 256 * 16384 < tpa ∨ tpa + data.length < (l / 256 + 1) * 16384)
  (byLine tpa (data.map fun b => (b, poison))).foldl (fun (acc : State × Bool) e =>
    let (s, st) := homeWrite e.1 (e.2.map fun b => (b.1, b.2.1)) poison (openUnit acc.1 (e.1 * 64))
    (mapWritten s (e.1 * 64), acc.2 || decide (st = .poisoned))) (s, part)

/-- A write is acknowledged to its unit and counted (R117). -/
def ackWrite (ch : Nat) (w : FlashWrite) (poisoned : Bool) (s : State) : State :=
  let s := bumpFlash (nandPolder s ch) 0x00 w.data.length s
  match w.tile with
  | none => s
  | some id => tileAcked id w.tpa w.data.length poisoned (if poisoned then tileStatus id .poisoned s else s)

/-- A write enters the SRAM journal: its bytes take effect, both mirror programs are queued, and in staged mode it is acknowledged. -/
def admitWrite (ch : Nat) (w : FlashWrite) (s : State) : State :=
  let cell := cellOf s w.tpa
  let w := { w with
    old := (List.range w.data.length).map fun i => tabGet s.mem.bytes 0 (cell + i)
    oldMarks := (linesOf w.tpa w.data.length).map fun l => (tabFind s.mem.poison (cellOf s (l * 64) / 64), tabGet s.mem.sealed 0 (cellOf s (l * 64) / 64))
    oldMap := mapOf s w.tpa }
  let (s, bad) := writeBytes w.tpa w.data w.poison s
  let staged := (nandOf s ch).staged
  let u := unitOf s w.tpa
  let op : DieOp := { id := w.id, kind := .programSlc, unit := u, issued := s.time }
  let d := u % 16 % 8
  let s := modDie ch d (fun x => { x with writes := x.writes ++ [op] }) s
  let s := modDie ch (d + 8) (fun x => { x with writes := x.writes ++ [op] }) s
  let s := modNand ch (fun n => { n with
    journalUsed := n.journalUsed + w.data.length
    writes := n.writes.filter (fun v => v.id ≠ w.id) ++ [{ w with staged := true, acked := staged, poison := w.poison || bad }] }) s
  if staged then ackWrite ch w bad s else s

/-- New writes wait at their channel cores while an activation holds intake (R394). -/
def writesWait (s : State) : Bool := s.fw.activating.isSome

/-- Waiting writes enter the journal in the order they came, while there is room (R119, R120). -/
def admitWaiting : Nat → Nat → State → State
  | 0, _, s => s
  | fuel + 1, ch, s =>
    match (nandOf s ch).writes.find? fun w => !w.staged with
    | none => s
    | some w => if journalRoom (nandOf s ch) w.data.length && !writesWait s then admitWaiting fuel ch (admitWrite ch w s) else s

def admitAll (ch : Nat) (s : State) : State := admitWaiting (nandOf s ch).writes.length ch s

/-- `FLASH_WRITE_ARRIVAL`: part of a tile's write reaches its channel core. [DEDUCED, log 43] -/
def writeArrival (id tpa : Nat) (data : List Byte) (poison : Bool) (s : State) : State :=
  match tabFind s.eng.tiles id with
  | none => s
  | some t =>
    let lines := linesOf tpa data.length
    let mine := t.left.map (·.1)
    if !t.write ∨ regionOf tpa ≠ .flash ∨ data = [] ∨ !(lines.all fun l => mine.contains l)
        ∨ tpa / 16384 ≠ (tpa + data.length - 1) / 16384 then s
    else
      let ch := channelOf s tpa
      let n := nandOf s ch
      if n.health ≠ .ok then tileAcked id tpa data.length false (tileStatus id .mediaReadOnly s)
      else if !n.mapLoaded then tileAcked id tpa data.length false (tileStatus id .held s)
      else
        let w : FlashWrite := { id := n.nextWrite, tpa := tpa, data := data, poison := poison, tile := some id }
        let s := modNand ch (fun n => { n with nextWrite := n.nextWrite + 1 }) s
        if (n.writes.all (·.staged)) && journalRoom n data.length && !writesWait s then admitWrite ch w s
        else bumpFlash (nandPolder s ch) 0x50 1 (modNand ch (fun n => { n with writes := n.writes ++ [w] }) s)

/-! ### Programs and erases -/

/-- The free superblock with the lowest erase count (dynamic wear levelling, Table 6.5). -/
def freshBlock (x : Die) : Nat :=
  ((List.range 994).filter fun b => !x.used.contains b && !x.retired.contains b && !x.reerase.contains b).foldl
    (fun best b => if best = 994 ∨ tabGet x.erases 0 b < tabGet x.erases 0 best then b else best) 994

/-- The superblock that takes the next folded or moved unit: the open one, or a fresh one. -/
def openBlock (x : Die) (source : Nat) : Nat × Die :=
  match x.used.find? fun b => b ≠ source && !x.refresh.contains b && !x.retired.contains b && decide (tabGet x.valid 0 b < 16384) with
  | some b => (b, x)
  | none =>
    let b := freshBlock x
    (b, { x with used := x.used ++ [b], free := x.free - 1 })

/-- A unit is placed in the QLC region of a die. -/
def placeUnit (ch d u source : Nat) (s : State) : State :=
  let (b, x) := openBlock (dieOf s ch d) source
  let s := modDie ch d (fun _ => { x with valid := tabModify x.valid 0 b (· + 1) }) s
  putMap u { state := .qlc, die := d, block := b } s

/-- A staged write whose two mirror programs have completed leaves the SRAM journal; its fold into the QLC region is queued. -/
def writeProgrammed (ch : Nat) (w : FlashWrite) (u : Nat) (s : State) : State :=
  let s := if w.acked then s else ackWrite ch w w.poison s
  let e := tabGet s.ftl.map {} u
  let s := if e.state = .sram then { s with ftl := { s.ftl with map := tabPut s.ftl.map {} u { e with state := .slc } } } else s
  let s := modNand ch (fun n => { n with journalUsed := n.journalUsed - w.data.length, writes := n.writes.filter fun v => v.id ≠ w.id }) s
  let s := modDie ch (u % 16) (fun x => { x with writes := x.writes ++ [{ id := 0, kind := .programQlc, unit := u, issued := s.time }] }) s
  let s := if (nandOf s ch).staged ∨ (nandOf s ch).writes.any (·.staged) then s
    else { s with flt := { s.flt with stagedRecord := s.flt.stagedRecord &&& ~~~ BitVec.ofNat 64 (2 ^ ch) } }
  admitAll ch s

/-- A fold or a relocation installs its new location only if the entry still holds the one it copied from (R120). -/
def unitMoved (ch d : Nat) (o : DieOp) (s : State) : State :=
  let e := tabGet s.ftl.map {} o.unit
  let p := nandPolder s ch
  if e.state = .slc ∧ o.block = 0 ∧ o.page = 0 then placeUnit ch d o.unit 1024 s
  else if e.state = .qlc ∧ o.page = 1 ∧ e.die = d ∧ e.block = o.block then bumpFlash p 0x20 1 (placeUnit ch d o.unit o.block s)
  else bumpFlash p 0x28 1 s

/-- The superblock that a program writes: of the SLC journal (994 to 1,009), or the open one of the data region. -/
def programBlock (x : Die) (o : DieOp) : Nat :=
  if o.kind = .programSlc then ((List.range 16).map (· + 994)).find? (fun b => !x.retired.contains b) |>.getD 994
  else (openBlock x o.block).1

/-- `FLASH_PROGRAM_COMPLETE`: a failed program retires its superblock and is done again. -/
def programDone (ch d : Nat) (ok : Bool) (s : State) : State :=
  match (dieOf s ch d).running with
  | none => s
  | some o =>
    if o.kind ≠ .programSlc ∧ o.kind ≠ .programQlc then s
    else if !ok then
      retireBlock ch d (programBlock (dieOf s ch d) o) (modDie ch d (fun x => { x with running := none, writes := o :: x.writes }) s)
    else
      let s := modDie ch d (fun x => { x with running := none }) s
      let s := bumpFlash (nandPolder s ch) (if o.kind = .programSlc then 0x08 else 0x10) 65536 s
      if o.kind = .programQlc then unitMoved ch d o s
      else match (nandOf s ch).writes.find? fun w => w.id = o.id with
        | none => s
        | some w =>
          if w.programs ≥ 1 then writeProgrammed ch w o.unit s
          else modNand ch (fun n => { n with writes := n.writes.map fun v => if v.id = w.id then { v with programs := v.programs + 1 } else v }) s

/-- Rated cycles of a QLC superblock (Table 6.1). [DEDUCED, log 43] -/
def ratedCycles : Nat := 1000

/-- `FLASH_ERASE_COMPLETE`: the superblock is free again, or retired. -/
def eraseDone (ch d : Nat) (ok : Bool) (s : State) : State :=
  match (dieOf s ch d).running with
  | none => s
  | some o =>
    if o.kind ≠ .erase then s
    else
      let count := tabGet (dieOf s ch d).erases 0 o.block + 1
      let s := modDie ch d (fun x => { x with
        running := none
        used := x.used.filter (· ≠ o.block), valid := tabErase x.valid o.block, refresh := x.refresh.filter (· ≠ o.block)
        reerase := x.reerase.filter (· ≠ o.block), readCount := tabErase x.readCount o.block
        erases := if ok then tabPut x.erases 0 o.block count else x.erases
        free := if ok && decide (count < ratedCycles) then x.free + 1 else x.free }) s
      let s := if ok then bumpFlash (nandPolder s ch) 0x18 1 s else s
      let s := if ok && decide (count < ratedCycles) then s else retireBlock ch d o.block s
      admitAll ch s

/-! ### Maintenance (R122) -/

/-- The victim of garbage collection, a superblock to refresh, or the coldest one of an uneven die (Table 6.5). -/
def victimBlock (x : Die) : Option Nat :=
  if x.free < 24 then
    x.used.foldl (fun best b => match best with
      | none => some b
      | some v => if tabGet x.valid 0 b < tabGet x.valid 0 v then some b else some v) none
  else match x.refresh.find? fun b => x.used.contains b with
    | some b => some b
    | none =>
      let counts := (List.range 994).map fun b => tabGet x.erases 0 b
      if counts.foldl max 0 > counts.foldl min (counts.headD 0) + 100 then
        x.used.foldl (fun best b => match best with
          | none => some b
          | some v => if tabGet x.erases 0 b < tabGet x.erases 0 v then some b else some v) none
      else none

/-- `GARBAGE_COLLECTION_START`: the victim's valid units are moved and the superblock is erased. -/
def collectStart (ch d : Nat) (s : State) : State :=
  let x := dieOf s ch d
  if x.failed ∨ (nandOf s ch).health ≠ .ok ∨ x.writes.any (fun o => o.kind = .erase) then s
  else match victimBlock x with
    | none => s
    | some b =>
      let units := (s.ftl.map.filter fun e => decide (e.1 / 2 ^ 30 = ch ∧ e.2.state = .qlc ∧ e.2.die = d ∧ e.2.block = b)).map (·.1)
      let moves : List DieOp := units.map fun u => { id := 0, kind := .programQlc, unit := u, block := b, page := 1, issued := s.time }
      modDie ch d (fun x => { x with writes := x.writes ++ moves ++ [{ id := 0, kind := .erase, block := b, issued := s.time }] }) s

/-- `FLASH_PATROL`: one page of a superblock is sampled; level 8 stands for a rebuild (Table 6.5). -/
def patrolFlash (ch d block level : Nat) (s : State) : State :=
  if !(nandOf s ch).present ∨ (dieOf s ch d).failed then s
  else
    let p := nandPolder s ch
    let s := bumpFlash p 0x30 (min level 7) s
    let s := if level = 8 then bumpFlash p 0x38 1 s else s
    if level ≥ 3 then scheduleRefresh ch d block s else s

/-! ### The map's replicas (R124) -/

/-- `MAP_CHECKPOINT`: both replicas of a segment are written with the next sequence number. -/
def checkpoint (ch seg : Nat) (s : State) : State :=
  if !(nandOf s ch).mapLoaded then s
  else modNand ch (fun n => { n with updates := tabErase n.updates seg, seqNos := tabModify n.seqNos 0 seg (· + 1) }) s

/-- Every unit of a map segment becomes unreadable. -/
def segmentUnreadable (ch seg : Nat) (s : State) : State :=
  let units := (List.range 4096).map fun i => ch * 2 ^ 30 + seg * 4096 + i
  let p := nandPolder s ch
  let s := bumpFlash p 0x48 4096 { s with ftl := { s.ftl with
    map := units.foldl (fun m u => tabInsert m u { state := .unreadable }) s.ftl.map } }
  notifyFm { kind := 0x0C, polder := p, unit := ch } 0 s

/-- `MAP_LOAD_COMPLETE`: the replicas of every segment are resolved (Table 6.6) and T3 accesses begin. [DEDUCED, log 43] -/
def mapLoad (ch : Nat) (reps : List SegmentReplicas) (s : State) : State :=
  let n := nandOf s ch
  if !n.present ∨ n.mapLoaded ∨ (tabFind s.tray.mapHome ch).isNone then s
  else
    let s := reps.foldl (fun s r =>
      match r.pair with
      | .same | .oneIntact => s
      | .higher => writeEvent 0x04 ch 0 64 0 r.segment s
      | .conflict | .neither => segmentUnreadable ch r.segment s) s
    modNand ch (fun n => { n with mapLoaded := true }) s

/-! ### The hold-up bank (R117, R118) -/

/-- `HOLDUP_OK_ASSERT`: the 100 ms begin. -/
def holdupAssert (s : State) : State := { s with pins := { s.pins with holdupOk := true } }

/-- `STAGED_MODE_ENTRY`: `HOLDUP_OK` has been asserted for 100 ms; each channel records its entry (R449). [DEDUCED, log 43] -/
def stagedEntry (s : State) : State :=
  if !s.pins.holdupOk ∨ s.ftl.qualified then s
  else
    let chans := s.ftl.chans.map fun e => (e.1, if e.2.present then { e.2 with staged := true } else e.2)
    let present := (s.ftl.chans.filter fun e => e.2.present).foldl (fun m e => m ||| BitVec.ofNat 64 (2 ^ e.1)) 0
    { s with ftl := { s.ftl with qualified := true, chans := chans }
             flt := { s.flt with stagedRecord := s.flt.stagedRecord ||| present } }

/-- `HOLDUP_OK_DEASSERT`: every channel returns to programmed mode; what is staged stays staged until it is programmed. [DEDUCED, log 43] -/
def holdupDeassert (s : State) : State :=
  let open_ := (s.ftl.chans.filter fun e => e.2.writes.any (·.staged)).foldl (fun m e => m ||| BitVec.ofNat 64 (2 ^ e.1)) (0 : BitVec 64)
  { s with pins := { s.pins with holdupOk := false }
           ftl := { s.ftl with qualified := false, chans := s.ftl.chans.map fun e => (e.1, { e.2 with staged := false }) }
           flt := { s.flt with stagedRecord := s.flt.stagedRecord &&& open_ } }

/-! ### FLASH_MANAGE (R126) -/

/-- Bytes of a map unit of the granule of an address (R112). -/
def unitSize (s : State) (tpa : Nat) : Nat := if s.ftl.bulk.contains (tpa / gib) then 65536 else 16384

/-- The TPA of a map unit of a polder's flash range (the inverse of R112); none when the channel is another polder's. -/
def unitTpa (p : Polder) (u : Nat) : Option Nat :=
  let ids := maskBits 64 p.nand.toNat
  let ch := u / 2 ^ 30
  let off := u % 2 ^ 30 * 16384
  if ids.contains ch then some (p.flashRange.base + (off / mib * ids.length + ids.findIdx (· = ch)) * mib + off % mib) else none

/-- Map units of a polder within TPA ranges, among those the map lists. -/
def listedUnits (s : State) (p : Polder) (ranges : List (Nat × Nat)) : List Nat :=
  (s.ftl.map.filter fun e => match unitTpa p e.1 with
    | none => false
    | some tpa => ranges.any fun r => r.1 ≤ tpa && tpa < r.1 + r.2).map (·.1)

/-- Units become UNMAPPED: their bytes, seals and poison marks go with them (R126, R135). -/
def unmapUnits (units : List Nat) (s : State) : State :=
  let s := units.foldl (fun s u => putMap u {} s) s
  { s with mem := {
    bytes := tabFilter s.mem.bytes fun k _ => decide (k < 2 ^ 60) || !units.contains ((k - 2 ^ 60) / 16384)
    poison := tabFilter s.mem.poison fun k _ => decide (k < 2 ^ 54) || !units.contains ((k - 2 ^ 54) / 256)
    sealed := tabFilter s.mem.sealed fun k _ => decide (k < 2 ^ 54) || !units.contains ((k - 2 ^ 54) / 256) } }

/-- A trim drops promoted and cached copies of the range. -/
def dropRanges (ranges : List (Nat × Nat)) (s : State) : State :=
  let hit := fun tpa => ranges.any fun r => r.1 ≤ tpa && tpa < r.1 + r.2
  { s with tier := { s.tier with promoted := tabFilter s.tier.promoted fun b _ => !hit (b * 65536)
                                 promoLru := s.tier.promoLru.filter fun b => !hit (b * 65536) }
           tbl := { s.tbl with cache := tabMap s.tbl.cache [] fun _ ways => ways.filter fun w => !hit (w.line * 64) } }

/-- The TPA ranges of a FLASH_MANAGE's DVA range, which is mapped. -/
def flashRanges (s : State) (t dva len : Nat) : List (Nat × Nat) :=
  (checkRange s t dva len .write).filterMap fun p => match p.2.2 with | .at _ tpa => some (tpa, p.2.1) | _ => none

/-- NAND channels of a polder that hold a byte of some ranges. -/
def flashChannels (p : Polder) (ranges : List (Nat × Nat)) : List Nat :=
  (maskBits 64 p.nand.toNat).filter fun ch =>
    ranges.any fun r => (List.range (r.2 / mib + 2)).any fun i => decide (i * mib < r.2 + mib) &&
      decide ((flashPlace p (min (r.1 + i * mib) (r.1 + r.2 - 1) - p.flashRange.base)).1 = ch)

/-- TRIM takes whole map units, the granule operations whole GiB granules (R125, R126). -/
def flashAligned (s : State) (t op dva len : Nat) (ranges : List (Nat × Nat)) : Bool :=
  let first := (ranges.headD (0, 0)).1
  let last := match ranges.getLast? with | some q => q.1 + q.2 | none => 0
  if op = 0 then decide (first % unitSize s first = 0 ∧ last % unitSize s (last - 1) = 0)
  else decide (first % gib = 0) && (List.range (len / gib)).all fun i =>
    match checkByte s t (dva + i * gib) .write with | .at _ tpa => decide (tpa % gib = 0) | _ => false

/-- GiB granules of a mapped DVA range. -/
def flashGranules (s : State) (t dva len : Nat) : List Nat :=
  (List.range (len / gib)).filterMap fun i =>
    match checkByte s t (dva + i * gib) .write with | .at _ tpa => some (tpa / gib) | _ => none

/-- OP, UNITS and the DVA of a FLASH_MANAGE that names a range (R126). -/
def flashFields (ws : List Word) : Bool :=
  let op := field ws 3 3 0
  let units := field ws 6 26 0
  decide (op ≤ 2 ∧ 1 ≤ units ∧ units ≤ 0x4000000 ∧ word64 ws 4 + units * 16384 ≤ 2 ^ 52)
    && decide (op = 0 ∨ (word64 ws 4 % gib = 0 ∧ units % 65536 = 0)) && dvaClear ws 4

/-- `FLASH_MANAGE`. [DESIGN CHOICE, log 60] -/
def flashManageBody (c : Cmd) (s : State) : State :=
  let op := field c.words 3 3 0
  let units := field c.words 6 26 0
  let dva := word64 c.words 4
  let len := units * 16384
  if op = 3 then
    if units ≠ 0 || !dvaClear c.words 4 then finishWith c .invalid 0 s
    else
      let r := checkWhole dva 96 .write 0x3 (fun _ => false) (runOf c s)
      concludeRun (writeRange dva (cleanBytes (counterBytes (polderOf s c.polder).flashCnt 12)) r) {} s
  else if flashFields c.words = false then finishWith c .invalid 0 s
  else
    let r := checkWhole dva len .write 0x3 (fun tpa => decide (regionOf tpa ≠ .flash)) (runOf c s)
    if r.stopped then concludeRun r {} s
    else
      let ranges := flashRanges s c.tcx dva len
      let po := polderOf s c.polder
      let chans := flashChannels po ranges
      let mapped := listedUnits s po ranges
      if flashAligned s c.tcx op dva len ranges = false then finishWith c .invalid 0 s
      else if chans.any fun ch => decide ((nandOf s ch).health ≠ .ok) then finishWith c .mediaReadOnly 0 s
      else if chans.any fun ch => !(nandOf s ch).mapLoaded then finishWith c .held 0 s
      else if op = 0 then finishWith c .ok units (dropRanges ranges (unmapUnits mapped s))
      else if mapped ≠ [] then finishWith c .invalid 0 s
      else
        let granules := flashGranules s c.tcx dva len
        let bulk := s.ftl.bulk.filter fun g => !granules.contains g
        finishWith c .ok units { s with ftl := { s.ftl with bulk := if op = 2 then bulk ++ granules else bulk } }

end Sys2Proof.Machine
end

