-- ==== Sys2Proof/Machine/Tenants.lean ====
section
/-!
DEFINITION. Tenant contexts (R39 to R44), their segments (R45 to R56), keys and granule bindings (R150 to R157), policers
(R180) and digest rings (R316).
-/

namespace Sys2Proof.Machine

/-! ### Host addresses named by commands (R362, R364) -/

/-- A command that works for a host address: written there through its sluice's LD, or carried by the response of the tunnel
or mailbox when the address is zero. [DEDUCED, log 59] -/
def hpaCarried (src : Src) (hpa : Nat) : Bool :=
  match src with
  | .tunnel | .jtag => decide (hpa = 0)
  | _ => false

/-- Completes a command that writes bytes at an HPA, once they are visible (R89, R362). [DEDUCED, log 48] [DEDUCED, log 59] -/
def finishHpa (c : Cmd) (hpa : Nat) (data : List Byte) (res : Result) (s : State) : State :=
  if hpaCarried c.src hpa then finish c.serial { res with payload := data } s
  else
    let hid := srcHid s c.src
    let s := emit (.hostWrite hid hpa data false) s
    let s := modCmd c.serial (fun c => { c with zeroReads := [hid], outcome := some res, decided := true, phase := max c.phase 1 }) s
    emit (.zeroRead c.serial hid) s

/-! ### Segment entries -/

/-- The entry of Table 3.1 in the words from `n` on; GEN is the device's. -/
def segFromWords (ws : List Word) (n : Nat) (gen : BitVec 16) : Segment :=
  { valid := flag ws n 31, dvaBase := BitVec.ofNat 31 (field ws n 30 0)
    a := flag ws (n + 1) 31, w := flag ws (n + 1) 30, r := flag ws (n + 1) 29, length := BitVec.ofNat 29 (field ws (n + 1) 28 0)
    hint := BitVec.ofNat 3 (field ws (n + 2) 31 29), tpaBase := BitVec.ofNat 29 (field ws (n + 2) 28 0)
    fill := BitVec.ofNat 32 (wordAt ws (n + 3)), gen := gen
    fillPoison := flag ws (n + 4) 9, keySlot := BitVec.ofNat 2 (field ws (n + 4) 1 0) }

def boolBit (b : Bool) (n : Nat) : Nat := if b then 2 ^ n else 0

/-- Words 0 to 7 of an entry (Table 3.1). -/
def segWords (e : Segment) : List Word :=
  [BitVec.ofNat 32 (boolBit e.valid 31 + e.dvaBase.toNat),
   BitVec.ofNat 32 (boolBit e.a 31 + boolBit e.w 30 + boolBit e.r 29 + e.length.toNat),
   BitVec.ofNat 32 (e.hint.toNat * 2 ^ 29 + e.tpaBase.toNat), e.fill,
   BitVec.ofNat 32 (e.gen.toNat * 2 ^ 16 + boolBit e.fillPoison 9 + e.keySlot.toNat), 0, 0, 0]

/-- CHECK of an entry (R53). -/
def segCheck (e : Segment) : Nat := sha3 (wordsToBytes (segWords e)) % 2 ^ 32

/-- First TPA and length in bytes of what an entry maps. -/
def segStart (e : Segment) : Nat := e.tpaBase.toNat * (2 * mib)
def segBytes (e : Segment) : Nat := e.length.toNat * (2 * mib)

/-- The DVA range of an entry meets that of another valid segment of its TCX. -/
def segOverlaps (s : State) (t seg : Nat) (e : Segment) : Bool :=
  (List.range 16).any fun n =>
    let o := segOf s t n
    decide (n ≠ seg) && o.valid && decide (e.dvaBase.toNat < o.dvaBase.toNat + o.length.toNat ∧ o.dvaBase.toNat < e.dvaBase.toNat + e.length.toNat)

/-- A host-tier range lies within one window that the TCX owns (R98). -/
def inWindow (s : State) (t : Nat) (e : Segment) : Bool :=
  let w := windowOf s (windowIx (segStart e))
  w.valid && decide (w.owner.toNat = t) && decide (windowOff (segStart e) + segBytes e ≤ w.length.toNat * (2 * mib))

/-- The checks of R49 on an entry with VALID = 1. [DEDUCED, log 40] -/
def segOk (s : State) (t seg : Nat) (e : Segment) : Bool :=
  let p := polderOf s (tcxOf s t).polder
  let region := regionOf (segStart e)
  decide (e.length ≠ 0) && decide (e.dvaBase.toNat + e.length.toNat ≤ 2 ^ 31) && !segOverlaps s t seg e
    && (if region = .host then inWindow s t e else inPolder p (segStart e) (segBytes e))
    && (!e.a || (e.w && decide (region ≠ .flash ∧ region ≠ .host)))
    && decide (e.hint.toNat ≤ 4)
    && (if isOpenMode p.modes then decide (e.keySlot = 0) else (keySlotOf s t e.keySlot.toNat).isSome)

/-- Granules that a range touches, by one address in each (R152). -/
def granulesIn (a len : Nat) : List Nat :=
  let g := granuleBytes a
  if len = 0 then [] else (List.range ((a + len - 1) / g + 1 - a / g)).map fun i => (a / g + i) * g

/-- A segment is changed by widening only (R51). -/
def segWidens (old new : Segment) : Bool :=
  !old.valid || (new.valid && decide (new.dvaBase = old.dvaBase ∧ new.tpaBase = old.tpaBase ∧ new.keySlot = old.keySlot)
    && decide (old.length.toNat ≤ new.length.toNat) && (!old.a || new.a) && (!old.w || new.w) && (!old.r || new.r))

/-- The code of an entry in a tile: its number and its GEN. -/
def entryCode (t seg gen : Nat) : Nat := (16 * t + seg) * 65536 + gen

/-- Tiles in flight that were translated under an older content of an entry (R52). -/
def oldTiles (s : State) (t seg : Nat) : List (Nat × Tile) :=
  s.eng.tiles.filter fun e => e.2.segs.any fun k => k / 65536 = 16 * t + seg && k ≠ entryCode t seg (segOf s t seg).gen.toNat

/-- Every segment-cache copy of an entry is invalidated; a fill in flight is to be fetched again (R52). -/
def dropSegCopies (t seg : Nat) (s : State) : State :=
  { s with eng := { s.eng with
      segCaches := tabMap s.eng.segCaches [] fun _ l => l.filter fun c => !(decide (c.tcx = t ∧ c.seg = seg))
      misses := s.eng.misses.map fun m => if m.entry = 16 * t + seg then { m with stale := true } else m } }

/-- `HELD` of R51: the TCX is RESETTING, or its polder DRAINING or SCRUBBING. -/
def tcxHeld (s : State) (t : Nat) : Bool :=
  let x := tcxOf s t
  decide (x.state = .resetting) || (decide (x.state ≠ .free) &&
    decide ((polderOf s x.polder).state = .draining ∨ (polderOf s x.polder).state = .scrubbing))

/-- Starts the fill of each STALE granule of a range under a key (R152). -/
def startFills (t slot key : Nat) (l : List Nat) (s : State) : State :=
  l.foldl (fun s a =>
    if s.key.fills.any fun f => f.granule = granuleOf a then s
    else { s with key := { s.key with fills := s.key.fills ++ [⟨granuleOf a, t, slot, key⟩] } }) s

/-- Binds every UNBOUND granule of a range (R152). -/
def bindGranules (t slot : Nat) (l : List Nat) (s : State) : State :=
  { s with key := { s.key with bindings := l.foldl (fun b a =>
      if tabGet b .unbound (granuleOf a) = .unbound then tabPut b .unbound (granuleOf a) (.bound t slot) else b) s.key.bindings } }

/-- `SEG_WRITE` (R48 to R52). -/
def segWriteBody (c : Cmd) (s : State) : State :=
  let t := c.tcx
  let seg := field c.words 3 3 0
  let old := segOf s t seg
  let new := segFromWords c.words 4 (old.gen + 1)
  let x := tcxOf s t
  let slot := new.keySlot.toNat
  let granules := if new.valid && !isOpenMode (polderOf s x.polder).modes && decide (regionOf (segStart new) ≠ .host) then
    granulesIn (segStart new) (segBytes new) else []
  if tcxHeld s t then finishWith c .held 0 s
  else if x.state = .free ∨ (x.state = .bound ∧ new.valid) then finishWith c .invalid 0 s
  else if new.valid ∧ segOk s t seg new = false then finishWith c .invalid 0 s
  else if flag c.words 3 4 = false ∧ field c.words 3 31 16 ≠ old.gen.toNat then finishWith c .genStale old.gen.toNat s
  else if granules.any fun a => match bindingOf s a with
      | .bound t' slot' => decide (t' ≠ t ∨ slot' ≠ slot)
      | _ => false then finishWith c .invalid 0 s
  else
    let stale := granules.filter fun a => decide (bindingOf s a = .stale)
    if stale ≠ [] then
      finishWith c .held 0 (startFills t slot (((keySlotOf s t slot).map (·.key)).getD 0) stale s)
    else
      let s := dropSegCopies t seg (setSeg t seg new (bindGranules t slot granules s))
      if segWidens old new || decide (oldTiles s t seg = []) then finishWith c .ok new.gen.toNat s
      else modCmd c.serial (fun c => { c with phase := 1, decided := true, value := new.gen.toNat }) s

/-- Narrowing `SEG_WRITE`s of an entry under whose old content no tile moves any more complete (R52). -/
def remapDone (t seg : Nat) (s : State) : State :=
  if oldTiles s t seg ≠ [] then s
  else (s.q.cmds.filter fun c => decide (c.opcode = 0x20 ∧ c.phase = 1 ∧ c.tcx = t ∧ field c.words 3 3 0 = seg)).foldl
    (fun s c => finishWith c .ok c.value s) s

/-- Narrowing `HTW_WRITE`s of windows through which nothing moves any more complete (R99). -/
def windowsDone (s : State) : State :=
  (s.q.cmds.filter fun c => decide (c.opcode = 0x4D ∧ c.phase = 1)).foldl
    (fun s c => if windowBusy s (windowNumber c.words) then s else finishWith c .ok 0 s) s

/-- Every narrowing change that waits for nothing any more completes. -/
def settleRemaps (s : State) : State :=
  windowsDone ((s.q.cmds.filter fun c => decide (c.opcode = 0x20 ∧ c.phase = 1)).foldl (fun s c => remapDone c.tcx (field c.words 3 3 0) s) s)

/-- `REMAP_ENGINE_CUTOFF` (Table 3.4 step 4): tiles that have not finished are discarded, and their commands complete `MAP_FAULT`. -/
def remapCutoff (t seg : Nat) (s : State) : State :=
  let busy := s.q.cmds.filter fun c => decide (c.opcode = 0x4D ∧ c.phase = 1 ∧ (windowRequest c.words).owner.toNat = t)
  let th := (s.tier.thReads.filter fun e => busy.any fun c => e.2.1 = windowNumber c.words || e.2.2.2.2 = windowNumber c.words + 1).map (·.1)
  let old := (oldTiles s t seg).map (·.1) ++ th
  let serials := (s.eng.tiles.filter fun e => old.contains e.1).map (·.2.serial)
  let s := { s with eng := { s.eng with tiles := tabFilter s.eng.tiles fun k _ => !old.contains k }
                    tier := { s.tier with thReads := tabFilter s.tier.thReads fun k _ => !old.contains k } }
  let s := serials.dedup.foldl (fun s k => finish k { status := .mapFault } s) s
  settleRemaps s

/-- `SEG_SYNC` (R53, R54). -/
def segSyncBody (c : Cmd) (s : State) : State :=
  let t := c.tcx
  let x := tcxOf s t
  if tcxHeld s t then finishWith c .held 0 s
  else if x.state ≠ .live ∧ x.state ≠ .frozen then finishWith c .invalid 0 s
  else
    let diff := (((List.range 16).filter fun n => segCheck (segOf s t n) ≠ wordAt c.words (4 + n)).map fun n => 2 ^ n).sum
    if diff = 0 then finishWith c .ok 0 (modTcx t (fun x => { x with state := .live }) s)
    else
      let s := modTcx t (fun x => { x with state := .frozen }) s
      finishWith c .mirrorDiverged diff (writeEvent 0x07 0 t x.polder 0 diff s)

/-! ### Keys (R154 to R157) -/

/-- Granules bound to a slot of a TCX become STALE. -/
def staleGranules (t slot : Nat) (s : State) : State :=
  { s with key := { s.key with bindings := s.key.bindings.map fun e =>
      (e.1, if e.2 = .bound t slot then .stale else e.2) } }

/-- DESTROY of one slot (R157). -/
def destroyKey (t slot : Nat) (s : State) : State :=
  staleGranules t slot (modTcx t (fun x => { x with keys := tabErase x.keys slot }) s)

/-- Every key of a TCX is destroyed (R157). -/
def destroyKeys (t : Nat) (s : State) : State := ((tcxOf s t).keys.map (·.1)).foldl (fun s slot => destroyKey t slot s) s

/-- A key enters a slot; the first one moves a BOUND TCX to LIVE (R156). -/
def installKey (c : Cmd) (slot key : Nat) (id : BitVec 64) (s : State) : State :=
  modTcx c.tcx (fun x => { x with
    keys := tabInsert x.keys slot { key := key, keyId := id }
    state := if x.state = .bound then .live else x.state
    keySluice := srcSluice s c.src }) s

/-- The 48-byte blob of a key (R154). [DESIGN CHOICE, log 16] -/
def keyBlob (open_ : Bool) (key : Nat) (id : BitVec 64) : List Byte := (List.range 48).map fun i => Config.blobByte open_ key id i

/-- A live SPDM session on the sluice's own LD (R156). -/
def sessionOf (s : State) (src : Src) (id : Nat) : Option Session :=
  ((srcSluice s src).bind fun ix => tabFind s.key.sessions ix).bind fun l => l.find? fun x => x.id = id && x.established

/-- The bytes of a KEY_LOAD's key material (Table 8.3). -/
def keyData (ws : List Word) : List Byte := (wordsToBytes (ws.drop 5)).take 48

/-- The fields that a KEY_LOAD's operation does not use are zero, and its HPA is aligned (Table 8.3). -/
def keyFields (ws : List Word) : Bool :=
  let op := field ws 3 7 4
  let zero := fun (l : List Nat) => l.all fun n => decide (wordAt ws n = 0)
  (decide (op = 1) || zero [4]) && (decide (op = 0) || decide (word64 ws 18 = 0)) && decide (word64 ws 18 % 64 = 0)
    && (match op with | 1 => zero [15, 16] | 2 => true | _ => zero ((List.range 12).map (· + 5)))

/-- A key slot of a TCX is named by a valid segment. -/
def keySlotUsed (s : State) (t slot : Nat) : Bool :=
  (List.range 16).any fun n => (segOf s t n).valid && decide ((segOf s t n).keySlot.toNat = slot)

/-- `KEY_LOAD` (R155, R156). [DESIGN CHOICE, log 16] -/
def keyLoadBody (c : Cmd) (s : State) : State :=
  let ws := c.words
  let op := field ws 3 7 4
  let slot := field ws 3 1 0
  let x := tcxOf s c.tcx
  let open_ := decide (s.dbg.lock = .open_)
  let data := keyData ws
  let hpa := word64 ws 18
  let occupied := (tabFind x.keys slot).isSome
  let used := keySlotUsed s c.tcx slot
  if tcxHeld s c.tcx then finishWith c .held 0 s
  else if x.state = .free ∨ isOpenMode (polderOf s x.polder).modes ∨ op > 3 ∨ keyFields ws = false
      ∨ (op ≠ 3 ∧ occupied) ∨ (op = 3 ∧ (!occupied || used)) then finishWith c .invalid 0 s
  else match op with
    | 0 =>
      let key := s.free
      let id := Config.drawnKeyId key
      let s := drawFree (installKey c slot key id s)
      let s := { s with key := { s.key with made := s.key.made ++ [(open_, key, id)] } }
      finishHpa c hpa (keyBlob open_ key id ++ toBytes 8 id.toNat ++ toBytes 8 0) { value := id.toNat % 2 ^ 32 } s
    | 1 =>
      match sessionOf s c.src (wordAt ws 4) with
      | none => finishWith c .keyRefused 0 s
      | some session =>
        match Config.transportKey session.secret (data.take 40) with
        | none => finishWith c .keyRefused 0 s
        | some key =>
          let id := Config.drawnKeyId s.free
          finishWith c .ok (id.toNat % 2 ^ 32) (drawFree (installKey c slot key id s))
    | 2 =>
      match s.key.made.find? fun m => m.1 = open_ && keyBlob m.1 m.2.1 m.2.2 = data with
      | none => finishWith c .keyRefused 0 s
      | some m => finishWith c .ok (m.2.2.toNat % 2 ^ 32) (installKey c slot m.2.1 m.2.2 s)
    | _ => finishWith c .ok 0 (destroyKey c.tcx slot s)

/-- The bytes of a TPA range become zero and lose their poison: a fill, a scrub or a start-up zero-fill. -/
def zeroTpa (a len : Nat) (s : State) : State :=
  if regionOf a = .flash then
    match polderAt s a with
    | none => s
    | some p => dropRanges [(a, len)] (unmapUnits (listedUnits s (polderOf s p) [(a, len)]) s)
  else
    let s := { s with mem := { s.mem with
      bytes := tabFilter s.mem.bytes fun k _ => decide (k < a ∨ a + len ≤ k)
      poison := tabFilter s.mem.poison fun k _ => decide (k * 64 < a ∨ a + len ≤ k * 64) } }
    dropRanges [(a, len)] s

/-- `GRANULE_FILL_COMPLETE` (R152): the granule reads as zero and is bound, unless the requesting key has gone. -/
def granuleFilled (tpa : Nat) (s : State) : State :=
  match s.key.fills.find? fun f => f.granule = granuleOf tpa with
  | none => s
  | some f =>
    let s := { s with key := { s.key with fills := s.key.fills.filter fun g => g.granule ≠ f.granule } }
    let start := tpa / granuleBytes tpa * granuleBytes tpa
    match keySlotOf s f.tcx f.slot with
    | some k =>
      if k.key = f.key then
        zeroTpa start (granuleBytes tpa)
          { s with key := { s.key with bindings := tabPut s.key.bindings .unbound f.granule (.bound f.tcx f.slot) } }
      else s
    | none => s

/-! ### TENANT_CREATE and TENANT_RESET (R40 to R44, R372) -/

/-- `TENANT_CREATE`. [DEDUCED, log 40] -/
def tenantCreateBody (c : Cmd) (s : State) : State :=
  let t := hdrTcx c.words
  let p := field c.words 3 5 0
  let x := tcxOf s t
  if x.state ≠ .free then finishWith c .invalid 0 s
  else if (polderOf s p).state = .draining then finishWith c .held 0 s
  else if (polderOf s p).state ≠ .live then finishWith c .invalid 0 s
  else
    let s := setTcx t { x with state := if isOpenMode (polderOf s p).modes then .live else .bound, polder := p } s
    let s := match srcSluice s c.src with
      | some ix => { s with q := { s.q with creator := tabInsert s.q.creator t ix } }
      | none => s
    finishWith c .ok x.epoch.toNat s

/-- Tables of a TCX. -/
def tcxTables (s : State) (t : Nat) : List Nat := (s.tbl.tables.filter fun e => e.1 / 64 = t).map (·.1)

/-- A command that a reset of a TCX fences: of the TCX, and neither a reset nor past its decision at SCH. [DEDUCED, log 40] -/
def fencedBy (t : Nat) (c : Cmd) : Bool :=
  (opRow c.opcode).any (·.names) && decide (c.tcx = t ∧ c.opcode ≠ 0x19) && (isDataOp c.opcode || !c.decided)

/-- Table 2.7 steps 1 and 2: the epoch advances, and what runs or waits for the TCX completes `FENCED`. [DEDUCED, log 40] -/
def beginReset (t : Nat) (release : Bool) (s : State) : State :=
  let s := modTcx t (fun x => { x with state := .resetting, back := if x.state = .resetting then x.back else x.state
                                       epoch := x.epoch + 1, release := release }) s
  let s := { s with eng := { s.eng with segCaches := tabMap s.eng.segCaches [] fun _ l => l.filter fun c => c.tcx ≠ t
                                        misses := s.eng.misses.filter fun m => m.entry / 16 ≠ t
                                        waiting := s.eng.waiting.filter fun w => w.tcx ≠ t }
                    weir := { s.weir with streams := tabErase s.weir.streams t } }
  let s := ((s.q.cmds.filter (fencedBy t)).map (·.serial)).foldl (fun s k => fenceCommand k (spoilOutputs k s)) s
  (tcxTables s t).foldl (fun s key => discardOpen key s) s

/-- A TCX is released to FREE (Table 2.8): segments cleared with GEN advanced, keys destroyed, tables, windows and policer
gone; only the epoch stays. -/
def releaseTcx (t : Nat) (s : State) : State :=
  let s := destroyKeys t s
  let s := (tcxTables s t).foldl (fun s key =>
    match tabFind s.tbl.tables key with
    | none => s
    | some tb => dropTable key ((tableVersions tb).foldl (fun s v => freeOverlay (tcxOf s t).polder v s) s)) s
  let s := (List.range 16).foldl (fun s n => setSeg t n { gen := (segOf s t n).gen + 1 } s) s
  let s := dropSegAll s
  { s with
    tcxs := tabPut s.tcxs {} t { epoch := (tcxOf s t).epoch, tagFails := (tcxOf s t).tagFails }
    tier := { s.tier with windows := tabFilter s.tier.windows fun _ w => decide (w.owner.toNat ≠ t ∨ w.valid = false) }
    weir := { s.weir with policers := tabFilter s.weir.policers fun k _ => decide (k / 4 ≠ t) }
    q := { s.q with creator := tabErase s.q.creator t } }
where
  dropSegAll (s : State) : State := (List.range 16).foldl (fun s n => dropSegCopies t n s) s

/-- Table 2.7 steps 3 to 5: what is left of the TCX's tiles is discarded, its counters are zeroed, and it returns to its
state or to FREE. -/
def endReset (t : Nat) (s : State) : State :=
  let x := tcxOf s t
  let mine := (s.eng.tiles.filter fun e => e.2.tcx = t).map (·.1)
  let s := { s with eng := { s.eng with
      tiles := tabFilter s.eng.tiles fun _ v => decide (v.tcx ≠ t)
      stores := tabMap s.eng.stores {} fun _ st => if st.served.contains t then { corrected := st.corrected } else st }
                    tier := { s.tier with thReads := tabFilter s.tier.thReads fun k _ => !mine.contains k } }
  let s := modTcx t (fun x => { x with arrival := [], state := x.back, release := false }) s
  if x.release then releaseTcx t s else s

/-- Resets of a TCX that have run complete with the new epoch. -/
def resetsDone (t : Nat) (s : State) : State :=
  let epoch := (tcxOf s t).epoch.toNat
  (s.q.cmds.filter fun c => decide (c.opcode = 0x19 ∧ c.phase = 1 ∧ c.tcx = t)).foldl (fun s c => finishWith c .ok epoch s) s

/-- `TENANT_RESET`: a second one of a TCX in RESETTING waits; one that meets a drain is joined to it (R43). -/
def tenantResetBody (c : Cmd) (s : State) : State :=
  let t := c.tcx
  let x := tcxOf s t
  let release := flag c.words 3 0
  if x.state = .free then finishWith c .invalid 0 s
  else if (polderOf s x.polder).state = .draining ∧ x.state = .resetting then
    modCmd c.serial (fun c => { c with phase := 1, decided := true }) (modTcx t (fun x => { x with release := x.release || release }) s)
  else if (polderOf s x.polder).state = .draining then
    finishWith c .ok x.epoch.toNat (if release then releaseTcx t s else s)
  else if x.state = .resetting then s
  else modCmd c.serial (fun c => { c with phase := 1, decided := true }) (beginReset t release s)

/-- `RESET_ENGINE_CUTOFF`: the reset of a TCX, its own or a drain's (R31), reaches step 5. [DEDUCED, log 40] -/
def resetCutoff (t : Nat) (s : State) : State :=
  let x := tcxOf s t
  if x.state ≠ .resetting then s
  else resetsDone t (endReset t s)

/-! ### POLICER_SET (R180) -/

/-- `POLICER_SET`: the four entry dies take the rates, with full buckets. -/
def policerSetBody (c : Cmd) (s : State) : State :=
  let ws := c.words
  let host := flag ws 3 12
  let hid := field ws 3 7 0
  let enable := flag ws 3 31
  let cir := wordAt ws 4
  let pir := wordAt ws 5
  let cbs := wordAt ws 6
  let pbs := wordAt ws 7
  let n := if host then 4096 + hid else c.tcx
  let ranges := decide (1 ≤ cir ∧ cir ≤ 819200 ∧ cir ≤ pir ∧ pir ≤ 819200 ∧ 1 ≤ cbs ∧ cbs ≤ 65536 ∧ cbs ≤ pbs ∧ pbs ≤ 65536)
  if !host && tcxHeld s c.tcx then finishWith c .held 0 s
  else if (!host && decide (hid ≠ 0)) || (enable && !ranges) then finishWith c .invalid 0 s
  else
    let p : Policer := if enable then
        { enable := true, cir := cir, pir := pir, cbs := cbs * 1024, pbs := pbs * 1024
          tc := cbs * 1024000, tp := pbs * 1024000, last := s.time }
      else {}
    finishWith c .ok 0 ((List.range 4).foldl (fun s d =>
      { s with weir := { s.weir with policers := tabPut s.weir.policers {} (4 * n + d) p } }) s)

/-! ### DIGEST_SETUP (R316) -/

/-- `DIGEST_SETUP`: the ring is checked whole for W and enabled from record 0, or disabled. -/
def digestSetupBody (c : Cmd) (s : State) : State :=
  let ws := c.words
  let enable := flag ws 3 31
  let base := word64 ws 4
  let entries := wordAt ws 6
  if !enable then finishWith c .ok 0 (modTcx c.tcx (fun x => { x with digest := {} }) s)
  else if base % 4096 ≠ 0 ∨ entries < 16 ∨ entries > 65536 ∨ popcount 17 entries ≠ 1 then finishWith c .invalid 0 s
  else
    let r := checkWhole base (160 * entries) .write 0x3 (fun _ => false) (runOf c s)
    if r.stopped then concludeRun r {} s
    else finishWith c .ok 0 (modTcx c.tcx (fun x => { x with
      digest := { enable := true, cnt := field ws 3 3 0, base := base, entries := entries, seq := 0 } }) r.s)

end Sys2Proof.Machine
end

