-- ==== Sys2Proof/Machine/Polders.lean ====
section
/-!
DEFINITION. Polders (R21 to R32, R327 to R335, R368 to R370) and the host identity table (R34 to R36, R371).
-/

namespace Sys2Proof.Machine

/-! ### Slices (R21, Table 2.1) -/

structure PolderReq where
  number : Nat
  rowCache : Nat
  promo : Nat
  modes : BitVec 32
  ddr : Nat
  cores : Nat
  pools : Nat
  nand : Nat
  hbm : Nat
  rows : Nat
  crown : Nat
  quarters : Nat
  ranges : Nat
deriving DecidableEq, Repr

/-- Table 18.6. -/
def polderReq (ws : List Word) : PolderReq :=
  { number := field ws 3 5 0, rowCache := field ws 3 13 8, promo := field ws 3 24 16, modes := BitVec.ofNat 32 (wordAt ws 4)
    ddr := wordAt ws 5, cores := wideAt ws 6 4, pools := wideAt ws 10 4, nand := wideAt ws 14 2, hbm := wideAt ws 16 8
    rows := wideAt ws 24 2, crown := wordAt ws 26, quarters := wideAt ws 27 3, ranges := word64 ws 30 }

/-- No polder holds the slice. -/
def unheld (s : State) (holds : Polder → Bool) : Bool := !(s.polders.any fun e => holds e.2)

def coreFree (s : State) (n : Nat) : Bool :=
  unheld s (fun p => p.cores.getLsbD n) && !s.flt.coreQ.getLsbD n && !s.flt.failedCores.getLsbD n && !s.flt.dieFailed.getLsbD (n / 32)

def ddrFree (s : State) (n : Nat) : Bool :=
  unheld s (fun p => p.ddr.getLsbD n) && s.tray.ddrPresent.getLsbD n && !s.res.failedDdr.getLsbD n && s.fw.filledDdr.getLsbD n
    && !s.flt.dieFailed.getLsbD (n / 6)

def nandFree (s : State) (n : Nat) : Bool :=
  unheld s (fun p => p.nand.getLsbD n) && (nandOf s n).present && decide ((nandOf s n).health ≠ .failed) && !s.flt.dieFailed.getLsbD (n / 16)

def hbmFree (s : State) (n : Nat) : Bool :=
  unheld s (fun p => p.hbm.getLsbD n) && !s.res.failedHbm.getLsbD n && s.fw.filledHbm.getLsbD n && !s.flt.dieFailed.getLsbD (n / 64)

/-- A row-store unit spans the stacks of every die. -/
def rowFree (s : State) (n : Nat) : Bool :=
  unheld s (fun p => p.rows.getLsbD n) && s.fw.filledRow.getLsbD n && decide (s.flt.dieFailed = 0)

def crownFree (s : State) (n : Nat) : Bool :=
  unheld s (fun p => p.crown.getLsbD n) && !s.flt.crownQ.getLsbD n && !s.flt.failedCrown.getLsbD n && !s.flt.dieFailed.getLsbD (n / 8)

def quarterFree (s : State) (n : Nat) : Bool :=
  unheld s (fun p => p.quarters.getLsbD n) && !s.flt.portFailed.getLsbD (n / 4)

/-- Every slice that a request names is free. -/
def slicesFree (s : State) (q : PolderReq) : Bool :=
  (maskBits 128 q.cores).all (coreFree s) && (maskBits 24 q.ddr).all (ddrFree s) && (maskBits 64 q.nand).all (nandFree s)
    && (maskBits 256 q.hbm).all (hbmFree s) && (maskBits 53 q.rows).all (rowFree s) && (maskBits 32 q.crown).all (crownFree s)
    && (maskBits 68 q.quarters).all (quarterFree s)

/-! ### Capacities (R27, R29, Table 7.4, Table 8.4, R93, R146) -/

/-- C of R27 in GiB. -/
def dimmUsable (s : State) : Nat := s.tray.dimmGib - s.tray.share

/-- L of R27 in GiB: 88 % of the raw capacity. -/
def nandUsable (s : State) : Nat := s.tray.nandGib * 88 / 100

/-- Usable DRAM in GiB for `c` channels. -/
def dramUsable (s : State) (m : BitVec 32) (c : Nat) : Nat :=
  let cap := dimmUsable s
  if c = 0 then 0
  else if isMirror m then (if isTagged m then c / 2 * cap * 8 / 9 else c / 2 * cap)
  else if isParity m then (if isTagged m then (c - 1) * cap * 64 / 81 else (c - 1) * cap * 8 / 9)
  else if isTagged m then c * cap * 8 / 9 else c * cap

/-- Usable HBM in bytes for `c` pseudo-channels, before the pools. -/
def hbmUsable (m : BitVec 32) (c : Nat) : Nat :=
  let half := if isMirror m then c / 2 else c
  if isTagged m then half * pseudoBytes * 8 / 9 / gib * gib else half * pseudoBytes

/-- The lowest 1 GiB-aligned base in a region at which a range is free (R29). -/
def findBase (lo hi size : Nat) (used : List (Nat × Nat)) : Option Nat :=
  let up := fun a => (a + gib - 1) / gib * gib
  let cands := lo :: (used.map fun u => up (u.1 + u.2))
  let ok := fun a => decide (lo ≤ a ∧ a + size ≤ hi) && used.all fun u => decide (a + size ≤ u.1 ∨ u.1 + u.2 ≤ a)
  (cands.filter ok).foldl (fun best a => match best with | none => some a | some b => some (min a b)) none

/-- A range of a region for a new polder; the empty one where it holds no such slice. -/
def placeRange (s : State) (lo hi size usable : Nat) (range : Polder → PRange) : Option PRange :=
  if size = 0 then some {}
  else (findBase lo hi size ((s.polders.filter fun e => (range e.2).size ≠ 0).map fun e => ((range e.2).base, (range e.2).size))).map
    fun b => { base := b, size := size, usable := usable }

/-! ### Modes (R327 to R335) -/

/-- Axes of a mode word that carry a reserved encoding. -/
def reservedAxes (m : BitVec 32) : List Nat :=
  (if modeCoh m = 0 then [0] else []) ++ (if modeRes m = 0 ∨ modeRes m > 4 then [1] else [])
    ++ (if modeInteg m = 0 ∨ modeInteg m = 3 then [2] else []) ++ (if modeDet m = 0 then [4] else [])
    ++ (if modePwr m = 3 then [5] else []) ++ (if modeSfmt m = 0 ∨ modeSfmt m = 3 then [6] else [])
    ++ (if modeSpill m = 0 ∨ modeSpill m = 3 then [7] else [])

/-- Pairs of MIRROR lie in different stacks (R138). -/
def mirrorOk (ddr hbm : Nat) : Bool :=
  let ids := maskBits 256 hbm
  let h := ids.length / 2
  decide (popcount 24 ddr % 2 = 0) && decide (ids.length % 2 = 0)
    && (List.range h).all fun k => decide (ids.getD k 0 / 32 ≠ ids.getD (k + h) 0 / 32)

/-- Axes of illegal combinations and broken preconditions (R328, R329). [DEDUCED, log 41] -/
def illegalAxes (m : BitVec 32) (ddr hbm quarters : Nat) : List Nat :=
  (if isTagged m && isOpenMode m then [2, 3] else []) ++ (if isReproducible m && spillEnabled m then [4, 7] else [])
    ++ (if modeCoh m = 1 ∨ modeCoh m = 2 then (if quarters = 0 then [0] else []) else [])
    ++ (if isMirror m && !mirrorOk ddr hbm then [1] else []) ++ (if isParity m && decide (popcount 24 ddr < 10) then [1] else [])

/-- A refusal mask from the axes that cause it. [DEDUCED, log 41] -/
def axisMask (l : List Nat) : Nat := (l.dedup.map fun x => 2 ^ x).sum

/-- Bits of an axis in the mode word. -/
def axisBits (x : Nat) : Nat :=
  match x with
  | 0 => 0xC0000000 | 1 => 0x38000000 | 2 => 0x06000000 | 3 => 0x01000000
  | 4 => 0x00C00000 | 5 => 0x00300000 | 6 => 0x000C0000 | 7 => 0x00030000 | _ => 0

/-! ### Clusters and their policies (R425) -/

/-- Clusters 0 to 15 hold the compute cores, 20 to 23 the crown cores, eight each. -/
def clusterCores (p : Polder) (cl : Nat) : List Nat :=
  if cl < 16 then (maskBits 128 p.cores.toNat).filter fun n => n / 8 = cl
  else if 20 ≤ cl then (maskBits 32 p.crown.toNat).filter fun n => n / 8 = cl - 20
  else []

/-- Polders with a core in a cluster. -/
def clusterPolders (s : State) (cl : Nat) : List Nat := (s.polders.filter fun e => clusterCores e.2 cl ≠ []).map (·.1)

/-- The designated clusters of a LATENCY polder. -/
def designated (p : Polder) : List Nat :=
  let b := (maskBits 128 p.cores.toNat).filter fun n => p.poolB.getLsbD n
  let compute := match b with
    | n :: _ => [n / 8]
    | [] => ((maskBits 128 p.cores.toNat).take 1).map (· / 8)
  compute ++ ((maskBits 32 p.crown.toNat).take 1).map (fun n => 20 + n / 8)

/-- The deepest state that the policies let an idle cluster reach. -/
def allowedState (s : State) (cl : Nat) : DomainState :=
  let ps := (clusterPolders s cl).map (polderOf s)
  if ps.any fun p => decide (modePwr p.modes = 1) && (designated p).contains cl then .idle
  else if ps.any fun p => decide (modePwr p.modes ≠ 2) then .doze
  else .dark

def stateDepth : DomainState → Nat | .active => 0 | .idle => 1 | .doze => 2 | .dark => 3

def clusterOf (s : State) (cl : Nat) : Cluster := tabGet s.pwr.clusters {} cl

def modCluster (cl : Nat) (f : Cluster → Cluster) (s : State) : State :=
  { s with pwr := { s.pwr with clusters := tabModify s.pwr.clusters {} cl f } }

/-- Wakes a cluster to the state its policies allow, within the command that adds its cores (R369, R425). -/
def raiseCluster (cl : Nat) (to_ : DomainState) (s : State) : State :=
  if stateDepth (clusterOf s cl).state ≤ stateDepth to_ then s
  else modCluster cl (fun c => { c with state := to_, entering := none
                                        spread := if c.state = .doze ∨ c.state = .dark then s.pwr.sscEn else c.spread }) s

/-! ### POLDER_CREATE -/

/-- The range report of Table 18.7. -/
def rangeReport (p : Polder) : List Byte :=
  let work := popcount 256 p.hbm.toNat * 64 * mib
  toBytes 8 p.dramRange.base ++ toBytes 8 p.dramRange.usable ++ toBytes 8 p.hbmRange.base ++ toBytes 8 p.hbmRange.usable
    ++ toBytes 8 p.flashRange.base ++ toBytes 8 p.flashRange.size ++ toBytes 8 (p.promoPool * gib) ++ toBytes 8 work

/-- The polder of a request, with its ranges, where R29 finds them. -/
def buildPolder (s : State) (q : PolderReq) : Option Polder :=
  let cd := popcount 24 q.ddr
  let ch := popcount 256 q.hbm
  let cn := popcount 64 q.nand
  let work := ch * 64 * mib
  let u := hbmUsable q.modes ch
  if q.promo * gib + work > u then none
  else
    (placeRange s 0 0x0C0000000000 (cd * dimmUsable s * gib) (dramUsable s q.modes cd * gib) (·.dramRange)).bind fun d =>
    (placeRange s 0x100000000000 0x104800000000 (ch * pseudoBytes) (u - q.promo * gib - work) (·.hbmRange)).bind fun h =>
    (placeRange s 0x200000000000 0x1200000000000 (cn * nandUsable s * gib) (cn * nandUsable s * gib) (·.flashRange)).map fun f =>
      { state := .live, modes := q.modes, cores := BitVec.ofNat 128 q.cores, poolB := BitVec.ofNat 128 q.pools
        ddr := BitVec.ofNat 24 q.ddr, nand := BitVec.ofNat 64 q.nand, hbm := BitVec.ofNat 256 q.hbm, rows := BitVec.ofNat 53 q.rows
        crown := BitVec.ofNat 32 q.crown, quarters := BitVec.ofNat 68 q.quarters
        dramRange := d, hbmRange := h, flashRange := f, rowCacheUnits := q.rowCache, promoPool := q.promo
        predictorKey := s.free, rowKey := s.free + 1 }

/-- Clusters of a new polder reach the states of R369. -/
def wakePolder (n : Nat) (s : State) : State :=
  let p := polderOf s n
  let compute := ((List.range 16) ++ [20, 21, 22, 23]).filter fun cl => clusterCores p cl ≠ []
  let s := compute.foldl (fun s cl => raiseCluster cl (allowedState s cl) s) s
  (((maskBits 64 p.nand.toNat).map (· / 16)).dedup).foldl (fun s d => raiseCluster (16 + d) .idle s) s

/-- `POLDER_CREATE` (R369). [DEDUCED, log 41] -/
def polderCreateBody (c : Cmd) (s : State) : State :=
  let q := polderReq c.words
  let st := (polderOf s q.number).state
  let refused := axisMask (reservedAxes q.modes ++ illegalAxes q.modes q.ddr q.hbm q.quarters)
  let hpaOk := decide (q.ranges % 64 = 0) && (decide (q.ranges ≠ 0) || hpaCarried c.src q.ranges)
  if st = .draining ∨ st = .scrubbing then finishWith c .held 0 s
  else if st ≠ .absent ∨ hpaOk = false ∨ slicesFree s q = false ∨ (q.pools ||| q.cores) ≠ q.cores
      ∨ (q.ddr = 0 ∧ q.nand = 0 ∧ q.hbm = 0 ∧ q.rows = 0) ∨ q.rowCache > popcount 53 q.rows then finishWith c .invalid 0 s
  else if refused ≠ 0 then finishWith c .invalid refused s
  else match buildPolder s q with
    | none => finishWith c .invalid 0 s
    | some p =>
      let s := drawFree (drawFree (setPolder q.number p s))
      let s := { s with ftl := { s.ftl with bulk := s.ftl.bulk.filter fun g => !inRange p.flashRange (g * gib) } }
      let s := wakePolder q.number s
      finishHpa c q.ranges (rangeReport p) { value := quotaOf p } s

/-! ### POLDER_MODE_SET (R331 to R335) -/

/-- An axis may change from one mode word to another in a polder's state (Table 16.4); an unchanged axis is accepted. -/
def axisMayChange (p : Polder) (x : Nat) (old new : BitVec 32) : Bool :=
  let drained := decide (p.state = .drained)
  if (old.toNat &&& axisBits x) = (new.toNat &&& axisBits x) then true
  else match x with
    | 0 => drained
    | 1 => drained && decide (3 ≤ modeRes old ∧ modeRes old ≤ 4 ∧ 3 ≤ modeRes new ∧ modeRes new ≤ 4) && !p.fatal
    | 2 | 3 => false
    | 4 => drained || (!isReproducible old && !isReproducible new)
    | _ => true

/-- A range of a valid HIT entry lies in a polder. -/
def hitInPolder (s : State) (n : Nat) : Bool :=
  s.hit.any fun e => e.2.valid && e.2.ranges.any fun r => decide (r.length ≠ 0) && decide (polderAt s (r.base.toNat * (2 * mib)) = some n)

/-- Axes that a `POLDER_MODE_SET` names in CHANGE (R334, Table 16.5). -/
def namedAxes (ws : List Word) : List Nat := (List.range 8).filter fun x => (field ws 5 8 0).testBit x

/-- The mode word after a `POLDER_MODE_SET`: the named axes are those of MODE, the others stay (R335). -/
def modesAfter (p : Polder) (ws : List Word) : BitVec 32 :=
  let bits := ((namedAxes ws).map axisBits).sum
  BitVec.ofNat 32 ((p.modes.toNat &&& (0xFFFFFFFF - bits)) + (wordAt ws 4 &&& bits))

/-- The refusal mask of a `POLDER_MODE_SET` of polder `n` (R328, R335). -/
def modeRefusal (s : State) (n : Nat) (ws : List Word) : Nat :=
  let p := polderOf s n
  let mode := wordAt ws 4
  let change := field ws 5 8 0
  let pools := wideAt ws 6 4
  let new := modesAfter p ws
  let stray := (List.range 8).filter fun x => !change.testBit x && decide ((mode &&& axisBits x) ≠ 0)
  let reserved := (reservedAxes (BitVec.ofNat 32 mode)).filter fun x => change.testBit x
  let illegal := illegalAxes new p.ddr.toNat p.hbm.toNat p.quarters.toNat
  let frozen := (namedAxes ws).filter fun x => !axisMayChange p x p.modes new
  let hidden := if change.testBit 0 && decide (modeCoh new = 3 ∧ modeCoh p.modes ≠ 3) && hitInPolder s n then [0] else []
  let poolBad := if change.testBit 8 then decide ((pools ||| p.cores.toNat) ≠ p.cores.toNat) else decide (pools ≠ 0)
  axisMask (stray ++ reserved ++ illegal ++ frozen ++ hidden ++ (if poolBad then [8] else []))

/-- `POLDER_MODE_SET`. -/
def polderModeSetBody (c : Cmd) (s : State) : State :=
  let ws := c.words
  let n := field ws 3 5 0
  let p := polderOf s n
  let new := modesAfter p ws
  if p.state = .absent then finishWith c .invalid 0 s
  else if field ws 5 8 0 ≠ 0 ∧ (p.state = .draining ∨ p.state = .scrubbing) then finishWith c .held 0 s
  else if modeRefusal s n ws ≠ 0 then finishWith c .invalid (modeRefusal s n ws) s
  else
    finishWith c .ok new.toNat (setPolder n { p with
      modes := new
      poolB := if (field ws 5 8 0).testBit 8 then BitVec.ofNat 128 (wideAt ws 6 4) else p.poolB
      realign := p.realign || (!isReproducible p.modes && isReproducible new) } s)

/-! ### POLDER_DRAIN (R31, R32, R333, R370) -/

/-- TCXs of a polder. -/
def polderTcxs (s : State) (n : Nat) : List Nat :=
  (s.tcxs.filter fun e => decide (e.2.state ≠ .free ∧ e.2.polder = n)).map (·.1)

/-- The drain begins: every TCX is reset, host requests fail, host copies are taken back. -/
def beginDrain (n : Nat) (action : DrainAction) (s : State) : State :=
  let s := modPolder n (fun p => { p with state := .draining, action := action }) s
  let s := (polderTcxs s n).foldl (fun s t => beginReset t (tcxOf s t).release s) s
  if isHdmDb (polderOf s n).modes then
    backInvalidate (fun line _ => decide (polderAt s (line * 64) = some n)) s
  else s

/-- Scrubbing begins: keys are destroyed and the TCXs are released (R32 step 1). -/
def beginScrub (n : Nat) (s : State) : State :=
  (polderTcxs s n).foldl (fun s t => releaseTcx t s) (modPolder n (fun p => { p with state := .scrubbing, action := .release }) s)

/-- `POLDER_DRAIN`s of a polder that have reached their state complete. -/
def drainsDone (n : Nat) (s : State) : State :=
  (s.q.cmds.filter fun c => decide (c.opcode = 0x12 ∧ c.phase ≠ 0 ∧ field c.words 3 5 0 = n)).foldl (fun s c => finishWith c .ok 0 s) s

/-- Clusters whose cores all belong to a polder or are free. -/
def ownClusters (s : State) (n : Nat) : List Nat :=
  ((List.range 16) ++ [20, 21, 22, 23]).filter fun cl => clusterPolders s cl = [n]

/-- `POLDER_DRAIN` with REOPEN: into REPRODUCIBLE its clusters pass through DOZE and restart on a start beat (R333). -/
def reopen (c : Cmd) (n : Nat) (s : State) : State :=
  let p := polderOf s n
  let s := setPolder n { p with state := .live, realign := false } s
  if p.realign && isReproducible p.modes then
    let s := (ownClusters s n).foldl (fun s cl =>
      modCluster cl (fun x => { x with state := if x.state = .dark then .dark else .doze, entering := none, waking := true, waitBeat := true }) s) s
    modCmd c.serial (fun c => { c with phase := 2, decided := true }) s
  else finishWith c .ok 0 s

/-- A REOPEN into REPRODUCIBLE completes when its clusters have restarted. -/
def settleReopens (s : State) : State :=
  (s.q.cmds.filter fun c => decide (c.opcode = 0x12 ∧ c.phase = 2)).foldl (fun s c =>
    if (ownClusters s (field c.words 3 5 0)).any fun cl => (clusterOf s cl).waking then s else finishWith c .ok 0 s) s

def polderDrainBody (c : Cmd) (s : State) : State :=
  let n := field c.words 3 5 0
  let action := field c.words 3 9 8
  let waits := modCmd c.serial (fun c => { c with phase := 1, decided := true })
  match (polderOf s n).state with
  | .draining | .scrubbing => finishWith c .held 0 s
  | .absent => finishWith c .invalid 0 s
  | .live =>
    if action = 0 then waits (beginDrain n .keep s)
    else if action = 1 then waits (beginDrain n .release s)
    else finishWith c .invalid 0 s
  | .drained =>
    if action = 2 then reopen c n s
    else if action = 1 then waits (beginScrub n s)
    else finishWith c .invalid 0 s

/-- Host snoops of the polder's lines are still out. -/
def drainSnoops (s : State) (n : Nat) : Bool :=
  s.coh.flows.any fun e => decide (polderAt s (e.1 * 64) = some n) && decide (e.2.snoops ≠ [])

/-- `DRAIN_COMPLETE`: every TCX has been reset; the polder is DRAINED, or its scrub begins. -/
def drainComplete (n : Nat) (s : State) : State :=
  let p := polderOf s n
  if p.state ≠ .draining ∨ drainSnoops s n then s
  else
    let tcxs := polderTcxs s n
    let s := tcxs.foldl (fun s t => if (tcxOf s t).state = .resetting then resetsDone t (endReset t s) else s) s
    let s := { s with eng := { s.eng with
      stores := tabMap s.eng.stores {} fun core st => if p.cores.getLsbD core then { corrected := st.corrected } else st } }
    if p.action = .release then beginScrub n s
    else drainsDone n (modPolder n (fun p => { p with state := .drained }) s)

/-- Free cores are DARK: clusters without a polder leave their state (R21, R436). -/
def darkenFree (s : State) : State :=
  ((List.range 16) ++ [20, 21, 22, 23]).foldl (fun s cl =>
    if clusterPolders s cl = [] then modCluster cl (fun _ => {}) s else s) s

/-- `SCRUB_COMPLETE` (R32): every byte is zero, flash is unmapped, the slices return to the free pool. The DRAM zero-fill is
paused while the interlock is open (R487). -/
def scrubComplete (n : Nat) (s : State) : State :=
  let p := polderOf s n
  if p.state ≠ .scrubbing ∨ ((s.pins.ilOpen ∨ s.pins.ilFault) ∧ p.ddr ≠ 0) then s
  else
    let flash := s.ftl.map.filterMap fun e => if (unitTpa p e.1).isSome then some e.1 else none
    let rows := (maskBits 53 p.rows.toNat).map fun u => (rowBase + u * unitBytes, unitBytes)
    let s := unmapUnits flash s
    let s := ((p.dramRange.base, p.dramRange.size) :: (p.hbmRange.base, p.hbmRange.size) :: rows).foldl (fun s r =>
      if r.2 = 0 then s else zeroTpa r.1 r.2 s) s
    let s := dropRanges [(p.flashRange.base, p.flashRange.size)] s
    let mine := fun a => decide (polderAt s a = some n)
    let s := { s with
      key := { s.key with
        bindings := tabFilter s.key.bindings fun g _ => !mine (if g % 2 = 0 then g / 2 * (2 * mib) else g / 2 * gib)
        fills := s.key.fills.filter fun f => !mine (if f.granule % 2 = 0 then f.granule / 2 * (2 * mib) else f.granule / 2 * gib) }
      ftl := { s.ftl with bulk := s.ftl.bulk.filter fun g => !inRange p.flashRange (g * gib) }
      tbl := { s.tbl with cache := tabFilter s.tbl.cache fun k _ => decide (k / 2 ^ 24 ≠ n)
                          sketch := tabFilter s.tbl.sketch fun k _ => decide (k / 2 ^ 24 / 4 ≠ n)
                          increments := tabErase s.tbl.increments n }
      tier := { s.tier with sample := tabFilter s.tier.sample fun b _ => !mine (b * 65536) }
      coh := { s.coh with sets := tabMap s.coh.sets [] fun _ l => l.filter fun d => d.polder ≠ n }
      flt := { s.flt with failedCores := s.flt.failedCores ||| (s.flt.coreQ &&& p.cores)
                          failedCrown := s.flt.failedCrown ||| (s.flt.crownQ &&& p.crown) } }
    drainsDone n (darkenFree (setPolder n {} s))

/-! ### The HIT (R34 to R36, R371) -/

/-- Range `i` of an entry whose word 0 is word `n`. -/
def hitRangeAt (ws : List Word) (n i : Nat) : HitRange :=
  let k := n + 4 + 2 * i
  { a := flag ws k 31, w := flag ws k 30, r := flag ws k 29, base := BitVec.ofNat 29 (field ws k 28 0), length := BitVec.ofNat 29 (field ws (k + 1) 28 0) }

/-- A range in bytes. -/
def hitRangeBytes (r : HitRange) : Nat × Nat := (r.base.toNat * (2 * mib), r.length.toNat * (2 * mib))

/-- One range of an entry obeys R35. -/
def hitRangeOk (s : State) (mask : BitVec 64) (r : HitRange) : Bool :=
  let (a, n) := hitRangeBytes r
  let region := regionOf a
  decide (region = .dram ∨ region = .hbm ∨ region = .row) && (!r.a || r.w)
    && match polderAt s a with
      | none => false
      | some p => mask.getLsbD p && inPolder (polderOf s p) a n && !isPrivate (polderOf s p).modes

/-- The checks of R35 on an entry with VALID = 1. -/
def hitOk (s : State) (mask : BitVec 64) (ranges : List HitRange) : Bool :=
  let used := ranges.filter fun r => r.length ≠ 0
  used.all (hitRangeOk s mask) && used.Pairwise fun a b =>
    let x := hitRangeBytes a
    let y := hitRangeBytes b
    x.1 + x.2 ≤ y.1 ∨ y.1 + y.2 ≤ x.1

/-- Lines whose homes a `HIT_WRITE` waits for: those the host may no longer hold, and those with a request of the host. -/
def hitLines (s : State) (hid : Nat) : List Nat :=
  let held := s.coh.sets.flatMap fun e => (e.2.filter fun d => (hostHolders s d).contains hid).map fun d => lineOfSlot e.1 d
  let busy := (s.coh.flows.filter fun e => (e.2.req :: e.2.queue ++ e.2.members).any fun r => askerHid r.asker = some hid).map (·.1)
  ((held.filter fun l => lineDb s l && !mayHold s hid l) ++ busy).dedup

/-- `HIT_WRITE`. -/
def hitWriteBody (c : Cmd) (s : State) : State :=
  let ws := c.words
  let hid := field ws 3 7 0
  let old := hitOf s hid
  let valid := flag ws 4 8
  let mask := BitVec.ofNat 64 (word64 ws 6)
  let ranges := (List.range 16).map fun i => hitRangeAt ws 4 i
  let moving := ranges.any fun r => decide (r.length ≠ 0) && match polderAt s (hitRangeBytes r).1 with
    | some p => decide ((polderOf s p).state = .draining ∨ (polderOf s p).state = .scrubbing)
    | none => false
  if field ws 4 7 0 ≠ hid then finishWith c .invalid 0 s
  else if valid && !hitOk s mask ranges then finishWith c .invalid 0 s
  else if old.sweeping ∨ (valid ∧ moving) then finishWith c .held 0 s
  else
    let s := setHit hid { old with valid := valid, admin := flag ws 4 10, dead := old.dead && !valid, mask := mask, ranges := ranges } s
    let lines := hitLines s hid
    let s := modCmd c.serial (fun c => { c with lines := lines, outcome := some {}, decided := true, phase := 1 }) s
    lines.foldl (fun s l => requestLine l { op := .evictHost hid, asker := .command c.serial, tpa := l * 64 } s) s

/-- Words of an entry as `HIT_READ` and IDENTIFY show it (Table 2.5). -/
def hitWords (s : State) (hid : Nat) : List Word :=
  let h := hitOf s hid
  let bound := match ldOfHid s hid with | some ld => 2 ^ 25 + ld % 16 * 2 ^ 21 + ld / 16 * 2 ^ 16 | none => 0
  let w0 := bound + boolBit h.admin 10 + boolBit h.dead 9 + boolBit h.valid 8 + hid
  [BitVec.ofNat 32 w0, 0] ++ toWords 2 h.mask.toNat ++ (List.range 16).flatMap fun i =>
    let r := h.ranges.getD i {}
    [BitVec.ofNat 32 (boolBit r.a 31 + boolBit r.w 30 + boolBit r.r 29 + r.base.toNat), BitVec.ofNat 32 r.length.toNat]

/-- `HIT_READ`. -/
def hitReadBody (c : Cmd) (s : State) : State :=
  let hpa := word64 c.words 4
  if hpa % 64 ≠ 0 then finishWith c .invalid 0 s
  else finishHpa c hpa (wordsToBytes (hitWords s (field c.words 3 7 0))) {} s

end Sys2Proof.Machine
end

