-- ==== Sys2Proof/Machine/Engines.lean ====
section
/-!
DEFINITION. What hosts send over CXL.mem and as AtomicOps (R33, R37, R38, R69, R77, R83), and the accesses of engines,
scan engines and crown cores: segment caches and their misses, tiles, and what ends them (R57 to R63, R73 to R80, R100).
-/

namespace Sys2Proof.Machine

/-! ### The check of a host request (R37, R38) -/

def hidOfReq (s : State) (q : MemReq) : Option Nat := tabFind s.q.bound (sluiceIx q.port q.ld)

/-- A stream of the LD is INSECURE: its later requests are refused (R163). -/
def ldInsecure (s : State) (ld : Nat) : Bool := s.key.streams.any fun e => decide (e.1 / 256 = ld) && decide (e.2.state = .insecure)

/-- The stream that carries a request is SECURE (R164). -/
def streamSecure (s : State) (q : MemReq) : Bool :=
  match q.stream with
  | none => false
  | some st => decide ((tabGet s.key.streams {} (sluiceIx q.port q.ld * 256 + st.toNat)).state = .secure)

/-- A range of a HIT entry holds an address and grants what the request needs. -/
def rangeGrants (r : HitRange) (tpa : Nat) (need : Right) : Bool :=
  decide (r.base.toNat * (2 * mib) ≤ tpa ∧ tpa < (r.base.toNat + r.length.toNat) * (2 * mib))
    && (match need with | .read => r.r | .write => r.w | .atomic => r.a)

/-- A request of a bound LD passes R37, reaches a bound granule where its polder is encrypted (R153), and, for CXL.mem
(`mem`), comes through a decoder that agrees with the polder (R333) and in a SECURE stream where one is needed (R164). [DEDUCED, log 27] -/
def hostAllowed (s : State) (hid : Nat) (q : MemReq) (need : Right) (mem : Bool) : Bool :=
  let h := hitOf s hid
  let tpa := q.tpa.toNat
  h.valid && !h.dead && h.ranges.any (fun r => rangeGrants r tpa need) && !ldInsecure s (sluiceIx q.port q.ld) &&
  match polderAt s tpa with
  | none => false
  | some p =>
    let po := polderOf s p
    decide (po.state = .live) && (!mem || (isHdmDb po.modes == q.bi))
      && (isOpenMode po.modes || ((!mem || streamSecure s q) && (match bindingOf s tpa with | .bound _ _ => true | _ => false)))

/-- A refusal is counted for the HID and noticed; a message after DEAD is counted besides (R38, R83). -/
def refuseHost (hid : Nat) (q : MemReq) (s : State) : State :=
  let s := modHit hid (fun h => { h with violations := h.violations + 1, late := if h.dead then h.late + 1 else h.late }) s
  notifyFm { kind := 0x01, hid := hid, port := q.port.val } q.tpa.toNat s

/-- A request on an unbound LD is noticed by port and LD (R33). -/
def refuseUnbound (q : MemReq) (s : State) : State :=
  notifyFm { kind := 0x13, port := q.port.val, unit := q.ld.val } q.tpa.toNat s

/-- A refused read returns data with poison (R38). [DESIGN CHOICE, log 17] [DEDUCED, log 47] -/
def refusedRead (q : MemReq) (s : State) : State :=
  drawFree (sendS2m q.port q.ld q.tpa.toNat (.memData q.port q.ld q.tag.toNat (Config.refusedData s.free) 3 true) s)

/-- A refused write changes no byte and receives its `Cmp` (R38). -/
def refusedWrite (q : MemReq) (s : State) : State := sendS2m q.port q.ld q.tpa.toNat (.memCmp q.port q.ld q.tag.toNat false) s

/-- A refused atomic returns poison (R38). -/
def refusedAtomic (q : MemReq) (s : State) : State := emit (.tlp q.port q.ld q.tag.toNat 3 0) s

/-- A checked request goes on; any other is refused and answered. -/
def hostRequest (q : MemReq) (need : Right) (mem : Bool) (answer : State → State) (go : Nat → State → State) (s : State) : State :=
  match hidOfReq s q with
  | none => answer (refuseUnbound q s)
  | some hid => if hostAllowed s hid q need mem then go hid s else answer (refuseHost hid q s)

def hostAsker (hid : Nat) (q : MemReq) : Asker := .host hid q.port q.ld q.tag.toNat

/-! ### CXL.mem (Table 4.3) -/

/-- A host read: `MemRd` with any MetaValue, `MemRdData`. -/
def hostRead (q : MemReq) (op : LineOp) (s : State) : State :=
  hostRequest q .read true (refusedRead q) (fun hid s =>
    requestLine (lineOf q.tpa.toNat) { op := op, asker := hostAsker hid q, tpa := q.tpa.toNat } s) s

def readOp : MetaValue → LineOp
  | .any => .readOwned
  | .shared => .readShared
  | .invalid => .readAny

/-- `MEM_INV`: ownership without data. -/
def hostInvalidate (q : MemReq) (s : State) : State :=
  hostRequest q .read true (refusedWrite q) (fun hid s =>
    requestLine (lineOf q.tpa.toNat) { op := .invOwned, asker := hostAsker hid q, tpa := q.tpa.toNat } s) s

/-- `MEM_CLN_EVCT`: the host leaves an exact sharer list (R67). [DEDUCED, log 47] -/
def hostEvict (q : MemReq) (s : State) : State :=
  hostRequest q .read true (refusedWrite q) (fun hid s =>
    let line := lineOf q.tpa.toNat
    let s := match slotOf s line with
      | none => s
      | some d =>
        if d.crown || d.coarse || !d.ids.contains hid then s
        else if d.ids.filter (· ≠ hid) = [] then removeSlot line s
        else refreshSlot line { d with ids := d.ids.filter (· ≠ hid) } s
    sendS2m q.port q.ld q.tpa.toNat (.memCmp q.port q.ld q.tag.toNat false) s) s

/-- `MEM_SPEC_RD`: the medium read starts; no response. -/
def hostSpecRead (q : MemReq) (s : State) : State :=
  hostRequest q .read true id (fun hid s =>
    requestLine (lineOf q.tpa.toNat) { op := .specRead, asker := hostAsker hid q, tpa := q.tpa.toNat } s) s

/-- A snoop to a host is outstanding on a line. -/
def snooped (s : State) (hid line : Nat) : Option Snoop :=
  (tabFind s.coh.flows line).bind fun f => f.snoops.find? fun sn => sn.hid = hid

/-- `BI_CONFLICT`: answered after the conflicting BISnp completes. -/
def hostConflict (q : MemReq) (s : State) : State :=
  let line := lineOf q.tpa.toNat
  match hidOfReq s q with
  | none => refuseUnbound q s
  | some hid =>
    if (hitOf s hid).dead then refuseHost hid q s
    else match tabFind s.coh.flows line, snooped s hid line with
      | some f, some _ => putFlow line { f with conflicts := f.conflicts ++ [(sluiceIx q.port q.ld, q.tag.toNat)] } s
      | _, _ => sendS2m q.port q.ld q.tpa.toNat (.conflictAck (sluiceIx q.port q.ld) q.tag.toNat) s

def metaCode : MetaValue → Nat
  | .any => 0
  | .shared => 1
  | .invalid => 2

/-- `MEM_WR`, `MEM_WR_PTL`: a writeback while the host is snooped, else a write that reaches its home (R69, R71, R487). [DEDUCED, log 27] -/
def hostWriteMem (q : MemReq) (mv : MetaValue) (mask : BitVec 64) (data : LineData) (poison : Bool) (s : State) : State :=
  let line := lineOf q.tpa.toNat
  match hidOfReq s q with
  | none => refusedWrite q (refuseUnbound q s)
  | some hid =>
    if (snooped s hid line).isSome && !(hitOf s hid).dead then
      if writesLocked s q.tpa.toNat then refusedWrite q (countRefusal s)
      else refusedWrite q (writeback line mask data poison s)
    else if !hostAllowed s hid q .write true then refusedWrite q (refuseHost hid q s)
    else if writesLocked s q.tpa.toNat then refusedWrite q (countRefusal s)
    else requestLine line { op := .write (metaCode mv), asker := hostAsker hid q, tpa := line * 64, mask := mask, data := data, poison := poison } s

/-- [DEDUCED, log 27] -/
def violation (hid : Nat) (s : State) : State := modHit hid (fun h => { h with protocol := h.protocol + 1 }) s

/-- `BI_RSP_I`, `BI_RSP_S`: ends the snoop that the host answers; anything else is a protocol violation (R69, R83). -/
def hostResponse (q : MemReq) (shared : Bool) (s : State) : State :=
  match hidOfReq s q with
  | none => refuseUnbound q s
  | some hid =>
    if (hitOf s hid).dead then refuseHost hid q s
    else match snooped s hid (lineOf q.tpa.toNat) with
      | none => violation hid s
      | some sn => if shared && !sn.isData then violation hid s else answerSnoop hid (lineOf q.tpa.toNat) shared s

/-- `BI_RSP_E`: never a valid answer. -/
def hostResponseE (q : MemReq) (s : State) : State :=
  match hidOfReq s q with
  | none => refuseUnbound q s
  | some hid => if (hitOf s hid).dead then refuseHost hid q s else violation hid s

/-- A malformed TLP is discarded and counted on its link (Table 20.10). -/
def countMalformed (port ld : Nat) (s : State) : State :=
  let p := portAt s port
  let l := linkOfLd p.width ld
  let k := tabGet p.links {} l
  { s with port := { s.port with ports := tabPut s.port.ports {} port { p with links := tabPut p.links {} l { k with malformed := k.malformed + 1 } } } }

def atomicBytes : AtomicSize → Nat
  | .b4 => 4
  | .b8 => 8
  | .b16 => 16

def hostAtomicOp : HostAtomic → Nat
  | .fetchAdd => 0
  | .swap => 1
  | _ => 2

/-- `ATOMIC_OP` (R77). [DEDUCED, log 47] -/
def hostAtomicReq (q : MemReq) (op : HostAtomic) (size : AtomicSize) (operand new : BitVec 64) (s : State) : State :=
  let n := atomicBytes size
  let tpa := q.tpa.toNat
  if op = .notAtomic ∨ size = .b16 then emit (.tlp q.port q.ld q.tag.toNat 1 0) s
  else if tpa % n ≠ 0 then countMalformed q.port q.ld s
  else hostRequest q .atomic false (refusedAtomic q) (fun hid s =>
    if writesLocked s tpa then emit (.tlp q.port q.ld q.tag.toNat 2 0) (countRefusal s)
    else if op = .fetchAdd then
      stageFetchAdd (hostAsker hid q) tpa n (4096 + (polderAt s tpa).getD 64) (4 * n) (operand.toNat % 2 ^ (8 * n)) s
    else requestLine (lineOf tpa)
      { op := .atomic (hostAtomicOp op) n (operand.toNat % 2 ^ (8 * n)) (new.toNat % 2 ^ (8 * n)), asker := hostAsker hid q, tpa := tpa } s) s

/-- `UNBOUND_LD_REQUEST` (R33). -/
def unboundRequest (q : MemReq) (kind : UnboundKind) (s : State) : State :=
  match hidOfReq s q with
  | some _ => s
  | none =>
    let s := refuseUnbound q s
    match kind with
    | .read => refusedRead q s
    | .write => refusedWrite q s
    | .atomic => refusedAtomic q s

/-- The reads that wait for a snoop of a host that dies are reads of a dead target (R206). -/
def noteDeadReads (hid line : Nat) (s : State) : State :=
  let mine := (s.coh.flows.filter fun e => isRead e.2.req && e.2.snoops.any fun sn => sn.hid = hid).map (·.1)
  let lines := (mine.filter (· = line)) ++ mine.filter (· ≠ line)
  lines.foldl (fun s l => notifyFm { kind := 0x0D, polder := (polderAt s (l * 64)).getD 64, hid := hid } (l * 64) s) s

/-- `SNOOP_TIMEOUT` (R82): a BISnp that was sent or held is not answered in time. -/
def snoopExpired (hid tpa : Nat) (s : State) : State :=
  let line := lineOf tpa
  match snooped s hid line with
  | some _ => deadHost hid line (noteDeadReads hid line s)
  | none => s

/-- `DEAD_HOST_SWEEP_END`: every directory slice has swept its sets (Table 4.7 step 4). -/
def sweepEnd (hid : Nat) (s : State) : State :=
  if !(hitOf s hid).sweeping then s
  else
    let lines := s.coh.sets.flatMap fun e => (e.2.filter fun d => !d.crown && d.ids.contains hid).map fun d => lineOfSlot e.1 d
    modHit hid (fun h => { h with sweeping := false }) (lines.foldl (fun s l => sweepLine hid l s) s)

/-- Members of open groups whose host is DEAD, whose LD is unbound or whose link has left L0 are lost (R204, R410). -/
def settleMembers (s : State) : State :=
  let lost := (s.copy.groups.flatMap fun e => e.2.members.map (·.serial)).filter fun k =>
    match s.q.cmds.find? fun c => c.serial = k with
    | none => false
    | some c => (hitOf s (srcHid s c.src)).dead || (match srcSluice s c.src with | some ix => (findSluice s ix).isNone || !sluiceLinkUp s ix || c.lost | none => false)
  match lost with
  | [] => s
  | _ => lost.foldl (fun s k => if (groupOfCmd s k).isSome then loseMember k { status := .memberLost } s else s) s

/-! ### Segment caches (R57, R58) -/

/-- Key of the cache of a unit and engine. -/
def cacheIx (unit engine : Nat) : Nat := unit * 16 + engine

def segCache (s : State) (unit engine : Nat) : List CachedSeg := tabGet s.eng.segCaches [] (cacheIx unit engine)

def putSegCache (unit engine : Nat) (l : List CachedSeg) (s : State) : State :=
  { s with eng := { s.eng with segCaches := tabPut s.eng.segCaches [] (cacheIx unit engine) l } }

/-- Numbers of the valid segments that a range of a TCX touches. -/
def segsOfRange (s : State) (t dva len : Nat) : List Nat := ((pieces dva len).filterMap fun p => segAt s t p.1).dedup

/-- A unit that begins a tile of another TCX drops every entry of the previous one (R57). -/
def switchTcx (unit engine t : Nat) (s : State) : State :=
  let last := tabFind s.eng.lastTcx (cacheIx unit engine)
  let s := match last with
    | some p => if p = t then s else putSegCache unit engine ((segCache s unit engine).filter fun c => c.tcx ≠ p) s
    | none => s
  { s with eng := { s.eng with lastTcx := tabInsert s.eng.lastTcx (cacheIx unit engine) t } }

/-- Entries that an outstanding access of the unit uses are not replaced. -/
def segHeld (s : State) (unit engine : Nat) (c : CachedSeg) : Bool :=
  s.eng.tiles.any fun e => decide (e.2.unit = unit ∧ e.2.engine = engine) && e.2.segs.any fun k => k / 65536 = 16 * c.tcx + c.seg

/-- Fills an entry: a free place, or that of the least recently used entry that no access holds. -/
def fillSeg (unit engine : Nat) (c : CachedSeg) (s : State) : State :=
  let l := (segCache s unit engine).filter fun x => !(decide (x.tcx = c.tcx ∧ x.seg = c.seg))
  let l := if l.length < 16 then l
    else match l.find? fun x => !segHeld s unit engine x with
      | some v => l.filter fun x => x ≠ v
      | none => l.drop 1
  putSegCache unit engine (l ++ [c]) s

/-! ### The command behind an access -/

/-- A status, fault record and stop reach the command that an access works for (R62, R63). -/
def accessFault (a : WaitingAccess) (kind seg dva bytes : Nat) (st : Status) (stop : Bool) (s : State) : State :=
  let c := (s.q.cmds.find? fun c => c.serial = a.serial).getD { serial := 0, src := .jtag, words := [], tcx := a.tcx, epoch := (tcxOf s a.tcx).epoch }
  let r := faultTile kind seg dva bytes st stop { runOf c s with unit := a.unit, engine := a.engine }
  modCmd a.serial (fun c => { c with status := r.status, faultDva := r.faultDva, faultTiles := r.faultTiles, stopped := c.stopped || stop }) r.s

/-- A status reaches the command of an access; `stop`: no further tile is issued. -/
def accessStatus (serial : Nat) (st : Status) (stop : Bool) (s : State) : State :=
  if serial = 0 then s else modCmd serial (fun c => { c with status := statusJoin c.status st, stopped := c.stopped || stop }) s

/-! ### Tiles -/

/-- Parts of a piece by line: line, offset in the tile, offset in the line, bytes. -/
def lineParts (start dva tpa n : Nat) : List (Nat × Nat × Nat × Nat) :=
  (linesOf tpa n).map fun l =>
    let lo := max tpa (l * 64)
    let hi := min (tpa + n) (l * 64 + 64)
    (l, dva - start + (lo - tpa), lo - l * 64, hi - lo)

/-- A part of a write: the 64-bit mask and the line data of its bytes. -/
def partData (data : List Byte) (p : Nat × Nat × Nat × Nat) : BitVec 64 × LineData :=
  let bytes := (data.drop p.2.1).take p.2.2.2
  (BitVec.ofNat 64 ((2 ^ p.2.2.2 - 1) * 2 ^ p.2.2.1), BitVec.ofNat 512 (ofBytes bytes * 2 ^ (8 * p.2.2.1)))

/-- The TIER_HINT of the segment that maps a DVA. -/
def hintAt (s : State) (t dva : Nat) : Nat :=
  match segAt s t dva with
  | some n => (segOf s t n).hint.toNat
  | none => 0

/-- A read as placement sees it: every line by itself; scan engines read the flash beside them (R225, R226). -/
def notePieces (a : WaitingAccess) (dva tpa n : Nat) (s : State) : State :=
  if a.unit ≥ 0x80 ∧ a.unit < 0xC0 then s
  else
    let p := (tcxOf s a.tcx).polder
    let hint := hintAt s a.tcx dva
    (lineParts dva dva tpa n).foldl (fun s q => noteRead p hint (q.1 * 64 + q.2.2.1) q.2.2.2 none s) s

/-- A piece in a host-tier window is read: outstanding, or poisoned at once where the window is unusable (R100). -/
def readHostPiece (a : WaitingAccess) (id dva tpa n : Nat) (s : State) : State :=
  let w := windowIx tpa
  let off := dva - a.dva
  match tabFind s.eng.tiles id with
  | none => s
  | some t =>
    if !windowUsable s (windowOf s w) a.tcx then
      let t := { t with poisoned := true, bad := t.bad ++ (List.range ((n + 63) / 64)).map fun i => off + 64 * i }
      deadWindow w a.tcx (windowFailure w 0 (putTile id t s))
    else
      let entry := match tabFind s.tier.thReads id with
        | none => (w, off, n, 0)
        | some e => (e.1, e.2.1, off + n - e.2.1, if e.1 = w then e.2.2.2 else w + 1)
      { s with tier := { s.tier with thReads := tabInsert s.tier.thReads id entry } }

/-- A piece in a host-tier window is written: posted, and awaited by the command's zero-length read (R89, R100). -/
def writeHostPiece (a : WaitingAccess) (dva tpa n : Nat) (s : State) : State :=
  let w := windowIx tpa
  let wd := windowOf s w
  if !windowUsable s wd a.tcx then windowFailure w 0 s
  else
    let s := emit (.hostWrite wd.hid.toNat (wd.hpaBase.toNat * 4096 + windowOff tpa) ((a.data.drop (dva - a.dva)).take n) a.poison) s
    let s := if a.poison then accessStatus a.serial .poisoned false s else s
    modCmd a.serial (fun c => { c with zeroReads := if c.zeroReads.contains wd.hid.toNat then c.zeroReads else c.zeroReads ++ [wd.hid.toNat] }) s

/-- NAND channel of an address that refuses the access: failed or read-only for writes, its map not loaded. -/
def flashRefusal (s : State) (tpa : Nat) (write : Bool) : Option Status :=
  if regionOf tpa ≠ .flash then none
  else
    let n := nandOf s (channelOf s tpa)
    if write && decide (n.health ≠ .ok) then some .mediaReadOnly
    else if n.health ≠ .failed ∧ n.mapLoaded = false then some .held
    else none

/-- Adds parts to a tile that waits for them. -/
def addParts (id : Nat) (l : List (Nat × Nat × Nat × Nat)) (s : State) : State :=
  match tabFind s.eng.tiles id with
  | none => s
  | some t => putTile id { t with left := t.left ++ l } s

/-- A mapped piece of a read tile: its lines are requested at their homes (R74). -/
def readPieceAt (a : WaitingAccess) (id dva tpa n : Nat) (s : State) : State :=
  if regionOf tpa = .host then readHostPiece a id dva tpa n s
  else match flashRefusal s tpa false with
    | some st => accessStatus a.serial st true s
    | none =>
      let parts := lineParts a.dva dva tpa n
      let s := addParts id parts (notePieces a dva tpa n s)
      parts.foldl (fun s p => requestLine p.1
        { op := if a.unit ≥ 0xC0 then .crownRead else .engineRead, asker := .tile id, tpa := p.1 * 64 } s) s

/-- A mapped piece of a write tile: its lines are requested at their homes; flash data goes to its channel core (R73, R117). -/
def writePieceAt (a : WaitingAccess) (id dva tpa n : Nat) (s : State) : State :=
  if regionOf tpa = .host then writeHostPiece a dva tpa n s
  else match flashRefusal s tpa true with
    | some st => accessStatus a.serial st true s
    | none =>
      let parts := lineParts a.dva dva tpa n
      if writesLocked s tpa then accessStatus a.serial .mediaReadOnly true (parts.foldl (fun s _ => countRefusal s) s)
      else
        let s := addParts id parts s
        if regionOf tpa = .flash then s
        else parts.foldl (fun s p =>
          let d := partData a.data p
          requestLine p.1 { op := .write 0, asker := .tile id, tpa := p.1 * 64, mask := d.1, data := d.2, poison := a.poison } s) s

/-- A far atomic on a line that the crown core's own L2 owns needs no request (R80). -/
def ownedByCrown (s : State) (line core : Nat) : Bool :=
  (slotOf s line).any fun d => d.crown && decide (d.state = .owned) && decide (d.ids = [core])

/-- An atomic access: near at the home's directory ALU, combined when it is an engine's fetch-add, or far in the L2 of a
crown core when the home's predictor says so (R79, R80, R188). -/
def atomicPieceAt (a : WaitingAccess) (op operand new : Nat) (crown : Bool) (id tpa : Nat) (s : State) : State :=
  let line := lineOf tpa
  if writesLocked s tpa then accessStatus a.serial .mediaReadOnly true (countRefusal s)
  else
    let s := addParts id [(line, 0, tpa % 64, a.length)] s
    if crown then
      let p := (polderAt s tpa).getD 64
      let ix := homeDie s tpa * 4096 + Config.predictorIndex (polderOf s p).predictorKey line % 4096
      let far := decide ((tabGet s.coh.predictor 0 ix).toNat < 2)
      if far && ownedByCrown s line (a.unit % 32) && (tabFind s.coh.flows line).isNone then
        let (s, old, bad) := atomicAt tpa op a.length operand new s
        atomicAnswer (.tile id) line old bad false s
      else requestLine line { op := .atomic op a.length operand new, asker := .tile id, tpa := tpa, mask := if far then 1 else 0 } s
    else if op = 0 then stageFetchAdd (.tile id) tpa a.length a.tcx (2 + 4 * a.length) operand s
    else requestLine line { op := .atomic op a.length operand new, asker := .tile id, tpa := tpa } s

/-- A compute core that begins a tile of another TCX clears the written bits of its stores (R301). -/
def beginTile (unit t : Nat) (s : State) : State :=
  if unit ≥ 128 then s
  else
    let st := tabGet s.eng.stores {} unit
    let st := if st.lastTcx = some t then st
      else if st.lastTcx = none then { st with lastTcx := some t, served := st.served ++ [t] }
      else { lastTcx := some t, served := [t], counters := st.counters, corrected := st.corrected }
    { s with eng := { s.eng with stores := tabPut s.eng.stores {} unit st } }

/-- FAULT_WHOLE of the command behind an access (R60). -/
def faultWhole (s : State) (serial : Nat) : Bool := (s.q.cmds.find? fun c => c.serial = serial).any fun c => hdrFaultWhole c.words

/-- Fill bytes and their poison enter a partly mapped read tile (Table 3.9). -/
def fillTile (a : WaitingAccess) (id : Nat) (ps : List (Nat × Nat × Lookup)) (s : State) : State :=
  let e := segOf s a.tcx (piecesSeg ps)
  match tabFind s.eng.tiles id with
  | none => s
  | some t =>
    let gone := ps.filter fun p => isUnmapped p.2.2
    let got := gone.foldl (fun g p => (List.range p.2.1).foldl
      (fun g i => tabInsert g (p.1 - a.dva + i) (e.fill.extractLsb' (8 * ((p.1 + i) % 4)) 8)) g) t.got
    let bad := if e.fillPoison then gone.flatMap fun p => (List.range ((p.2.1 + 63) / 64)).map fun i => p.1 - a.dva + 64 * i else []
    putTile id { t with got := got, bad := t.bad ++ bad, poisoned := t.poisoned || e.fillPoison } s

/-- A translated access becomes a tile, or faults as R59 to R61 state. [DEDUCED, log 47] -/
def startAccess (a : WaitingAccess) (s : State) : State :=
  let need : Right := if a.atomic.isSome then .atomic else if a.write then .write else .read
  let ps := checkRange s a.tcx a.dva a.length need
  let denied := piecesBytes ps isDenied
  let gone := piecesBytes ps isUnmapped
  let read := decide (need = .read)
  if denied ≠ 0 then accessFault a 0x4 (piecesSeg ps) (piecesFirst ps isDenied) denied .rightsFault true s
  else if gone = a.length ∨ (gone ≠ 0 ∧ (!read ∨ faultWhole s a.serial)) then
    accessFault a (if read then 0x2 else 0x3) (piecesSeg ps) (piecesFirst ps isUnmapped) gone .mapFault true s
  else
    let s := if gone = 0 then s else accessFault a 0x1 (piecesSeg ps) (piecesFirst ps isUnmapped) gone .partialMap false s
    let s := beginTile a.unit a.tcx s
    let segs := (segsOfRange s a.tcx a.dva a.length).map fun n => entryCode a.tcx n (segOf s a.tcx n).gen.toNat
    let id := s.eng.nextTile
    let t : Tile := { serial := a.serial, tcx := a.tcx, epoch := (tcxOf s a.tcx).epoch, unit := a.unit, engine := a.engine
                      stream := a.stream, write := a.write, dva := a.dva, length := a.length, dest := a.dest, segs := segs
                      crown := decide (a.unit ≥ 0xC0) }
    let s := { s with eng := { s.eng with tiles := tabInsert s.eng.tiles id t, nextTile := id + 1 } }
    let s := if gone = 0 then s else fillTile a id ps s
    ps.foldl (fun s p => match p.2.2 with
      | .at _ tpa =>
        match a.atomic with
        | some (op, operand, new, crown) => atomicPieceAt a op operand new crown id tpa s
        | none => if a.write then writePieceAt a id p.1 tpa p.2.1 s else readPieceAt a id p.1 tpa p.2.1 s
      | _ => s) s

/-- Two accesses of one engine touch a byte in common: they keep program order (R58, R87). -/
def sameBytes (a b : WaitingAccess) : Bool :=
  decide (a.unit = b.unit ∧ a.engine = b.engine ∧ a.tcx = b.tcx ∧ a.dva < b.dva + b.length ∧ b.dva < a.dva + a.length)

/-- An access is translated, or waits for the fills it misses: at most four outstanding per stream (R57, R58). -/
def issueAccess (a : WaitingAccess) (s : State) : State :=
  let s := switchTcx a.unit a.engine a.tcx s
  let cache := segCache s a.unit a.engine
  let missing := (segsOfRange s a.tcx a.dva a.length).filter fun n => !cache.any fun c => decide (c.tcx = a.tcx ∧ c.seg = n)
  if missing = [] && !s.eng.waiting.any (sameBytes a) then
    let used := segsOfRange s a.tcx a.dva a.length
    let hit := cache.filter fun c => decide (c.tcx = a.tcx) && used.contains c.seg
    startAccess a (putSegCache a.unit a.engine ((cache.filter fun c => !hit.contains c) ++ hit) s)
  else
    let mine := s.eng.misses.filter fun m => m.unit = a.unit && m.engine = a.engine && m.stream = a.stream
    let new := (missing.filter fun n => !mine.any fun m => m.entry = 16 * a.tcx + n).take (4 - mine.length)
    { s with eng := { s.eng with
        waiting := s.eng.waiting ++ [a]
        misses := s.eng.misses ++ new.map fun n => { unit := a.unit, engine := a.engine, stream := a.stream, entry := 16 * a.tcx + n } } }

/-- `SEGMENT_FILL_ARRIVAL`: a fill of an entry that has changed is fetched again; any other enters the cache, and the unit's
waiting accesses go on in their order. -/
def fillArrival (unit engine stream entry : Nat) (s : State) : State :=
  let this := fun m : SegMiss => m.unit = unit && m.engine = engine && m.stream = stream && m.entry = entry
  match s.eng.misses.find? this with
  | none => s
  | some m =>
    if m.stale then { s with eng := { s.eng with misses := s.eng.misses.map fun x => if this x then { x with stale := false } else x } }
    else
      let s := { s with eng := { s.eng with misses := s.eng.misses.filter fun x => !this x } }
      let e := segOf s (entry / 16) (entry % 16)
      let s := if e.valid then fillSeg unit engine ⟨entry / 16, entry % 16, e⟩ s else s
      let mine := s.eng.waiting.filter fun w => w.unit = unit && w.engine = engine
      let s := { s with eng := { s.eng with waiting := s.eng.waiting.filter fun w => !(w.unit = unit && w.engine = engine) } }
      mine.foldl (fun s a => issueAccess a s) s

/-! ### The rows of engines -/

/-- A unit may access memory for a TCX: one of the polder's cores or channels, in no quarantine, or a crown core of the run. -/
def engineMay (s : State) (unit engine t serial : Nat) : Bool :=
  let p := polderOf s (tcxOf s t).polder
  let c := s.q.cmds.find? fun c => c.serial = serial
  decide ((tcxOf s t).state = .live) && (decide (serial = 0) || c.any fun c => decide (c.tcx = t) && !c.waiting && !c.stopped) &&
  if unit < 128 then decide (engine < 4) && p.cores.getLsbD unit && !s.flt.coreQ.getLsbD unit
    && (match tabFind s.eng.placements serial with | some pl => pl.cores.contains unit | none => true)
  else if unit < 0xC0 then decide (engine = 4) && p.nand.getLsbD (unit - 128)
  else if unit < 0xE0 then decide (engine = 5) && (tabFind s.eng.runs serial).any fun r =>
    r.cores.contains (unit - 0xC0) && (tabFind r.exits (unit - 0xC0)).isNone
  else false

/-- `ENGINE_READ`: a tile of at most 64 KiB. -/
def engineReadOp (e : EngineRef) (dva length dest : Nat) (s : State) : State :=
  if !engineMay s e.unit.toNat e.engine.toNat e.tcx.toNat e.serial || decide (length = 0 ∨ length > 65536) then s
  else issueAccess { unit := e.unit.toNat, engine := e.engine.toNat, stream := e.stream, tcx := e.tcx.toNat, serial := e.serial
                     write := false, dva := dva, length := length, dest := dest } s

/-- `ENGINE_WRITE`. -/
def engineWriteOp (e : EngineRef) (dva : Nat) (data : List Byte) (poison : Bool) (s : State) : State :=
  if !engineMay s e.unit.toNat e.engine.toNat e.tcx.toNat e.serial || decide (data = [] ∨ data.length > 65536) then s
  else issueAccess { unit := e.unit.toNat, engine := e.engine.toNat, stream := e.stream, tcx := e.tcx.toNat, serial := e.serial
                     write := true, dva := dva, length := data.length, dest := 0, data := data, poison := poison } s

def atomicCode : AtomicKind → Nat
  | .fetchAdd => 0
  | .swap => 1
  | .cas => 2
  | .fetchMin => 3
  | .fetchMax => 4

/-- An atomic of an engine or crown core, naturally aligned (R59). [DEDUCED, log 47] -/
def unitAtomic (unit engine stream t serial dva : Nat) (op : AtomicKind) (wide : Bool) (operand new : Nat) (s : State) : State :=
  let n := if wide then 8 else 4
  if !engineMay s unit engine t serial || decide (dva % n ≠ 0) then s
  else issueAccess { unit := unit, engine := engine, stream := stream, tcx := t, serial := serial, write := true, dva := dva, length := n, dest := 0
                     atomic := some (atomicCode op, operand % 2 ^ (8 * n), new % 2 ^ (8 * n), decide (unit ≥ 0xC0)) } s

/-- `ENGINE_ATOMIC`: always near (R79). -/
def engineAtomicOp (e : EngineRef) (dva : Nat) (op : AtomicKind) (wide : Bool) (operand new : Nat) (s : State) : State :=
  if e.unit.toNat ≥ 0xC0 then s
  else unitAtomic e.unit.toNat e.engine.toNat e.stream e.tcx.toNat e.serial dva op wide operand new s

/-- `CROWN_ATOMIC` (R80). -/
def crownAtomicOp (run core dva : Nat) (op : AtomicKind) (wide : Bool) (operand new : Nat) (s : State) : State :=
  match s.q.cmds.find? fun c => c.serial = run with
  | none => s
  | some c => unitAtomic (0xC0 + core) 5 0 c.tcx run dva op wide operand new s

/-! ### The end of a tile -/

/-- A byte of a tile is poisoned: its line was delivered poisoned. -/
def tileByteBad (t : Tile) (i : Nat) : Bool := t.bad.any fun o => decide (o ≤ i ∧ (t.dva + i) / 64 = (t.dva + o) / 64) || decide (o = i)

/-- Where a byte of a tile's destination lies: core, scratch or local store, and the offset there (R300). -/
def storePlace (s : State) (t : Tile) (i : Nat) : Option (Nat × Bool × Nat) :=
  if t.dest < 2 ^ 31 then (if t.dest + i < mib then some (t.unit, false, t.dest + i) else none)
  else
    let o := t.dest - 2 ^ 31 + i
    let cores := match tabFind s.eng.placements t.serial with
      | some pl => (pl.cores.filter fun c => c / 8 = t.unit / 8).dedup.mergeSort
      | none => [t.unit]
    (cores[o / (2 * mib)]?).map fun c => (c, true, o % (2 * mib))

/-- Bytes enter a store: written lines, and poison marks that only a whole unpoisoned rewrite clears (R301, R302). -/
def storeBytes (core : Nat) (scratch : Bool) (l : List (Nat × Byte × Bool)) (s : State) : State :=
  let st := tabGet s.eng.stores {} core
  let lines := (l.map fun b => b.1 / 64).dedup
  let bad := (l.filter fun b => b.2.2).map fun b => b.1 / 64
  let whole := lines.filter fun n => decide ((l.filter fun b => b.1 / 64 = n).length ≥ 64)
  let marks := fun (old : List Nat) => ((old.filter fun n => !(whole.contains n)) ++ bad).dedup.mergeSort
  let put := fun (m : List Host.Cell) => l.foldl (fun m b => tabPut m 0 b.1 b.2.1) m
  let st := if scratch then { st with scratch := put st.scratch, scratchWritten := (st.scratchWritten ++ lines).dedup.mergeSort, scratchPoison := marks st.scratchPoison }
    else { st with localMem := put st.localMem, localWritten := (st.localWritten ++ lines).dedup.mergeSort, localPoison := marks st.localPoison }
  { s with eng := { s.eng with stores := tabPut s.eng.stores {} core st } }

/-- The bytes of a finished read tile are placed in the engine's local store or scratch (R60). -/
def placeTile (t : Tile) (s : State) : State :=
  if t.unit ≥ 128 then s
  else
    let placed := (List.range t.length).filterMap fun i => (storePlace s t i).map fun p => (p.1, p.2.1, p.2.2, tabGet t.got 0 i, tileByteBad t i)
    let stores := (placed.map fun p => (p.1, p.2.1)).dedup
    stores.foldl (fun s k => storeBytes k.1 k.2 ((placed.filter fun p => p.1 = k.1 && p.2.1 == k.2).map fun p => (p.2.2.1, p.2.2.2.1, p.2.2.2.2)) s) s

/-- A tile that waits for nothing any more ends: its data or acknowledgement reaches the engine, its status the command. -/
def finishTile (id : Nat) (t : Tile) (s : State) : State :=
  let s := { s with eng := { s.eng with tiles := tabErase s.eng.tiles id } }
  let s := if t.tagFailed then accessStatus t.serial .tagFail false s else s
  let s := if t.poisoned && t.write then accessStatus t.serial .poisoned false s else s
  let data : List Byte := match t.result with
    | some v => toBytes t.length v.toNat
    | none => if t.write then [] else (List.range t.length).map fun i => tabGet t.got 0 i
  let s := if t.write then s else placeTile t s
  emit (.tileDone id data t.poisoned) s

/-- A tile has all its lines and host bytes. -/
def tileReady (s : State) (id : Nat) (t : Tile) : Bool := decide (t.left = []) && (tabFind s.tier.thReads id).isNone

/-- Every finished tile ends. -/
def settleTiles (s : State) : State := (s.eng.tiles.filter fun e => tileReady s e.1 e.2).foldl (fun s e => finishTile e.1 e.2 s) s

/-! ### Host-tier reads (R100) -/

/-- The host bytes of a tile arrive, or are poisoned. -/
def thEnd (id : Nat) (data : Option (List Byte)) (s : State) : State :=
  match tabFind s.tier.thReads id, tabFind s.eng.tiles id with
  | some e, some t =>
    let off := e.2.1
    let n := e.2.2.1
    let t := match data with
      | some b => { t with got := (List.range n).foldl (fun g i => tabInsert g (off + i) (b.getD i 0)) t.got }
      | none => { t with poisoned := true, bad := t.bad ++ (List.range ((n + 63) / 64)).map fun i => off + 64 * i }
    putTile id t { s with tier := { s.tier with thReads := tabErase s.tier.thReads id } }
  | _, _ => { s with tier := { s.tier with thReads := tabErase s.tier.thReads id } }

/-- `TH_READ_COMPLETION`: data, data with EP set (counted), or UR or CA (R100, Table 7.2). [DEDUCED, log 48] -/
def thCompletion (id : Nat) (res : ThResult) (s : State) : State :=
  match tabFind s.tier.thReads id with
  | none => s
  | some e =>
    match res with
    | .data b => if b.length = e.2.2.1 then thEnd id (some b) s else s
    | .poisoned => thEnd id none { s with tier := { s.tier with windowFails := tabModify s.tier.windowFails 0 e.1 (· + 1) } }
    | .refused => thEnd id none (windowFailure e.1 2 s)

/-- `TH_READ_TIMEOUT`: no completion within 1 ms. -/
def thTimeout (id : Nat) (s : State) : State :=
  match tabFind s.tier.thReads id with
  | none => s
  | some e => thEnd id none (windowFailure e.1 1 s)

/-- `ZERO_LENGTH_READ_RETURN`: a host written by a command has answered (R89). -/
def zeroReadReturn (serial hid : Nat) (s : State) : State :=
  modCmd serial (fun c => { c with zeroReads := c.zeroReads.filter (· ≠ hid) }) s

/-! ### Lost directory slots (R438) -/

/-- Uncorrectable directory slots of the set of a line: each way is LOST, counted and recorded. Answers whether four ways of
the set are now LOST. -/
def loseWays (line : Nat) (ways : List (Fin 16)) (s : State) : State × Bool :=
  let die := setKey s line / 2 ^ 20
  let code := fun (w : Nat) => die * 2 ^ 24 + setKey s line % 2 ^ 20 * 16 + w
  let s := ways.foldl (fun s w =>
    if s.coh.lost.contains (code w.val) then s
    else
      let s := putDirSet s line ((dirSet s line).filter fun d => !(waysOf d).contains w.val)
      let s := { s with coh := { s.coh with lost := s.coh.lost ++ [code w.val] } }
      writeEvent Config.slotEventCode.toNat die 0 64 (line * 64) w.val s) s
  (s, decide (((List.range 16).filter fun w => s.coh.lost.contains (code w)).length ≥ 4))

end Sys2Proof.Machine
end

