-- ==== Sys2Proof/Machine/Kernels.lean ====
section
/-!
DEFINITION. Images and their checks (R304 to R307), `KERNEL_LAUNCH` and its phases (R308, R309), migration (R323), and
`CROWN_RUN` with the services, traps and exceptions of crown code (R311 to R315).
-/

namespace Sys2Proof.Machine

/-! ### Images (Tables 15.1 to 15.3) -/

/-- What the device takes from an image. -/
structure Image where
  coresMin : Nat
  coresMax : Nat
  /-- SEG_ROLE of the 16 segments. -/
  roles : List Nat
  localBytes : Nat
  stack : Nat
  work : Nat
  handler : Bool
  /-- BOUND and ITEMS of each phase. -/
  phases : List (Bool × Nat)
  /-- bytes of code and constants. -/
  code : Nat
  /-- DATA section. -/
  data : List Byte
  digest : Nat
deriving DecidableEq, Repr

/-- A section table entry: TYPE, OFFSET, SIZE (R305). -/
structure Section where
  type : Nat
  offset : Nat
  size : Nat
deriving DecidableEq, Repr

def sectionsOf (ws : List Word) (n : Nat) : List Section :=
  (List.range n).map fun i => ⟨field ws (32 + 8 * i) 31 24, wordAt ws (33 + 8 * i), wordAt ws (34 + 8 * i)⟩

/-- The reserved bits of the section table entries are clear. -/
def sectionsClear (ws : List Word) (n : Nat) : Bool :=
  (List.range n).all fun i => decide (field ws (32 + 8 * i) 23 0 = 0) && (List.range 5).all fun k => decide (wordAt ws (35 + 8 * i + k) = 0)

def findSection (l : List Section) (type : Nat) : Option Section := l.find? fun x => x.type = type

def sectionSize (l : List Section) (type : Nat) : Nat := ((findSection l type).map (·.size)).getD 0

/-- Which sections a kind of image has (Table 15.2). -/
def sectionTypes (kernel : Bool) : List Nat × List Nat :=
  if kernel then ([1, 3, 5], [1, 2, 3, 4, 5, 9]) else ([3, 6], [2, 3, 6, 7, 9])

/-- Sections lie after their table, within LENGTH, aligned, without overlap, each type at most once, as Table 15.2 states. [DEDUCED, log 45] -/
def sectionsOk (l : List Section) (len : Nat) (kernel : Bool) : Bool :=
  let (required, allowed) := sectionTypes kernel
  l.all (fun x => allowed.contains x.type && decide (x.offset % 64 = 0 ∧ 128 + 32 * l.length ≤ x.offset ∧ x.offset + x.size ≤ len))
    && required.all (fun t => (findSection l t).isSome)
    && decide ((l.map (·.type)).Nodup)
    && (List.range l.length).all (fun i => (List.range i).all fun j =>
      match l[i]?, l[j]? with
      | some a, some b => decide (a.offset + a.size ≤ b.offset ∨ b.offset + b.size ≤ a.offset)
      | _, _ => true)
    && decide (sectionSize l 1 ≤ 262144 ∧ sectionSize l 3 = 64 ∧ sectionSize l 4 % 8 = 0 ∧ sectionSize l 4 ≤ 32768
      ∧ sectionSize l 5 % 8 = 0 ∧ sectionSize l 5 ≤ 512)
    && (!kernel || decide (8 ≤ sectionSize l 5)) && (kernel || decide (sectionSize l 6 + sectionSize l 2 ≤ 524288))

/-- The 8-byte entries of a section, as low and high words. -/
def entriesOf (ws : List Word) (x : Option Section) : List (Nat × Nat) :=
  match x with
  | none => []
  | some x => (List.range (x.size / 8)).map fun i => (wordAt ws (x.offset / 4 + 2 * i), wordAt ws (x.offset / 4 + 2 * i + 1))

/-- A site entry: reserved bits clear (R306). -/
def siteOk (e : Nat × Nat) : Bool := decide (bits e.1 27 20 = 0 ∧ bits e.2 31 4 = 0)

def siteMode (e : Nat × Nat) : Nat := bits e.1 19 18

/-- Phase entry `i`: PHASE = i, ITEMS at least 1, reserved bits clear (R306). -/
def phaseOk (i : Nat) (e : Nat × Nat) : Bool := decide (bits e.1 5 0 = i ∧ bits e.1 31 7 = 0 ∧ bits e.2 31 24 = 0 ∧ 1 ≤ bits e.2 23 0)

/-- The RESOURCES section (Table 15.3) at word `r`. [DEDUCED, log 45] -/
def resourcesOk (ws : List Word) (r : Nat) (kernel fp32 sr : Bool) : Bool :=
  let most := if kernel then 128 else 32
  let lo := field ws r 31 24
  let hi := field ws r 23 16
  decide (1 ≤ lo ∧ lo ≤ hi ∧ hi ≤ most) && (List.range 7).all (fun k => decide (wordAt ws (r + 9 + k) = 0) || false)
    && decide (wordAt ws (r + 7) = 0 ∧ wordAt ws (r + 8) = 0 ∧ field ws (r + 6) 31 3 = 0)
    && (List.range 16).all (fun k => flag ws r k == decide (field ws (r + 1) (2 * k + 1) (2 * k) ≠ 0))
    && (if kernel then decide (wordAt ws (r + 2) ≤ mib ∧ wordAt ws (r + 3) ≤ 2 * mib ∧ wordAt ws (r + 4) = 0 ∧ wordAt ws (r + 5) = 0)
          && !flag ws (r + 6) 0
        else decide (wordAt ws (r + 2) = 0 ∧ wordAt ws (r + 3) = 0 ∧ 4096 ≤ wordAt ws (r + 4) ∧ wordAt ws (r + 4) ≤ 16 * mib))
    && (flag ws (r + 6) 2 == fp32) && (flag ws (r + 6) 1 == sr)

/-- The fixed fields of the header but the digest (Table 15.1). [DESIGN CHOICE, log 19] -/
def headerOk (ws : List Word) (kernel : Bool) (arith : Nat) : Bool :=
  decide (wordAt ws 0 = 0x4259494D ∧ field ws 1 31 24 = (if kernel then 1 else 2) ∧ field ws 1 23 16 = 1
    ∧ field ws 1 15 8 ≤ Config.formatMinor ∧ field ws 1 7 0 = 0 ∧ field ws 2 31 16 = 0 ∧ field ws 2 15 0 = arith
    ∧ 512 ≤ wordAt ws 3 ∧ wordAt ws 3 ≤ (if kernel then 1048576 else 4194304)
    ∧ field ws 4 31 5 = 0 ∧ 1 ≤ field ws 4 4 0 ∧ field ws 4 4 0 ≤ 16 ∧ wordAt ws 5 = 0 ∧ wordAt ws 6 = 0 ∧ wordAt ws 7 = 0)
    && (List.range 14).all fun k => decide (wordAt ws (18 + k) = 0)

/-- SHA3-256 of an image with words 8 to 15 read as zero. -/
def imageDigest (bytes : List Byte) : Nat := sha3 (bytes.take 32 ++ List.replicate 32 0 ++ bytes.drop 64)

/-- Every rule of R304 to R306 holds, and no site declares what the polder's determinism forbids (R307). [DEDUCED, log 45] -/
def imageOf (bytes : List Byte) (kernel : Bool) (arith : Nat) (modes : BitVec 32) : Option Image :=
  let ws := bytesToWords ((bytes.length + 3) / 4) bytes
  let n := field ws 4 4 0
  let l := sectionsOf ws n
  let r := ((findSection l 3).map (·.offset)).getD 0 / 4
  let sites := entriesOf ws (findSection l 4)
  let phases := entriesOf ws (findSection l 5)
  let fp32 := sites.any fun e => decide (siteMode e = 3)
  let sr := sites.any fun e => e.1.testBit 17
  if headerOk ws kernel arith && decide (bytes.length = wordAt ws 3 ∧ wideAt ws 8 8 = imageDigest bytes) && sectionsClear ws n
      && sectionsOk l bytes.length kernel && sites.all siteOk && (List.range phases.length).all (fun i => phaseOk i (phases.getD i (0, 0)))
      && resourcesOk ws r kernel fp32 sr && !(fp32 && isReproducible modes) then
    let data := match findSection l 7 with
      | some x => (bytes.drop x.offset).take x.size
      | none => []
    some { coresMin := field ws r 31 24, coresMax := field ws r 23 16
           roles := (List.range 16).map fun k => field ws (r + 1) (2 * k + 1) (2 * k)
           localBytes := wordAt ws (r + 2), stack := wordAt ws (r + 4), work := wordAt ws (r + 5), handler := flag ws (r + 6) 0
           phases := phases.map fun e => (e.1.testBit 6, bits e.2 23 0)
           code := sectionSize l 1 + sectionSize l 2, data := data, digest := imageDigest bytes }
  else none

/-! ### Launch (R308, R309, R311) -/

/-- Compute cores of a polder that may draw work: not quarantined, not evacuated. -/
def usableCores (s : State) (p : Nat) : List Nat :=
  (maskBits 128 (polderOf s p).cores.toNat).filter fun c => !s.flt.coreQ.getLsbD c && !s.pwr.evacuated.contains (c / 8)

/-- Crown cores of a polder that are not quarantined. -/
def usableCrown (s : State) (p : Nat) : List Nat :=
  (maskBits 32 (polderOf s p).crown.toNat).filter fun c => !s.flt.crownQ.getLsbD c

/-- Request fields that complete `INVALID`. -/
def launchFieldsOk (kernel : Bool) (ws : List Word) : Bool :=
  decide (field ws 3 7 0 ≤ (if kernel then 128 else 32) ∧ word64 ws 4 % 64 = 0 ∧ field ws 11 3 0 ≤ 8)
    && (kernel || decide (word64 ws 16 % 65536 = 0 ∧ 1 ≤ wordAt ws 18 ∧ wordAt ws 18 ≤ 60000000))

/-- The segments that an image uses grant what their roles imply (R309). -/
def rolesOk (s : State) (t : Nat) (im : Image) : Bool :=
  (List.range 16).all fun k =>
    let e := segOf s t k
    match im.roles.getD k 0 with
    | 0 => true
    | 3 => e.valid && e.w
    | _ => e.valid && e.r

/-- A region list entry: DVA, LENGTH, OUTPUT (R318). -/
def regionAt (bytes : List Byte) (i : Nat) : Nat × Nat × Nat × Bool :=
  let b := (bytes.drop (16 * i)).take 16
  (ofBytes (b.take 8), ofBytes ((b.drop 8).take 4), ofBytes ((b.drop 12).take 1), decide (ofBytes (b.drop 13) = 0))

/-- A region lies in one segment whose role matches. -/
def regionOk (s : State) (t : Nat) (im : Image) (g : Nat × Nat × Nat × Bool) : Bool :=
  g.2.2.2 && decide (1 ≤ g.2.1 ∧ (g.2.2.1 = 1 ∨ g.2.2.1 = 2) ∧ g.1 < 2 ^ 52) &&
  match segAt s t g.1 with
  | none => false
  | some n => decide (im.roles.getD n 0 = (if g.2.2.1 = 1 then 1 else 3)) && segValidAt (segOf s t n) (g.1 + g.2.1 - 1)

/-- A digest record is due for the command (R317). -/
def digestDue (s : State) (c : Cmd) : Bool :=
  digestOp c.opcode && (tcxOf s c.tcx).digest.enable && (hdrDigest c.words || digestRequired c.modes)

/-- Reads ranges one after another. -/
def readAll : List (Nat × Nat) → Run → Option (List Byte) × Run
  | [], r => (some [], r)
  | (dva, n) :: rest, r => match readRange dva n r with
    | (none, r) => (none, r)
    | (some b, r) => match readAll rest r with
      | (none, r) => (none, r)
      | (some l, r) => (some (b.map Prod.fst ++ l), r)

/-- What a launch has read before it starts: the image, ARGS, the regions, and the INPUT bytes of its digest. -/
structure Launch where
  image : Image
  regions : List (Nat × Nat × Nat × Bool)
  input : List Byte
deriving DecidableEq, Repr

/-- Reads and checks an image and what it is launched with. -/
def readLaunch (kernel : Bool) (c : Cmd) (s : State) : Except Status (Option Launch × Run) :=
  let ws := c.words
  match readRange (word64 ws 4) 128 (runOf c s) with
  | (none, r) => .ok (none, r)
  | (some head, r) =>
    if runBlocked r then .ok (none, r)
    else
      let hw := bytesToWords 32 (head.map Prod.fst)
      if headerOk hw kernel c.arith.toNat = false then .error .imageRefused
      else match readRange (word64 ws 4) (wordAt hw 3) r with
        | (none, r) => .ok (none, r)
        | (some bytes, r) =>
          if runBlocked r then .ok (none, r)
          else if bytes.any Prod.snd then .error .imageRefused
          else match imageOf (bytes.map Prod.fst) kernel c.arith.toNat c.modes with
            | none => .error .imageRefused
            | some im =>
              let count := if word64 ws 9 = 0 then 0 else field ws 11 3 0
              match readRange (word64 ws 9) (16 * count) r with
              | (none, r) => .ok (none, r)
              | (some list, r) =>
                let regions := (List.range count).map (regionAt (list.map Prod.fst))
                if runBlocked r then .ok (none, r)
                else if !rolesOk s c.tcx im || regions.any (fun g => !regionOk s c.tcx im g) then .error .invalid
                else
                  let args := if word64 ws 6 = 0 then [] else [(word64 ws 6, field ws 8 15 0)]
                  let inputs := (regions.filter fun g => g.2.2.1 = 1).map fun g => (g.1, g.2.1)
                  match readAll (args ++ (if digestDue s c then inputs else [])) r with
                  | (none, r) => .ok (none, r)
                  | (some input, r) => .ok (some ⟨im, regions, input⟩, r)

/-- VERSION of a kernel or crown run: its WEIGHT segments with their GENs, then WEIGHT_TAG (R319). -/
def launchVersion (s : State) (c : Cmd) (im : Image) : List Byte :=
  ((List.range 16).filter fun k => im.roles.getD k 0 = 2).flatMap (fun k => toBytes 4 k ++ toBytes 4 (segOf s c.tcx k).gen.toNat)
    ++ toBytes 8 (word64 c.words 14)

/-- A write of the TCX is still on its way to its home (Table 4.8). -/
def writesPending (s : State) (t : Nat) : Bool :=
  s.eng.tiles.any (fun e => decide (e.2.tcx = t) && e.2.write) || s.eng.waiting.any fun w => decide (w.tcx = t) && w.write

/-- The launched command takes over what it has read. -/
def takeLaunch (c : Cmd) (l : Launch) (r : Run) : State :=
  modCmd c.serial (fun d => { d with phase := 2, status := r.status, faultDva := r.faultDva, faultTiles := r.faultTiles
                                     image := some l.image.digest, version := launchVersion r.s c l.image, input := l.input
                                     outputs := (l.regions.filter fun g => g.2.2.1 = 2).map fun g => (g.1, g.2.1) }) r.s

/-- `KERNEL_LAUNCH`: checked and placed; its first phase begins at its ordering point. -/
def kernelLaunchBody (c : Cmd) (s : State) : State :=
  if launchFieldsOk true c.words = false then finishWith c .invalid 0 s
  else match readLaunch true c s with
    | .error st => finishWith c st 0 s
    | .ok (none, r) => concludeRun r {} s
    | .ok (some l, r) =>
      let want := if field c.words 3 7 0 = 0 then l.image.coresMax else field c.words 3 7 0
      let n := min want (usableCores s c.polder).length
      if runBlocked r then concludeRun r {} s
      else if n < l.image.coresMin ∨ l.image.code + field c.words 8 15 0 > l.image.localBytes then finishWith c .invalid 0 s
      else
        let s := takeLaunch c l r
        let pl : Placement := { want := n, inputSeg := (List.range 16).find? fun k => l.image.roles.getD k 0 = 1
                                phases := l.image.phases.length, counts := l.image.phases.map (·.2), bounds := l.image.phases.map (·.1) }
        { s with eng := { s.eng with placements := tabInsert s.eng.placements c.serial pl } }

/-! ### Phases and items (R23, R309) -/

/-- Cores of a phase: the pool its BOUND names when both pools hold cores, B cores near the first input segment first. [DEDUCED, log 45] -/
def phaseCores (s : State) (t p : Nat) (pl : Placement) : List Nat :=
  let all := usableCores s p
  let poolB := (polderOf s p).poolB
  let b := all.filter fun c => poolB.getLsbD c
  let cc := all.filter fun c => !poolB.getLsbD c
  let bound := pl.bounds.getD pl.phase false
  let near := match pl.inputSeg with
    | some k => homeDie s (segTpa (segOf s t k) ((segOf s t k).dvaBase.toNat * (2 * mib)))
    | none => 0
  let pool := if b = [] then cc else if cc = [] then b else if bound then
      (b.filter fun c => c / 32 = near) ++ b.filter fun c => c / 32 ≠ near
    else cc
  (pool.take pl.want).mergeSort

/-- The core to which the division of R309 gives an item. -/
def divisionCore (cores : List Nat) (items item : Nat) : Nat :=
  let n := max 1 cores.length
  let per := items / n
  let extra := items % n
  cores.getD (if item < extra * (per + 1) then item / (per + 1) else extra + (item - extra * (per + 1)) / max 1 per) 0

def itemAt (pl : Placement) (item : Nat) : WorkItem := tabGet pl.items {} item

/-- The core that runs an item, migrations before the one under way included. -/
def itemCore (pl : Placement) (item : Nat) : Nat := (itemAt pl item).core.getD (divisionCore pl.cores (pl.counts.getD pl.phase 0) item)

def putPlacement (serial : Nat) (pl : Placement) (s : State) : State :=
  { s with eng := { s.eng with placements := tabInsert s.eng.placements serial pl } }

/-- `KERNEL_PHASE_START`: a phase begins when every write of the TCX has reached its home; engine counters are zeroed (R310). -/
def phaseStart (serial : Nat) (s : State) : State :=
  match tabFind s.eng.placements serial, s.q.cmds.find? fun c => c.serial = serial with
  | some pl, some c =>
    if pl.begun || c.stopped || decide (c.opcode ≠ 0xA0) || writesPending s c.tcx then s
    else
      let cores := phaseCores s c.tcx c.polder pl
      if cores = [] then s
      else
        let s := putPlacement serial { pl with cores := cores, begun := true, items := [] } s
        { s with eng := { s.eng with stores := cores.foldl (fun t k => tabModify t {} k fun st => { st with counters := [] }) s.eng.stores } }
  | _, _ => s

/-- Contiguous runs of output bytes. -/
def groupBytes : List DvaByte → List (Nat × CellBytes)
  | [] => []
  | b :: rest => match groupBytes rest with
    | (d, l) :: more => if b.dva.toNat + 1 = d then (b.dva.toNat, (b.val, b.poison) :: l) :: more else (b.dva.toNat, [(b.val, b.poison)]) :: (d, l) :: more
    | [] => [(b.dva.toNat, [(b.val, b.poison)])]

/-- A result is discarded under the cutover rule: it writes nothing and counts as a timing-dependent choice (R321, R323). -/
def discardItem (serial : Nat) (pl : Placement) (c : Cmd) (s : State) : State :=
  let s := putPlacement serial { pl with discarded := pl.discarded + 1 } s
  if isReproducible c.modes then s else modCmd serial (fun c => { c with tdcDelta := c.tdcDelta + 1 }) (raiseTdc c.tcx 1 s)

/-- A result is accepted and its output written. -/
def acceptResult (serial item core : Nat) (out : List DvaByte) (overflow : Bool) (pl : Placement) (c : Cmd) (s : State) : State :=
  let r := (groupBytes out).foldl (fun r g => writeRange g.1 g.2 r) { runOf c s with unit := core, engine := 3 }
  if runBlocked r then waitForLines s r
  else
    let s := modCmd serial (fun d => { d with status := r.status, faultDva := r.faultDva, faultTiles := r.faultTiles
                                              zeroReads := r.cmd.zeroReads, stopped := d.stopped || r.stopped }) r.s
    putPlacement serial { pl with items := tabPut pl.items {} item { itemAt pl item with accepted := true }, overflow := pl.overflow || overflow } s

/-- `ITEM_RESULT_LANDED`: the first result for an item, unless the cutover rule discards it (R323). [DEDUCED, log 45] -/
def itemLanded (serial item core : Nat) (out : List DvaByte) (overflow : Bool) (s : State) : State :=
  match tabFind s.eng.placements serial, s.q.cmds.find? fun c => c.serial = serial with
  | some pl, some c =>
    let w := itemAt pl item
    let runs := decide (core = itemCore pl item) || decide (w.newCore = some core)
    if !pl.begun || decide (item ≥ pl.counts.getD pl.phase 0) || c.stopped || decide (c.lines ≠ []) then s
    else if w.past.contains core && !runs then discardItem serial pl c s
    else if !runs then s
    else if w.accepted then (if pl.migrated then discardItem serial pl c s else s)
    else acceptResult serial item core out overflow pl c s
  | _, _ => s

/-- Cores to which unfinished items go: those of the pool outside the affected ones, else of the other pool (R323). -/
def migrationTargets (s : State) (p : Nat) (pl : Placement) (bandwidth : Bool) (affected : List Nat) : List Nat :=
  let all := (usableCores s p).filter fun c => !affected.contains c
  let inPool := all.filter fun c => (polderOf s p).poolB.getLsbD c == bandwidth
  let idle := inPool.filter fun c => !pl.cores.contains c
  let other := all.filter fun c => (polderOf s p).poolB.getLsbD c != bandwidth
  if idle ≠ [] then idle else if other ≠ [] then other else inPool

/-- A migration of a command begins, or waits for the cutover of the one under way (Table 15.8 step 1). -/
def migrate (serial : Nat) (affected : List Nat) (s : State) : State :=
  match tabFind s.eng.placements serial, s.q.cmds.find? fun c => c.serial = serial with
  | some pl, some c =>
    if pl.migrating then putPlacement serial { pl with queued := pl.queued ++ affected } s
    else
      let bandwidth := decide (c.opcode ≠ 0xA0) || pl.bounds.getD pl.phase false
      let targets := migrationTargets s c.polder pl bandwidth affected
      let open_ := if c.opcode = 0xA0 && pl.begun then (List.range (pl.counts.getD pl.phase 0)).filter fun i =>
          !(itemAt pl i).accepted && affected.contains (itemCore pl i)
        else []
      if targets = [] ∨ (c.opcode = 0xA0 ∧ open_ = []) then s
      else
        let items := (open_.foldl (fun (acc : Nat × Tab WorkItem) i =>
          (acc.1 + 1, tabPut acc.2 {} i { itemAt pl i with newCore := some (targets.getD (acc.1 % targets.length) 0) })) (0, pl.items)).2
        putPlacement serial { pl with items := items, epoch := pl.epoch + 1, migrating := true, migrated := true } s
  | _, _ => s

/-- `MIGRATION_CUTOVER`: items accepted before C leave the new placement, the others belong to it; a waiting trigger follows. -/
def cutover (serial : Nat) (s : State) : State :=
  match tabFind s.eng.placements serial with
  | none => s
  | some pl =>
    if !pl.migrating then s
    else
      let items := tabMap pl.items {} fun i w =>
        match w.newCore with
        | none => w
        | some k => if w.accepted then { w with newCore := none, past := w.past ++ [k] }
          else { w with core := some k, newCore := none, past := w.past ++ [itemCore pl i] }
      let s := putPlacement serial { pl with items := items, migrating := false, queued := [] } s
      if pl.queued = [] then s else migrate serial pl.queued s

/-- Commands of a polder whose items migrate when some of its cores are taken: kernels by their placement, lookups and
sequence commands that have begun (R323). [DEDUCED, log 45] -/
def migrateCores (affected : List Nat) (s : State) : State :=
  let polders := (s.polders.filter fun e => affected.any fun c => e.2.cores.getLsbD c).map (·.1)
  (s.q.cmds.filter fun c => polders.contains c.polder && !c.waiting && c.outcome.isNone).foldl (fun s c =>
    if c.opcode = 0xA0 then migrate c.serial affected s
    else if [0x80, 0x81, 0x84, 0x86].contains c.opcode then
      let pl := tabGet s.eng.placements {} c.serial
      migrate c.serial affected (putPlacement c.serial pl s)
    else s) s

/-- Tiles and accesses of a command that have not ended. -/
def tilesOpen (s : State) (serial : Nat) : Bool := s.eng.tiles.any (fun e => e.2.serial = serial) || s.eng.waiting.any fun w => w.serial = serial

/-- The end of a kernel: collisions and discards, and its digest (R309, R318 to R320). -/
def concludeKernel (c : Cmd) (pl : Placement) (s : State) : State :=
  let r := { runOf c s with stopped := false }
  match (if digestDue s c then readAll c.outputs r else (some [], r)) with
  | (none, r) => concludeRun r { image := c.image } s
  | (some out, r) =>
    let r := { r with s := drawFree r.s }
    concludeRun r { status := statusIf pl.overflow .ofaOverflow, image := c.image, version := c.version, input := c.input, output := out
                    overflow := pl.overflow, value := (Config.writeCollisions s.free).toNat + 65536 * min pl.discarded 65535 } s

/-- Kernels whose phase has ended go on to the next, and end after the last; a stopped kernel ends when its tiles have (R62). -/
def settleKernel (serial : Nat) (s : State) : State :=
  match tabFind s.eng.placements serial, s.q.cmds.find? fun c => c.serial = serial with
  | some pl, some c =>
    if c.opcode ≠ 0xA0 ∨ c.phase ≠ 2 ∨ c.lines ≠ [] ∨ c.outcome.isSome ∨ tilesOpen s serial then s
    else if c.stopped then concludeKernel c pl s
    else if pl.begun && decide ((pl.items.filter fun e => e.2.accepted).length = pl.counts.getD pl.phase 0) then
      if pl.phase + 1 < pl.phases then putPlacement serial { pl with phase := pl.phase + 1, begun := false, items := [], migrating := false } s
      else concludeKernel c pl s
    else s
  | _, _ => s

def settleKernels (s : State) : State := (s.eng.placements.map (·.1)).foldl (fun s k => settleKernel k s) s

/-! ### Crown runs (R311 to R315) -/

/-- Crown cores that no run uses. -/
def freeCrownCores (s : State) (p : Nat) : List Nat :=
  (usableCrown s p).filter fun c => !s.eng.runs.any fun e => e.2.cores.contains c && !e.2.ended

/-- `CROWN_RUN`: checked; it starts on cores that no run uses, at its ordering point (R312, Table 4.8). [DEDUCED, log 46] -/
def crownRunBody (c : Cmd) (s : State) : State :=
  let ws := c.words
  if launchFieldsOk false ws = false then finishWith c .invalid 0 s
  else match readLaunch false c s with
    | .error st => finishWith c st 0 s
    | .ok (none, r) => concludeRun r {} s
    | .ok (some l, r) =>
      let im := l.image
      let want := if field ws 3 7 0 = 0 then im.coresMax else field ws 3 7 0
      let n := min want (usableCrown s c.polder).length
      if runBlocked r then concludeRun r {} s
      else if n < im.coresMin ∨ n ≤ field ws 19 15 0 ∨ im.work < im.data.length + n * im.stack then finishWith c .invalid 0 s
      else if (freeCrownCores s c.polder).length < n ∨ writesPending s c.tcx then modCmd c.serial (fun c => { c with phase := 1 }) s
      else
        let work := word64 ws 16
        let r := checkWhole work im.work .read 0x2 (fun _ => false) r
        let r := if r.stopped then r else checkWhole work im.work .write 0x3 (fun _ => false) r
        let r := writeRange work (cleanBytes (im.data ++ List.replicate (im.work - im.data.length - n * im.stack) 0)) r
        if r.stopped || runBlocked r then concludeRun r {} s
        else
          let s := takeLaunch c l r
          putRun c.serial { cores := (freeCrownCores s c.polder).take n, exitCore := field ws 19 15 0, handler := im.handler
                            seed := BitVec.ofNat 64 (word64 ws 12) } s

/-- Every core of a run stops. -/
def endRun (serial : Nat) (r : CrownRun) (s : State) : State :=
  let s := { s with eng := { s.eng with waiting := s.eng.waiting.filter fun w => w.serial ≠ serial } }
  putRun serial { r with ended := true, blocked := [] } s

/-- A core of a run that runs code and waits in no service. -/
def coreRuns (r : CrownRun) (core : Nat) : Bool :=
  !r.ended && r.cores.contains core && (tabFind r.exits core).isNone && !r.blocked.any fun b => b.1 = core

/-- A service call of a core that runs code. -/
def crownCall (run core : Nat) (go : Cmd → CrownRun → State → State) (s : State) : State :=
  match tabFind s.eng.runs run, s.q.cmds.find? fun c => c.serial = run with
  | some r, some c => if coreRuns r core then go c r s else s
  | _, _ => s

def crownAnswer (run core : Nat) (value : List Word) (s : State) : State := emit (.crownReturn run core value) s

/-- `CROWN_SUBMIT`: an item of the run's TCX; the call blocks while 64 are outstanding or intake is held (R313). [DEDUCED, log 46] -/
def crownSubmitOp (run core : Nat) (fin : Fin 32) (words : List Word) (s : State) : State :=
  crownCall run core (fun c r s =>
    if r.outstanding.length ≥ 64 ∨ s.q.intakeHeld then s
    else
      let it : Item := { src := .crown run fin, words := words }
      let s := if hdrTcx words ≠ c.tcx then answerIntake it .invalid false s else acceptItem it s
      crownAnswer run core [] s) s

def takeDone (run cid : Nat) (r : CrownRun) (s : State) : State :=
  putRun run { r with done := match r.done.findIdx? fun d => d.1 = cid with
                              | some i => r.done.eraseIdx i
                              | none => r.done } s

def blockCore (run core what : Nat) (r : CrownRun) (s : State) : State := putRun run { r with blocked := r.blocked ++ [(core, what)] } s

/-- `CROWN_WAIT` for a named command: its completion entry. [DEDUCED, log 46] -/
def crownWaitOp (run core cid : Nat) (s : State) : State :=
  crownCall run core (fun _ r s =>
    match r.done.find? fun d => d.1 = cid with
    | some d => crownAnswer run core d.2 (takeDone run cid r s)
    | none => if r.outstanding.any fun o => o.2 = cid then blockCore run core cid r s else s) s

/-- `CROWN_POLL`: the completion, or "not yet", a timing-dependent choice. [DEDUCED, log 46] -/
def crownPollOp (run core cid : Nat) (s : State) : State :=
  crownCall run core (fun c r s =>
    match r.done.find? fun d => d.1 = cid with
    | some d => crownAnswer run core d.2 (takeDone run cid r s)
    | none =>
      if r.outstanding.any fun o => o.2 = cid then
        crownAnswer run core [] (modCmd run (fun c => { c with tdcDelta := c.tdcDelta + 1 }) (raiseTdc c.tcx 1 s))
      else s) s

/-- What a blocked core waits for: CID below 2^16, the fence 2^16, counter `n` at `t` as 2^17 + n + 16 × t. -/
def fenceCode : Nat := 65536
def counterCode (cnt threshold : Nat) : Nat := 131072 + cnt + 16 * threshold

/-- `CROWN_COUNTER`: WAIT on a counter of the TCX. -/
def crownCounterOp (run core cnt threshold : Nat) (s : State) : State :=
  crownCall run core (fun c r s =>
    let v := counterOf s c.tcx cnt
    if v ≥ threshold then crownAnswer run core (toWords 2 v) s else blockCore run core (counterCode cnt threshold) r s) s

/-- Writes of one crown core that have not reached their homes. -/
def coreWrites (s : State) (run core : Nat) : Bool :=
  s.eng.tiles.any (fun e => decide (e.2.serial = run ∧ e.2.unit = 0xC0 + core) && e.2.write)
    || s.eng.waiting.any fun w => decide (w.serial = run ∧ w.unit = 0xC0 + core) && w.write

/-- `CROWN_FENCE`. -/
def crownFenceOp (run core : Nat) (s : State) : State :=
  crownCall run core (fun _ r s => if coreWrites s run core then blockCore run core fenceCode r s else crownAnswer run core [] s) s

/-- `CROWN_TIME`: a timing-dependent choice each call. -/
def crownTimeOp (run core : Nat) (s : State) : State :=
  crownCall run core (fun c _ s =>
    crownAnswer run core (toWords 2 s.time) (modCmd run (fun c => { c with tdcDelta := c.tdcDelta + 1 }) (raiseTdc c.tcx 1 s))) s

/-- `CROWN_TDC_READ`. -/
def crownTdcOp (run core : Nat) (s : State) : State :=
  crownCall run core (fun c _ s => crownAnswer run core (toWords 2 (tcxOf s c.tcx).tdc) s) s

/-- `CROWN_LOG`: one record per core per 10 µs; further calls are counted and dropped. [DEDUCED, log 46] -/
def crownLogOp (run core data : Nat) (s : State) : State :=
  crownCall run core (fun c r s =>
    let last := tabGet r.logTick 0 core
    if last ≠ 0 ∧ s.time < last - 1 + 250 then putRun run { r with logDrops := tabModify r.logDrops 0 core (· + 1) } s
    else
      let s := putRun run { r with logTick := tabInsert r.logTick core (s.time + 1) } s
      writeRecord 0x04 false (toWords 4 data ++ [BitVec.ofNat 32 c.tcx, BitVec.ofNat 32 core]) s) s

/-- `CROWN_EXIT`: the core ends with a value; the last one ends the run. -/
def crownExitOp (run core : Nat) (value : Word) (s : State) : State :=
  crownCall run core (fun _ r s =>
    let r := { r with exits := tabInsert r.exits core value }
    if r.cores.all fun k => (tabFind r.exits k).isSome then endRun run r s else putRun run r s) s

/-- A trap stops every core of the run: causes 1 time limit, 2 private trap, 3 core fault (R314, Table 22.1). -/
def trapRun (run cause : Nat) (s : State) : State :=
  match tabFind s.eng.runs run with
  | none => s
  | some r => if r.ended then s else endRun run { r with trap := some cause } s

/-- `CROWN_TRAP`: a trap that the private encoding defines. -/
def crownTrapOp (run core : Nat) (s : State) : State := crownCall run core (fun _ _ s => trapRun run 2 s) s

/-- Serials of the commands that a run has submitted and that are outstanding. -/
def submitted (s : State) (run : Nat) : List Nat :=
  (s.q.cmds.filter fun c => match c.src with | .crown r _ => decide (r = run) | _ => false).map (·.serial)

/-- `CROWN_TIME_LIMIT`: every core is stopped and the submitted commands are aborted. -/
def crownLimitOp (run : Nat) (s : State) : State :=
  match tabFind s.eng.runs run with
  | none => s
  | some r =>
    if r.ended then s
    else
      let s := trapRun run 1 s
      (submitted s run).foldl (fun s k => match s.q.cmds.find? fun c => c.serial = k with
        | some c => if c.decided then s else abortCommand k (spoilOutputs k s)
        | none => s) s

/-- `CROWN_POISON_EXCEPTION`: a crown load finds a poisoned line; the handler is entered, or every core stops (R315). -/
def crownPoisonOp (run core dva : Nat) (s : State) : State :=
  crownCall run core (fun c r s =>
    match checkByte s c.tcx dva .read with
    | .at _ tpa =>
      if linePoisoned s tpa = false then s
      else
        let key := core * 2 ^ 44 + lineOf tpa
        let s := { s with eng := { s.eng with l2Poison := if s.eng.l2Poison.contains key then s.eng.l2Poison else s.eng.l2Poison ++ [key] } }
        let s := modCmd run (fun c => { c with status := statusJoin c.status .poisoned }) s
        if r.handler then emit (.crownVector run core (dva / 64 * 64)) (putRun run { r with poisoned := true } s)
        else endRun run { r with poisoned := true } s
    | _ => s) s

/-- What a blocked core waited for has come. -/
def unblock (run : Nat) (c : Cmd) (s : State) : State :=
  match tabFind s.eng.runs run with
  | none => s
  | some r =>
    r.blocked.foldl (fun s b =>
      match tabFind s.eng.runs run with
      | none => s
      | some r =>
        let free := putRun run { r with blocked := r.blocked.filter (· ≠ b) } s
        if b.2 < 65536 then
          match r.done.find? fun d => d.1 = b.2 with
          | some d => crownAnswer run b.1 d.2 (takeDone run b.2 { r with blocked := r.blocked.filter (· ≠ b) } s)
          | none => s
        else if b.2 = fenceCode then (if coreWrites s run b.1 then s else crownAnswer run b.1 [] free)
        else
          let v := counterOf s c.tcx ((b.2 - 131072) % 16)
          if v ≥ (b.2 - 131072) / 16 then crownAnswer run b.1 (toWords 2 v) free else s) s

/-- The result word of a run: its exit value, or the cause of its trap (R314). -/
def runValue (r : CrownRun) : Nat :=
  match r.trap with
  | some cause => cause * 2 ^ 24
  | none => (tabGet r.exits 0 (r.cores.getD r.exitCore 0)).toNat

/-- A run completes when its cores have ended and everything it submitted has completed. -/
def settleRun (run : Nat) (s : State) : State :=
  match tabFind s.eng.runs run, s.q.cmds.find? fun c => c.serial = run with
  | some r, some c =>
    let s := if c.stopped && !r.ended then endRun run r s else s
    let s := unblock run c s
    match tabFind s.eng.runs run with
    | none => s
    | some r =>
      if !r.ended || decide (submitted s run ≠ []) || tilesOpen s run || decide (c.lines ≠ []) || c.outcome.isSome then s
      else
        let q := { runOf c s with stopped := false }
        match (if digestDue s c then readAll c.outputs q else (some [], q)) with
        | (none, q) => concludeRun q { image := c.image } s
        | (some out, q) => concludeRun q { status := statusIf r.trap.isSome .crownTrap, image := c.image, version := c.version
                                           input := c.input, output := out, value := runValue r } s
  | _, _ => s

def settleRuns (s : State) : State := (s.eng.runs.map (·.1)).foldl (fun s k => settleRun k s) s

end Sys2Proof.Machine
end

