-- ==== Sys2Proof/Machine/Resets.lean ====
section
/-!
DEFINITION. What the device-level resets do (R395, R396): the channel flush before them (R125, R449), what a device reset
and a terp reset keep, the NOR flush of the recorder (R457), the terp-only state (R385) and `PWR_WARN_N` (R481).
-/

namespace Sys2Proof.Machine

/-! ### The channel flush (Table 6.7) and what a reset leaves of flash writes (R448 to R450) -/

/-- A journalled write that did not survive: its cells, the marks and seals of its lines and its unit's map entry return. -/
def undoWrite (w : FlashWrite) (s : State) : State :=
  let cell := cellOf s w.tpa
  let first := cell / 64
  let bytes := (List.range w.old.length).foldl (fun m i => tabPut m 0 (cell + i) (w.old.getD i 0)) s.mem.bytes
  let poison := (List.range w.oldMarks.length).foldl (fun m i =>
    match (w.oldMarks.getD i (none, 0)).1 with
    | some c => tabInsert m (first + i) c
    | none => tabErase m (first + i)) s.mem.poison
  let sealed := (List.range w.oldMarks.length).foldl (fun m i => tabPut m 0 (first + i) (w.oldMarks.getD i (none, 0)).2) s.mem.sealed
  { s with mem := { bytes := bytes, poison := poison, sealed := sealed }
           ftl := { s.ftl with map := tabPut s.ftl.map {} (unitOf s w.tpa) w.oldMap } }

/-- Acknowledged writes are kept when the flush runs; the others, and all of them without the flush, are kept or lost unit by unit. [DESIGN CHOICE, log 21] -/
def writeSurvives (s : State) (flush : Bool) (w : FlashWrite) : Bool := (w.acked && flush) || Config.unitSurvives s.free (unitOf s w.tpa)

/-- A die after the flush: the programs have finished, and an erase in progress is made again (Table 6.7 step 1). -/
def flushedDie (x : Die) : Die :=
  let cut := (x.running.toList ++ x.writes).filter fun o => decide (o.kind = .erase) && (decide (some o = x.running) || o.suspended)
  { x with running := none, reads := [], writes := []
           reerase := x.reerase ++ (cut.map (·.block)).filter fun b => !x.reerase.contains b }

/-- One channel over a reset. -/
def flushChannel (flush : Bool) (ch : Nat) (s : State) : State :=
  let lost := ((nandOf s ch).writes.filter fun w => w.staged && !writeSurvives s flush w).reverse
  let s := lost.foldl (fun s w => undoWrite w s) s
  let s := modNand ch (fun n => { n with present := false, mapLoaded := false, staged := false, journalUsed := 0, writes := []
                                         updates := [], dies := n.dies.map fun e => (e.1, flushedDie e.2) }) s
  { s with ftl := { s.ftl with map := s.ftl.map.map fun e => (e.1, if e.1 / 2 ^ 30 = ch ∧ e.2.state = .sram then { e.2 with state := .slc } else e.2) } }

/-- Every channel over a reset; a flushed channel programs its flush-complete record (R447 step 4, R449). -/
def flushAll (flush : Bool) (s : State) : State :=
  let s := drawFree ((s.ftl.chans.map (·.1)).foldl (fun s ch => flushChannel flush ch s) s)
  if flush then { s with flt := { s.flt with stagedRecord := 0 } } else s

/-! ### What the resets keep -/

/-- Cells of flash start at 2^60; the contents of every other medium are lost (R388, R396). -/
def flashOnly (m : MemSt) : MemSt :=
  { bytes := tabFilter m.bytes fun k _ => decide (2 ^ 60 ≤ k)
    poison := tabFilter m.poison fun k _ => decide (2 ^ 54 ≤ k)
    sealed := tabFilter m.sealed fun k _ => decide (2 ^ 54 ≤ k) }

/-- Reset value of port 16's CLOCKING: the straps, 0b11 taken as SRIS (Table 25.6). -/
def strapClocking (m : BitVec 2) : Nat := if m = 3 then 2 else m.toNat

/-- The ports at their reset values (Table 20.5, Table 20.11). -/
def resetPorts (m : BitVec 2) : PortSt := { ports := tabPut [] {} 16 { clocking := strapClocking m } }

/-- The flash channels' state that flash itself keeps. -/
def keptFlash (f : FtlSt) : FtlSt := { chans := f.chans, map := f.map, bulk := f.bulk, qualified := false }

/-- The state after a device reset (Table 19.8 and the tables it names): what the terp, the NOR, the fuses and flash keep. [DEDUCED, log 56] -/
def afterDeviceReset (s : State) : State :=
  { State.reset with
    mem := flashOnly s.mem
    res := { State.reset.res with failedDdr := s.res.failedDdr, failedHbm := s.res.failedHbm }
    ftl := keptFlash s.ftl
    key := { State.reset.key with made := s.key.made }
    fw := { State.reset.fw with copyA := s.fw.copyA, copyB := s.fw.copyB }
    port := resetPorts s.pins.clkMode
    pwr := { State.reset.pwr with episodes := s.pwr.episodes, minPct := s.pwr.minPct, warnNow := s.pwr.warnNow
                                  restoring := s.pwr.restoring, warnSticky := s.pwr.warnSticky, tripped := s.pwr.tripped }
    flt := { State.reset.flt with lossHeld := s.flt.lossHeld, lossPending := s.flt.lossPending, stagedRecord := s.flt.stagedRecord }
    recorder := { State.reset.recorder with persistent := s.recorder.persistent, norReady := s.recorder.norReady
                                            erasing := s.recorder.erasing, slotA := s.recorder.slotA, slotB := s.recorder.slotB }
    dbg := { State.reset.dbg with jtagIr := s.dbg.jtagIr }
    ident := s.ident
    pins := { s.pins with ioCtrl := 0x54 }
    regs := { s.regs with selLink := 0, selPort := 0, winPart := false, winIndex := 0, winLatch := [] }
    time := s.time
    beat := s.beat
    pending := s.pending
    out := s.out
    free := s.free }

/-- A device reset (R395): the channels are flushed, everything volatile goes (R396, R449), and its cause is recorded, the first
record of the volatile part after the reset (R452). [DEDUCED, log 56] -/
def deviceReset (detail : Nat) (flush : Bool) (s : State) : State :=
  writeEvent 0x0D 0 0 64 0 detail (afterDeviceReset (flushAll flush s))

/-! ### The NOR at a loss of power (R457, R498) -/

/-- Bytes of a record, in address order. -/
def eventBytes (r : Record) : List Byte := wordsToBytes r

/-- A slot whose MAGIC and CRC-32 check. -/
def slotValid (x : NorSlot) : Bool :=
  decide (x.magic = 0x42595243) && decide (x.crc = BitVec.ofNat 32 (crc32 (x.records.flatMap eventBytes))) && decide (x.count = x.records.length)

/-- The power-loss flush: the newest 256 persistent records go to the erased slot, the header last (R457). -/
def flushRecorder (s : State) : State :=
  let r := s.recorder
  if !r.norReady then s
  else
    let recs := lastN 256 r.persistent
    let seq := max (if slotValid r.slotA then r.slotA.seq.toNat else 0) (if slotValid r.slotB then r.slotB.seq.toNat else 0) + 1
    let slot : NorSlot := { magic := 0x42595243, seq := BitVec.ofNat 32 seq, count := recs.length
                            crc := BitVec.ofNat 32 (crc32 (recs.flatMap eventBytes)), records := recs, erased := false }
    { s with recorder := { r with norReady := false, slotA := if r.slotA.erased then slot else r.slotA
                                  slotB := if r.slotA.erased then r.slotB else slot } }

/-- A bundle copy that the NOR window has touched: the next start-up reads what it holds. An erase takes an invalid mark with it. -/
def spoilCopy (erase : Bool) (a : Nat) (s : State) : State :=
  let spoilt := fun c : BundleCopy => { c with known := false, verifies := false, markedInvalid := c.markedInvalid && !erase }
  if a < 0x01800000 then { s with fw := { s.fw with copyA := spoilt s.fw.copyA } }
  else if a < 0x03000000 then { s with fw := { s.fw with copyB := spoilt s.fw.copyB } }
  else s

/-- A NOR window command ends at once where the terp loses its power; an erase cut short leaves its sector undefined (R498). [DESIGN CHOICE, log 21] -/
def cutNor (s : State) : State :=
  match s.regs.norBusy with
  | none => s
  | some (op, addr) =>
    let s := { s with regs := { s.regs with norBusy := none } }
    if op = 3 then
      let a := addr.toNat
      let nor := (List.range 65536).foldl (fun m i => tabPut m 0xFF (a + i) (Config.cutSector s.free (a + i))) s.ident.nor
      drawFree (spoilCopy true a { s with ident := { s.ident with nor := nor } })
    else s

/-! ### The terp -/

/-- The state after a terp reset: what the NOR, the fuses and flash keep (Table 19.8). [DEDUCED, log 56] -/
def afterTerpReset (s : State) : State :=
  let d := afterDeviceReset s
  { State.reset with
    mem := d.mem
    ftl := d.ftl
    key := d.key
    fw := d.fw
    port := State.reset.port
    flt := { State.reset.flt with lossPending := s.flt.lossPending, stagedRecord := s.flt.stagedRecord }
    recorder := { State.reset.recorder with slotA := s.recorder.slotA, slotB := s.recorder.slotB }
    ident := { State.reset.ident with serial := s.ident.serial, dies := s.ident.dies, minSvn := s.ident.minSvn, nor := s.ident.nor }
    pending := s.pending
    out := s.out
    free := s.free }

/-- `TERP_RESET`: the terp supply goes out of range, which is a device reset too (R395, R477). -/
def terpResetOp (s : State) : State :=
  if !s.pins.terpUp then s else afterTerpReset (flushAll true (cutNor s))

/-- The device enters the terp-only state (R385): nothing but the terp works on. -/
def enterTerpOnly (cause : BitVec 4) (step : BitVec 8) (s : State) : State :=
  let fw := s.fw
  let s := afterDeviceReset (flushAll true s)
  raiseIrq 5 { s with fw := { s.fw with terpOnly := true, cause := cause, step := step, copyMarkA := fw.copyMarkA, copyMarkB := fw.copyMarkB
                                        active := fw.active } }

/-- `PWR_WARN_N` (R481): asserted during the first start-up, in the terp-only state, in a warning episode and from a power loss on. -/
def settlePins (s : State) : State :=
  { s with pins := { s.pins with pwrWarn := s.pins.terpUp && (s.pins.booting || s.fw.terpOnly || s.pwr.warnNow || s.flt.lossHeld) } }

/-! ### Power loss (R446, R447) -/

/-- `POWER_LOSS_DETECT`: the flush of the channels runs where `HOLDUP_OK` is asserted; the reset that follows is held. [DEDUCED, log 56] -/
def powerLoss (s : State) : State :=
  if !s.pins.terpUp ∨ s.flt.lossHeld then s
  else
    let s := deviceReset 2 s.pins.holdupOk (flushRecorder (cutNor s))
    { s with flt := { s.flt with lossHeld := true, lossPending := true } }

/-- `POWER_RESTORE_TIMEOUT`: the rails have been in range for 100 ms and the held reset may proceed. -/
def powerRestored (s : State) : State := { s with flt := { s.flt with lossHeld := false } }

/-! ### Pins and registers that reset the device -/

/-- `SYS_RESET_ASSERT`: a low pulse shorter than 1 µs is only counted (R483). -/
def sysResetLow (short : Bool) (s : State) : State :=
  if !s.pins.terpUp then s
  else if short then
    { s with pins := { s.pins with glitchControl := if s.pins.glitchControl = 0xFFFF then s.pins.glitchControl else s.pins.glitchControl + 1 } }
  else
    let s := deviceReset 1 true s
    { s with pins := { s.pins with sysResetHigh := false } }

/-- A thermal trip (R431): `THERMTRIP_N`, the flush, and a device reset that is held until every sensor is below 100 °C. -/
def thermalTrip (s : State) : State :=
  if s.pwr.tripped ∨ !s.pins.terpUp then s
  else
    let s := deviceReset 3 true (raiseIrq 2 s)
    { s with pwr := { s.pwr with tripped := true }, pins := { s.pins with thermTrip := true } }

/-- A warning episode ends (R434). -/
def endEpisode (s : State) : State := { s with pwr := { s.pwr with warnNow := false, restoring := false } }

/-- A rail outside its window, or a core rail above 110 %: the device resets (R477). -/
def supplyReset (s : State) : State := if !s.pins.terpUp then s else deviceReset 2 true (endEpisode s)

/-- `BMC_RESET` (Table 26.5). -/
def bmcResetOp (value : Word) (s : State) : State :=
  if s.pins.terpUp && decide (value.toNat / 2 ^ 16 = 0x0960) && value.getLsbD 0 then deviceReset 5 true s else s

end Sys2Proof.Machine
end

