-- ==== Sys2Proof/Machine/Links.lean ====
section
/-!
DEFINITION. Host ports and their links (chapter 20): training, surprise down and the grace period, sleep and the
rendezvous, errors on the link, and what unbinding an LD does (R33, R359).
-/

namespace Sys2Proof.Machine

def modPort (p : Nat) (f : Port → Port) (s : State) : State :=
  { s with port := { s.port with ports := tabModify s.port.ports {} p f } }

def modLink (p l : Nat) (f : Link → Link) (s : State) : State :=
  modPort p (fun x => { x with links := tabModify x.links {} l f }) s

/-- Links of a port under its bifurcation, and the lanes of each (Table 20.1). -/
def linkCount (width : Nat) : Nat := 2 ^ width
def linkLanes (width : Nat) : Nat := 16 / 2 ^ width

def linkExists (s : State) (p l : Nat) : Bool := decide (l < linkCount (portAt s p).width)

/-- LDs that a link carries (Table 20.1). -/
def linkLds (width link : Nat) : List Nat := (List.range 16).filter fun ld => linkOfLd width ld = link

/-- Bound sluices that a link carries. -/
def linkSluices (s : State) (p l : Nat) : List Nat :=
  ((linkLds (portAt s p).width l).map (p * 16 + ·)).filter fun ix => (tabFind s.q.bound ix).isSome

def linkHids (s : State) (p l : Nat) : List Nat := (linkSluices s p l).filterMap fun ix => tabFind s.q.bound ix

/-- Raises a counter of a link block, by its offset (Table 20.6). -/
def bumpLink (p l offset : Nat) (s : State) : State :=
  modLink p l (fun x => { x with counters := tabModify x.counters 0 offset fun c => satAdd 32 c 1 }) s

/-! ### Unbinding (R33, R359) -/

/-- Every IDE stream of an LD returns to IDLE, its keys erased (R165). [PRESUMED, log 31] -/
def eraseStreams (ix : Nat) (s : State) : State :=
  { s with key := { s.key with streams := tabFilter s.key.streams fun k _ => decide (k / 256 ≠ ix) } }

/-- The running commands of a sluice lose the place of their completions (R359, R418). -/
def orphanCmds (ix : Nat) (remembered : Bool) (s : State) : State :=
  { s with q := { s.q with cmds := s.q.cmds.map fun c =>
      match c.src with
      | .crown _ _ | .tunnel | .jtag => c
      | _ => if srcSluice s c.src = some ix then { c with lost := true, remembered := remembered && c.remembered } else c } }

/-- Writes held for a link that is down are discarded and counted (R359). -/
def discardHeld (ix : Nat) (s : State) : State :=
  let mine := s.q.portHeld.filter fun e => e.1 = ix
  { s with q := { s.q with portHeld := s.q.portHeld.filter (fun e => e.1 ≠ ix), discarded := s.q.discarded + mine.length
                           captured := tabFilter s.q.captured fun k _ => decide (k / 1024 ≠ ix) } }

/-- The LD is unbound: its streams end and its sluice is removed. -/
def unbindLd (ix : Nat) (s : State) : State :=
  if (tabFind s.q.bound ix).isNone then s
  else
    let s := discardHeld ix (orphanCmds ix false (eraseStreams ix s))
    { s with q := { s.q with bound := tabErase s.q.bound ix, sluices := tabErase s.q.sluices ix } }

/-! ### Surprise down (R410) -/

/-- Snoops to hosts behind a link are held while it is down, and sent when it returns. -/
def holdSnoops (hids : List Nat) (s : State) : State :=
  { s with coh := { s.coh with flows := s.coh.flows.map fun e =>
      (e.1, { e.2 with snoops := e.2.snoops.map fun sn => if hids.contains sn.hid then { sn with held := true } else sn }) } }

def sendHeldSnoops (hids : List Nat) (s : State) : State :=
  let msgs := s.coh.flows.flatMap fun e => (e.2.snoops.filter fun sn => sn.held && hids.contains sn.hid).map fun sn => (sn.hid, e.1, sn.isData)
  let s := { s with coh := { s.coh with flows := s.coh.flows.map fun e =>
      (e.1, { e.2 with snoops := e.2.snoops.map fun sn => if hids.contains sn.hid then { sn with held := false } else sn }) } }
  msgs.foldl (fun s m => emit (.snoop m.1 m.2.1 m.2.2) s) s

/-- Host-tier reads through the LDs of a link end as a read with no completion, and no zero-length read is waited for (R100, R410). -/
def dropHostReads (hids : List Nat) (s : State) : State :=
  let mine := (s.tier.thReads.filter fun e => hids.contains (windowOf s e.2.1).hid.toNat).map (·.1)
  let s := mine.foldl (fun s id => thTimeout id s) s
  { s with q := { s.q with cmds := s.q.cmds.map fun c => { c with zeroReads := c.zeroReads.filter fun h => !hids.contains h } } }

/-- Notice of a link: the link in UNIT bits 3:0, CAUSE in bits 7:4, and up to eight bound HIDs in ADDRESS, a byte each. [DEDUCED, log 30] -/
def linkNotice (kind p l detail : Nat) (hids : List Nat) (s : State) : State :=
  notifyFm { kind := kind, port := p, unit := l + 16 * detail } (ofBytes ((hids.take 8).map (BitVec.ofNat 8 ·))) s

/-- What every entry to DETACHED or OFF from L0 or L1 does (R410). -/
def linkDown (p l cause : Nat) (off : Bool) (s : State) : State :=
  let ixs := linkSluices s p l
  let hids := linkHids s p l
  let s := modLink p l (fun x => { x with
    state := if off then .off else .detached, speed := 0, width := 0, active := 0, ptmOk := false, rdvOk := false
    cause := BitVec.ofNat 4 cause, attempts := 0, grace := true, offered := false, grid := none, misses := 0
    retrain := false, creditStall := false }) s
  let s := if off then s else bumpLink p l 0x1C s
  let s := ixs.foldl (fun s ix => eraseStreams ix s) s
  let s := dropHostReads hids (holdSnoops hids s)
  linkNotice 0x04 p l cause hids s

/-- An event takes a link that is up down; a training attempt it meets ends. -/
def linkFails (p l cause : Nat) (s : State) : State :=
  if !linkExists s p l then s
  else if linkUp (linkAt s p l) then linkDown p l cause false s
  else s

/-! ### Training (R406 to R409) -/

/-- Training starts: out of OFF it is the first attempt, out of DETACHED it counts (R408). -/
def startTraining (p l : Nat) (s : State) : State :=
  modLink p l (fun x =>
    match x.state with
    | .off => { x with state := .training, retrain := false }
    | .detached => { x with state := .training, retrain := false, attempts := min 255 (x.attempts + 1) }
    | _ => x) s

def portUsable (s : State) (p : Nat) : Bool := (portAt s p).enable && !s.flt.portFailed.getLsbD p && decide (5 ≤ s.fw.step.toNat) && !s.fw.terpOnly

/-- Every link of a port that is OFF starts an attempt. -/
def startPort (p : Nat) (s : State) : State :=
  if portUsable s p then
    (List.range (linkCount (portAt s p).width)).foldl (fun s l => if (linkAt s p l).state = .off then startTraining p l s else s) s
  else s

/-- Payload of a rendezvous message (Table 20.13). -/
def rdvPayload (kind resync : Nat) (origin : BitVec 64) : BitVec 128 :=
  BitVec.ofNat 128 (kind * 2 ^ 24 + 1 * 2 ^ 16 + 32 * 2 ^ 8 + 4 + resync * 2 ^ 32 + origin.toNat * 2 ^ 64)

/-- `LINK_UP`: step 5 of Table 20.8; the bound LDs resume, and an optical link sends its OFFER (R411, R415). -/
def linkComesUp (p l : Nat) (fast : Bool) (width : Nat) (ptm : Bool) (s : State) : State :=
  let x := linkAt s p l
  let port := portAt s p
  if !linkExists s p l ∨ x.state ≠ .training ∨ width = 0 ∨ width > linkLanes port.width then s
  else
    let speed := if fast && decide (port.speedMax = 1) && (decide (p = 16) || !s.ident.uncalibrated) then 2 else 1
    let hids := linkHids s p l
    let s := modLink p l (fun x => { x with state := .l0, speed := speed, width := width, active := width, ptmOk := ptm, rdvOk := false
                                            grace := false, retrain := false, misses := 0, grid := none, offered := decide (p < 16) }) s
    let s := if width < linkLanes port.width then writeEvent 0x0C (p * 4 + l) 0 64 0 width s else s
    let s := if x.grace then linkNotice 0x05 p l (speed * 32 + width) hids s else s
    let s := (linkSluices s p l).foldl (fun s ix => releasePortHeld ix s) s
    let s := sendHeldSnoops hids s
    if p < 16 then emit (.link p l 1 (rdvPayload 1 0 0)) s else s

/-- `TRAINING_TIMEOUT`: the attempt ends in DETACHED; a failed retraining after a late wake is a surprise down (R407, R416). -/
def trainingEnds (p l : Nat) (s : State) : State :=
  let x := linkAt s p l
  if !linkExists s p l ∨ x.state ≠ .training then s
  else if x.retrain then linkDown p l 1 false s
  else modLink p l (fun x => { x with state := .detached, cause := 1 }) s

/-- `TRAINING_SET_RECEIVED` and `DETACHED_RETRY`: an attempt of a DETACHED link starts (R408, R409). -/
def detachedAttempt (p l : Nat) (s : State) : State :=
  if linkExists s p l && portUsable s p && decide ((linkAt s p l).state = .detached) then startTraining p l s else s

/-- `LOSS_OF_SIGNAL` and `LASER_LOW` on a lane of an optical port (R403, Table 20.7). -/
def lightLost (p lane cause : Nat) (s : State) : State :=
  let l := lane / linkLanes (portAt s p).width
  if p ≥ 16 then s
  else if (linkAt s p l).state = .training then trainingEnds p l s
  else linkFails p l cause s

/-! ### PORT_CTRL (R404) -/

/-- `PORT_ENABLE`. -/
def portEnableOp (p : Nat) (s : State) : State :=
  if s.flt.portFailed.getLsbD p then s else startPort p (modPort p (fun x => { x with enable := true }) s)

/-- Every link of a port goes to OFF; those that were up as a surprise down (R404, Table 22.1). -/
def portOff (p : Nat) (s : State) : State :=
  (List.range (linkCount (portAt s p).width)).foldl (fun s l =>
    if linkUp (linkAt s p l) then linkDown p l 5 true s
    else modLink p l (fun x => { x with state := .off, retrain := false, offered := false }) s) s

/-- `PORT_DISABLE`. -/
def portDisableOp (p : Nat) (s : State) : State := portOff p (modPort p (fun x => { x with enable := false }) s)

/-- `PORT_WIDTH_WRITE`: only while no LD of the port is bound; the port's links train anew. [DEDUCED, log 58] -/
def portWidthOp (p width : Nat) (s : State) : State :=
  if width = 3 then s
  else if s.q.bound.any fun e => e.1 / 16 = p then modSluice mgmtIx (fun sl => { sl with dbErr := true }) s
  else if width = (portAt s p).width then s
  else startPort p (modPort p (fun x => { x with width := width, links := [] }) s)

/-! ### The grace period (R411) -/

/-- TCXs bound to a HID: its sluice made their last `KEY_LOAD`, or created them in an OPEN polder. -/
def tcxsOfSluice (s : State) (ix : Nat) : List Nat :=
  (s.tcxs.filter fun e => decide (e.2.state ≠ .free) &&
    (decide (e.2.keySluice = some ix) ||
      (isOpenMode (polderOf s e.2.polder).modes && decide (tabFind s.q.creator e.1 = some ix)))).map (·.1)

/-- One LD of a link whose grace period has ended. -/
def fenceLd (p ix : Nat) (s : State) : State :=
  match tabFind s.q.bound ix with
  | none => s
  | some hid =>
    let s := (tcxsOfSluice s ix).foldl (fun s t => if (tcxOf s t).state = .resetting then s else beginReset t false s) s
    notifyFm { kind := 0x06, port := p, hid := hid, unit := ix % 16 } 0 (unbindLd ix s)

/-- `HOST_GRACE_EXPIRY`. -/
def graceExpired (p l : Nat) (s : State) : State :=
  if !linkExists s p l ∨ !(linkAt s p l).grace then s
  else (linkSluices s p l).foldl (fun s ix => fenceLd p ix s) (modLink p l (fun x => { x with grace := false }) s)

/-! ### L0p and L1 (R413 to R416) -/

/-- `L0P_NARROW`: to half the active width, and then to x4. -/
def l0pNarrowOp (p l : Nat) (s : State) : State :=
  if linkExists s p l && (portAt s p).l0pEn && decide ((linkAt s p l).state = .l0 ∧ 4 < (linkAt s p l).active) then
    modLink p l (fun x => { x with active := max 4 (x.active / 2) }) s
  else s

/-- `L0P_WIDEN`: full width. -/
def l0pWidenOp (p l : Nat) (s : State) : State :=
  if linkExists s p l && decide ((linkAt s p l).state = .l0) then modLink p l (fun x => { x with active := x.width }) s else s

/-- `PARTNER_L0P_CHANGE`: accepted. [DEDUCED, log 58] -/
def partnerL0pOp (p l width : Nat) (s : State) : State :=
  if linkExists s p l && decide ((linkAt s p l).state = .l0 ∧ 1 ≤ width ∧ width ≤ (linkAt s p l).width) then
    modLink p l (fun x => { x with active := width }) s
  else s

/-- `L1_IDLE_TIMEOUT`: port 16 sleeps at once; an optical link sends GRID, if the rendezvous stands and the device is calibrated. -/
def l1IdleOp (p l : Nat) (origin : BitVec 64) (s : State) : State :=
  let x := linkAt s p l
  if !linkExists s p l ∨ x.state ≠ .l0 ∨ !(portAt s p).l1En then s
  else if p = 16 then modLink p l (fun x => { x with state := .l1 }) s
  else if x.ptmOk && x.rdvOk && !s.ident.uncalibrated then
    emit (.link p l 3 (rdvPayload 3 (portAt s p).l1Resync.toNat origin)) (modLink p l (fun x => { x with grid := some origin }) s)
  else s

/-- Word 0 of a rendezvous message of a kind with this device's VERSION, PERIOD and GUARD. -/
def rdvMatches (kind : Nat) (payload : BitVec 128) : Bool := decide (payload.toNat % 2 ^ 32 = (rdvPayload kind 0 0).toNat)

/-- `RDV_ACCEPT`. -/
def rdvAcceptOp (p l : Nat) (payload : BitVec 128) (s : State) : State :=
  if (linkAt s p l).offered && rdvMatches 2 payload then modLink p l (fun x => { x with offered := false, rdvOk := true }) s else s

/-- `RDV_OFFER_TIMEOUT`. -/
def rdvOfferOp (p l : Nat) (s : State) : State :=
  if (linkAt s p l).offered then modLink p l (fun x => { x with offered := false }) s else s

/-- `RDV_GRID_ACK`: with the same ORIGIN, the link enters L1. -/
def rdvGridAckOp (p l : Nat) (payload : BitVec 128) (s : State) : State :=
  match (linkAt s p l).grid with
  | none => s
  | some o =>
    if rdvMatches 4 payload && decide (payload.toNat / 2 ^ 64 = o.toNat) then
      modLink p l (fun x => { x with state := .l1, grid := none, origin := o, misses := 0 }) s
    else s

/-- `RDV_GRID_TIMEOUT`: the entry is cancelled; three misses in a row clear RDV_OK. -/
def rdvGridTimeoutOp (p l : Nat) (s : State) : State :=
  if (linkAt s p l).grid.isNone then s
  else modLink p l (fun x => { x with grid := none, misses := x.misses + 1, rdvOk := x.rdvOk && decide (x.misses + 1 < 3) }) s

/-- A wake beyond the guard: a full attempt, which is no surprise down unless it fails (R416). [DEDUCED, log 58] -/
def lateWake (p l : Nat) (s : State) : State :=
  bumpLink p l 0x18 (modLink p l (fun x => { x with state := .training, retrain := true }) s)

/-- `L1_WAKE`: the link passes through Recovery to L0. -/
def l1WakeOp (p l : Nat) (withinGuard : Bool) (s : State) : State :=
  if !linkExists s p l ∨ (linkAt s p l).state ≠ .l1 then s
  else if withinGuard ∨ p = 16 then bumpLink p l 0x14 (modLink p l (fun x => { x with state := .l0 }) s)
  else lateWake p l s

/-- `L1_RESYNC`: the link wakes for a PTM exchange and sleeps again. -/
def l1ResyncOp (p l : Nat) (withinGuard : Bool) (s : State) : State :=
  if !linkExists s p l ∨ (linkAt s p l).state ≠ .l1 ∨ p = 16 ∨ (portAt s p).l1Resync = 0 then s
  else if withinGuard then bumpLink p l 0x14 s
  else lateWake p l s

/-! ### Errors (R417, R418) -/

/-- `FLIT_ERROR`: corrected by FEC, or failing CRC and replayed; counted once more where it begins an episode. -/
def flitErrorOp (p l : Nat) (corrected newEpisode : Bool) (s : State) : State :=
  if !linkExists s p l || !linkUp (linkAt s p l) then s
  else
    let s := if corrected then bumpLink p l 0x04 s else bumpLink p l 0x0C (bumpLink p l 0x08 s)
    if newEpisode then bumpLink p l 0x10 s else s

/-- The link passes through Recovery. [DEDUCED, log 58] -/
def recoveryOp (p l : Nat) (f : Link → Link) (s : State) : State :=
  if linkExists s p l && linkUp (linkAt s p l) then bumpLink p l 0x14 (modLink p l f s) else s

/-- `CREDIT_RECOVERY_TIMEOUT`. [DEDUCED, log 58] -/
def creditFails (p l : Nat) (s : State) : State := if (linkAt s p l).creditStall then linkFails p l 6 s else s

/-- `PTM_NO_RESPONSE`. -/
def ptmLost (p l : Nat) (s : State) : State := if linkExists s p l then modLink p l (fun x => { x with ptmOk := false }) s else s

/-- `FUNCTION_LEVEL_RESET` (Table 20.10): the sluice returns to UNMATCHED; its waiting commands complete `ABORTED`, and every
completion of its rings is discarded and counted. [DEDUCED, log 58] -/
def flrOp (ix : Nat) (s : State) : State :=
  match findSluice s ix with
  | none => s
  | some sl =>
    let s := discardHeld ix (orphanCmds ix true s)
    let lostHeld := sl.admin.held.length + ((sl.qps.map fun e => e.2.held.length)).sum
    let s := { s with q := { s.q with discarded := s.q.discarded + lostHeld
                                      sluices := tabInsert s.q.sluices ix { hid := sl.hid, ifVersion := s.fw.running.manifest.ifVersion
                                                                            rids := sl.rids.map fun r => { r with repeats := [] } } } }
    finishAll (fun c => c.waiting && c.lost && (match c.src with | .data .. => decide (srcSluice s c.src = some ix) | _ => false)) { status := .aborted } s

end Sys2Proof.Machine
end

