-- ==== Sys2Proof/Machine/Queues.lean ====
section
/-!
DEFINITION. The rings of a sluice as commands reach them: doorbells (R342, R346), fetching and the header position (R348,
R349), interrupts (R352), the admin queue's enable (R342), dispatch (R347) and the tunnel (R364).
-/

namespace Sys2Proof.Machine

/-- The source that a ring stands for. -/
def ringSrc (port : Fin 17) (ld : Fin 16) (qp : Option (BitVec 8)) : Src :=
  match qp with
  | none => .admin port ld
  | some q => .data port ld q

def qpNat (qp : Option (BitVec 8)) : Option Nat := qp.map (·.toNat)

/-- Changes one ring of a sluice. -/
def modRing (ix : Nat) (qn : Option Nat) (f : Ring → Ring) (s : State) : State :=
  modSluice ix (fun sl => match ringOf sl qn with | none => sl | some r => putRing qn (f r) sl) s

def getRing (s : State) (ix : Nat) (qn : Option Nat) : Option Ring := (findSluice s ix).bind fun sl => ringOf sl qn

/-- Size of the submission ring. -/
def sqSize (r : Ring) : Nat := 2 ^ r.sqLog2

/-- Entries from the header position up to the tail. -/
def sqAvail (r : Ring) : Nat := (r.sqTail + sqSize r - r.position) % sqSize r

/-- A doorbell write that is ignored (R346). -/
def badDoorbell (ix : Nat) (s : State) : State :=
  modSluice ix (fun sl => { sl with dbErr := true, dbErrCount := satAdd 32 sl.dbErrCount 1 }) s

/-- Key of a doorbell in the capture array (R426): ring, and tail (0) or head (1). -/
def captureKey (ix : Nat) (qn : Option Nat) (head : Bool) : Nat :=
  (ix * 512 + (match qn with | none => 256 | some q => q)) * 2 + (if head then 1 else 0)

/-- Applies a tail write: the entries up to it are the device's (R346). -/
def applyTail (ix : Nat) (qn : Option Nat) (tail : Nat) (s : State) : State :=
  match getRing s ix qn with
  | none => badDoorbell ix s
  | some r => if tail ≥ sqSize r then badDoorbell ix s else modRing ix qn (fun r => { r with sqTail := tail }) s

/-- Applies a head write: held completions, then events, go out (R346, R351, R357). -/
def applyHead (ix : Nat) (qn : Option Nat) (head : Nat) (s : State) : State :=
  match getRing s ix qn with
  | none => badDoorbell ix s
  | some r =>
    if head ≥ 2 ^ r.cqLog2 then badDoorbell ix s
    else drainRing (r.held.length + 1) ix qn (modRing ix qn (fun r => { r with cqHead := head }) s)

/-- A doorbell write: captured while intake is held or the control domain dozes, which it wakes (R346, R392, R426). -/
def doorbell (ix : Nat) (qn : Option Nat) (head : Bool) (value : Nat) (s : State) : State :=
  if (findSluice s ix).isNone then s
  else if s.q.intakeHeld then
    { s with q := { s.q with captured := tabInsert s.q.captured (captureKey ix qn head) value } }
  else
    let s := { s with pwr := { s.pwr with controlDoze := false } }
    if head then applyHead ix qn value s else applyTail ix qn value s

/-- The captured doorbells reach SCH when intake resumes or the control domain wakes (R392, R426). -/
def releaseDoorbells (s : State) : State :=
  s.q.captured.foldl (fun s e =>
    let k := e.1 / 2
    let qn := if k % 512 = 256 then none else some (k % 512)
    if e.1 % 2 = 1 then applyHead (k / 512) qn e.2 s else applyTail (k / 512) qn e.2 s)
    { s with q := { s.q with captured := [] } }

/-! ### Fetching (R348 to R350) -/

/-- Commands outstanding of one sluice, and the limits of R350. -/
def intakePaused (s : State) (ix : Nat) : Bool :=
  decide ((s.q.cmds.filter fun c => srcSluice s c.src = some ix).length ≥ 4096) || decide (s.q.cmds.length ≥ 65536)

/-- The header position moves past entries, and the device's SQ head with it. -/
def movePosition (ix : Nat) (qn : Option Nat) (n : Nat) (s : State) : State :=
  modRing ix qn (fun r => { r with position := (r.position + n) % sqSize r, sqHead := (r.position + n) % sqSize r
                                   partialAt := none, partialWords := [] }) s

/-- Step 1: an entry with a wrong mark or at an orphan position is dropped and counted. -/
def dropOrphan (ix : Nat) (qn : Option Nat) (s : State) : State :=
  let s := modRing ix qn (fun r => { r with orphans := r.orphans.filter (· ≠ r.position) }) s
  let s := modSluice ix (fun sl => { sl with orphan := true, orphanCount := satAdd 32 sl.orphanCount 1 }) s
  movePosition ix qn 1 s

/-- Checks the fetched entries at the header position in turn; the words are those from the position onwards (R348). -/
def fetchEntries : Nat → Src → Nat → Option Nat → List Word → List HostByte → State → State
  | 0, _, _, _, _, _, s => s
  | fuel + 1, src, ix, qn, ws, host, s =>
    match getRing s ix qn with
    | none => s
    | some r =>
      if sqAvail r = 0 ∨ ws.length < 16 ∨ intakePaused s ix then s
      else if r.orphans.contains r.position || decide (hdrMark ws ≠ 0x5A) then
        fetchEntries fuel src ix qn (ws.drop 16) host (dropOrphan ix qn s)
      else
        let n := hdrEntries ws
        if sqAvail r < n then
          modRing ix qn (fun r => { r with partialAt := some r.position, partialWords := ws.take (16 * sqAvail r) }) s
        else if ws.length < 16 * n then s
        else
          fetchEntries fuel src ix qn (ws.drop (16 * n)) host
            (acceptItem ⟨src, ws.take (16 * n), host⟩ (movePosition ix qn n s))

/-- `ENTRY_FETCH`: a read of a submission ring returns entries from the header position onwards. -/
def entryFetch (port : Fin 17) (ld : Fin 16) (qp : Option (BitVec 8)) (ws : List Word) (host : List HostByte) (s : State) : State :=
  let ix := sluiceIx port ld
  let on := match qp with
    | none => (findSluice s ix).any (·.adminEnable)
    | some _ => (findSluice s ix).any fun sl => decide (sl.state ≠ .unmatched)
  if on && !s.q.intakeHeld then fetchEntries (ws.length / 16 + 1) (ringSrc port ld qp) ix (qpNat qp) ws host s else s

/-- The entries of a partial item are given up: the position moves to the tail and the rest of the item's positions are orphans (R349, R354). -/
def abandonPartial (ix : Nat) (qn : Option Nat) (s : State) : State :=
  modRing ix qn (fun r =>
    let rest := (List.range (hdrEntries r.partialWords - sqAvail r)).map fun i => (r.sqTail + i) % sqSize r
    { r with orphans := r.orphans ++ rest, position := r.sqTail, sqHead := r.sqTail, partialAt := none, partialWords := [] }) s

/-- Ends a partial item with a status (R349, R354). -/
def endPartial (src : Src) (ix : Nat) (qn : Option Nat) (st : Status) (s : State) : State :=
  match getRing s ix qn with
  | none => s
  | some r =>
    match r.partialAt with
    | none => s
    | some _ => answerIntake ⟨src, r.partialWords, []⟩ st false (abandonPartial ix qn s)

/-- `PARTIAL_ITEM_EXPIRY`: suspended while intake is held (R349). -/
def partialExpiry (port : Fin 17) (ld : Fin 16) (qp : Option (BitVec 8)) (s : State) : State :=
  let ix := sluiceIx port ld
  let qn := qpNat qp
  match getRing s ix qn with
  | none => s
  | some r =>
    if r.partialAt.isNone ∨ s.q.intakeHeld then s
    else modSluice ix (fun sl => { sl with staleCount := satAdd 32 sl.staleCount 1 })
      (endPartial (ringSrc port ld qp) ix qn .staleBurst s)

/-- The entries of a submission ring from its position to its tail, read from the ring window or from host memory, up to the
first that a read does not return. -/
def ringWords (s : State) (ix : Nat) (qn : Option Nat) (host : List HostByte) : List Word :=
  match findSluice s ix, getRing s ix qn with
  | some sl, some r =>
    let entry := fun i : Nat =>
      let base := r.sqBase + 64 * ((r.position + i) % sqSize r)
      if r.sqDev then some ((List.range 64).map fun j => tabGet sl.window 0 (base + j)) else hostBytes host sl.hid base 64
    (((List.range (sqAvail r)).map entry).takeWhile (·.isSome)).flatMap fun l => bytesToWords 16 (l.getD [])
  | _, _ => []

/-- Fetches a queue up to its current tail (R354, R356). -/
def fetchToTail (src : Src) (ix : Nat) (qn : Option Nat) (host : List HostByte) (s : State) : State :=
  let ws := ringWords s ix qn host
  fetchEntries (ws.length / 16 + 1) src ix qn ws host s

/-! ### Interrupts -/

/-- `CQ_COALESCE_TIMEOUT` (R352). -/
def coalesceTimeout (port : Fin 17) (ld : Fin 16) (qp : Nat) (s : State) : State :=
  let ix := sluiceIx port ld
  match getRing s ix (some qp) with
  | none => s
  | some r =>
    if r.irqEn && decide (r.aggTime ≠ 0) && decide (r.uncovered ≠ 0) then
      sendVector ix r.vector (modRing ix (some qp) (fun r => { r with uncovered := 0 }) s)
    else s

/-- `MSIX_UNMASK`: a pending vector is sent (R352). -/
def unmaskVector (port : Fin 17) (ld : Fin 16) (vector : Nat) (s : State) : State :=
  let ix := sluiceIx port ld
  match findSluice s ix with
  | none => s
  | some sl =>
    let pending := sl.msixPending.contains vector
    let s := modSluice ix (fun sl => { sl with
      unmasked := if sl.unmasked.contains vector then sl.unmasked else sl.unmasked ++ [vector]
      msixPending := sl.msixPending.filter (· ≠ vector) }) s
    if pending then emit (.msix ix vector) s else s

/-! ### The admin queue (R342) -/

/-- [DEDUCED, log 39] -/
def adminEnableOp (port : Fin 17) (ld : Fin 16) (s : State) : State :=
  let ix := sluiceIx port ld
  match findSluice s ix with
  | none => s
  | some sl =>
    if sl.adminEnable then s
    else drainEvents 66 ix (modSluice ix (fun sl => { sl with
      adminEnable := true, adminReady := true
      admin := { sl.admin with position := 0, sqHead := 0, sqTail := 0, cqHead := 0, cqTail := 0, phase := true, uncovered := 0
                               orphans := [], partialAt := none, partialWords := [], irqEn := true, aggCount := 0 } }) s)

def adminDisableOp (port : Fin 17) (ld : Fin 16) (s : State) : State :=
  let ix := sluiceIx port ld
  match findSluice s ix with
  | none => s
  | some sl =>
    if !sl.adminEnable then s
    else
      let busy := s.q.cmds.any fun c => decide (c.src = .admin port ld)
      modSluice ix (fun sl => { sl with adminEnable := false, adminReady := busy
                                        cqHoldCount := satAdd 32 sl.cqHoldCount sl.admin.held.length
                                        admin := { sl.admin with held := [], partialAt := none, partialWords := [] } }) s

/-! ### Dispatch (R347) -/

/-- Of two fetched commands, the one SCH dispatches first: the higher PRIO, then the earlier fetched. -/
def before (a b : Cmd) : Bool :=
  decide (hdrPrio a.words > hdrPrio b.words) || (decide (hdrPrio a.words = hdrPrio b.words) && decide (a.serial < b.serial))

/-- Opcodes whose command brings findings of SEC with it: it begins with its own row (R383, R392, R460). -/
def ownRow (op : Nat) : Bool := [0xE0, 0xE1, 0xF2].contains op

/-- The next command SCH dispatches, if any is ready. -/
def nextDispatch (s : State) : Option Cmd :=
  (s.q.cmds.filter fun c => c.waiting && dispatchable s c && !ownRow c.opcode).foldl (fun best c =>
    match best with
    | none => some c
    | some b => some (if before c b then c else b)) none

end Sys2Proof.Machine
end

