-- ==== Sys2Proof/Machine/Faults.lean ====
section
/-!
DEFINITION. Fault containment (chapter 22): cores, clusters, stacks, ports, dies and levee links (R16, R437 to R440), and the
watchdogs of the firmware cores (R381).
-/

namespace Sys2Proof.Machine

/-! ### Cores (Table 22.1) -/

/-- Work of a unit goes: its tiles and accesses, its segment caches. -/
def dropUnit (unit : Nat) (s : State) : State :=
  let mine := (s.eng.tiles.filter fun e => e.2.unit = unit).map (·.1)
  { s with eng := { s.eng with tiles := tabFilter s.eng.tiles (fun _ t => decide (t.unit ≠ unit))
                               waiting := s.eng.waiting.filter fun w => w.unit ≠ unit
                               misses := s.eng.misses.filter fun m => m.unit ≠ unit
                               segCaches := tabFilter s.eng.segCaches fun k _ => decide (k / 16 ≠ unit)
                               lastTcx := tabFilter s.eng.lastTcx fun k _ => decide (k / 16 ≠ unit) }
           tier := { s.tier with thReads := tabFilter s.tier.thReads fun k _ => !mine.contains k } }

/-- Commands with tiles or accesses on a unit. -/
def unitCommands (s : State) (unit : Nat) : List Nat :=
  (((s.eng.tiles.filter fun e => e.2.unit = unit).map (·.2.serial)) ++ ((s.eng.waiting.filter fun w => w.unit = unit).map (·.serial))).dedup

def migratable (c : Cmd) : Bool := [0xA0, 0x80, 0x81, 0x84, 0x86].contains c.opcode

/-- A kernel that still has items on a core with nowhere to move them. -/
def strandedOn (s : State) (core serial : Nat) : Bool :=
  match tabFind s.eng.placements serial with
  | none => false
  | some pl => !pl.migrating && pl.begun &&
      (List.range (pl.counts.getD pl.phase 0)).any fun i => !(itemAt pl i).accepted && decide (itemCore pl i = core)

/-- Work of a quarantined compute core: migratable items move, every other command with work on it completes `STATE_LOST`. -/
def leaveCore (n : Nat) (s : State) : State :=
  let mine := unitCommands s n
  let s := migrateCores [n] s
  let lost := (s.q.cmds.filter fun c => (mine.contains c.serial && !migratable c) || strandedOn s n c.serial).map (·.serial)
  let s := lost.foldl (fun s k => loseState k s) s
  { dropUnit n s with eng := { (dropUnit n s).eng with stores := tabErase s.eng.stores n } }

/-- UNIT of a quarantine notice: compute core n, 0x100 + crown core, 0x200 + bit of CLUSTER_Q. [DEDUCED, log 30] -/
def quarantineNotice (unit p : Nat) (s : State) : State := notifyFm { kind := 0x0E, polder := p, unit := unit } 0 s

/-- The polder that holds a slice. -/
def holderOf (s : State) (has : Polder → Bool) : Nat := ((s.polders.find? fun e => has e.2).map (·.1)).getD 64

/-- A compute core is quarantined. -/
def quarantineCore (n : Nat) (s : State) : State :=
  if s.flt.coreQ.getLsbD n then s
  else
    let p := holderOf s fun x => x.cores.getLsbD n
    let s := { s with flt := { s.flt with coreQ := s.flt.coreQ ||| BitVec.ofNat 128 (2 ^ n) } }
    quarantineNotice n p (leaveCore n s)

/-- Every tray line that a crown core's L2 holds OWNED is poisoned at its home, and it leaves the sharers of the others. -/
def dropL2 (core : Nat) (s : State) : State :=
  let slots := s.coh.sets.flatMap fun e => (e.2.filter fun d => d.crown && d.ids.contains core).map fun d => (lineOfSlot e.1 d, d)
  let s := slots.foldl (fun s e =>
    if e.2.state = .owned then removeSlot e.1 (poisonLine e.1 .deadHost s)
    else if e.2.ids.filter (· ≠ core) = [] then removeSlot e.1 s
    else refreshSlot e.1 { e.2 with ids := e.2.ids.filter (· ≠ core) } s) s
  { s with eng := { s.eng with l2Poison := s.eng.l2Poison.filter fun k => k / 2 ^ 44 ≠ core } }

/-- A crown core is quarantined: its run stops with cause 3. -/
def quarantineCrown (n : Nat) (s : State) : State :=
  if s.flt.crownQ.getLsbD n then s
  else
    let p := holderOf s fun x => x.crown.getLsbD n
    let s := { s with flt := { s.flt with crownQ := s.flt.crownQ ||| BitVec.ofNat 32 (2 ^ n) } }
    let runs := (s.eng.runs.filter fun e => e.2.cores.contains n).map (·.1)
    let s := runs.foldl (fun s r => trapRun r 3 s) s
    quarantineNotice (0x100 + n) p (dropUnit (0xC0 + n) (dropL2 n s))

/-- `COMPUTE_CORE_FAULT`. -/
def coreFault (core : CoreRef) (s : State) : State :=
  match core with
  | .compute n => quarantineCore n.val s
  | .crown n => quarantineCrown n.val s

/-- `TILE_PROGRESS_TIMEOUT`: a core with a tile makes no progress for 10 ms. -/
def tileStuck (n : Nat) (s : State) : State := if unitCommands s n = [] then s else quarantineCore n s

/-- A cluster control core fails: its cores are quarantined, or the 16 channels of its channel cluster become read-only.
Clusters: compute 0 to 15, crown 16 to 19, channel 20 to 23, as the bits of CLUSTER_Q. -/
def quarantineCluster (bit : Nat) (s : State) : State :=
  if s.flt.clusterQ.getLsbD bit then s
  else
    let s := { s with flt := { s.flt with clusterQ := s.flt.clusterQ ||| BitVec.ofNat 24 (2 ^ bit) } }
    let s := quarantineNotice (0x200 + bit) 64 s
    if bit < 16 then (List.range 8).foldl (fun s i => quarantineCore (8 * bit + i) s) s
    else if bit < 20 then (List.range 8).foldl (fun s i => quarantineCrown (8 * (bit - 16) + i) s) s
    else (List.range 16).foldl (fun s i => if (nandOf s (16 * (bit - 20) + i)).present then nandReadOnly (16 * (bit - 20) + i) false s else s) s

/-! ### Stacks, channel cores, ports -/

/-- `HBM_STACK_FAULT`: all 32 pseudo-channels of the stack fail. -/
def hbmStackFails (stack : Nat) (s : State) : State :=
  (List.range 32).foldl (fun s i => channelFailed (.hbm (Fin.ofNat 256 (32 * stack + i))) s) s

/-- A port fails with its weir attachment, or with its die. -/
def portFails (p : Nat) (s : State) : State :=
  if s.flt.portFailed.getLsbD p then s
  else portOff p { s with flt := { s.flt with portFailed := s.flt.portFailed ||| BitVec.ofNat 17 (2 ^ p) } }

/-! ### Dies (R439, Table 22.2) -/

def leveeEnds : List (Nat × Nat) := [(0, 1), (0, 2), (0, 3), (1, 2), (1, 3), (2, 3)]

def leveeOf (s : State) (k : Nat) : Levee := tabGet s.flt.levees {} k

/-- Index of the link between two dies. -/
def leveeIx (a b : Nat) : Nat := leveeEnds.findIdx (· = (min a b, max a b))

def dieLive (s : State) (d : Nat) : Bool := !s.flt.dieFailed.getLsbD d

/-- Two live dies are joined by a link that is not down. -/
def leveeLive (s : State) (a b : Nat) : Bool := dieLive s a && dieLive s b && !(leveeOf s (leveeIx a b)).down

def linksDown (s : State) (d : Nat) : Nat :=
  ((List.range 6).filter fun k => (leveeOf s k).down && (decide ((leveeEnds.getD k (0, 0)).1 = d) || decide ((leveeEnds.getD k (0, 0)).2 = d))).length

/-- A pair of dies has a path of at most two live links. -/
def pairJoined (s : State) (a b : Nat) : Bool :=
  leveeLive s a b || (List.range 4).any fun c => c ≠ a && c ≠ b && leveeLive s a c && leveeLive s c b

/-- The die that the state of the levees fails, if any: one with every link down, or the end of a pair without a path that has
more links down, the higher-numbered on a tie. -/
def leveeVictim (s : State) : Option Nat :=
  match (List.range 4).find? fun d => dieLive s d && decide (linksDown s d = 3) with
  | some d => some d
  | none =>
    (leveeEnds.find? fun e => dieLive s e.1 && dieLive s e.2 && !pairJoined s e.1 e.2).map fun e =>
      if linksDown s e.1 > linksDown s e.2 then e.1 else e.2

/-- Die that homes the arrival counters of a TCX: t mod 4, or once that has failed the lowest-numbered live die. [DEDUCED, log 57] -/
def counterDie (s : State) (t : Nat) : Nat := if dieLive s (t % 4) then t % 4 else 0

/-- Die of the copy unit that gathers a collective: that of the polder's lowest pseudo-channel (R201). -/
def groupDie (s : State) (polder : Nat) : Nat := ((maskBits 256 (polderOf s polder).hbm.toNat).headD 0) / 64

/-- The directory slice and the weir of a die are lost: its slots, its flows' snoops, its queued frames. -/
def loseSlice (d : Nat) (s : State) : State :=
  let flows := s.coh.flows.map fun e => (e.1, if homeDie s (e.1 * 64) = d then { e.2 with snoops := [], medium := false, probe := false } else e.2)
  { s with coh := { s.coh with sets := tabFilter s.coh.sets (fun k _ => decide (k / 2 ^ 20 ≠ d))
                               flows := flows
                               lost := s.coh.lost.filter fun k => k / 2 ^ 24 ≠ d }
           weir := { s.weir with queues := tabFilter s.weir.queues (fun k _ => decide (k / 136 ≠ d))
                                 held := s.weir.held.filter fun h => h.input / 33 ≠ d } }

/-- Commands whose work lies on a failed die: copies and collectives on its copy unit, waits on its counters. -/
def dieCommands (s : State) (d : Nat) : List Nat :=
  (s.q.cmds.filter fun c => (decide (c.opcode = 0x40 ∧ c.phase ≠ 0) && decide (copyDie s c = d))
    || (isCollective c.opcode && (groupOfCmd s c.serial).isSome && decide (groupDie s c.polder = d))
    || (decide (c.opcode = 0x42 ∧ c.phase ≠ 0) && decide (counterDie s c.tcx = d))).map (·.serial)

/-- The SCH shadow is lost; when SCH itself ran there, nothing takes its place and intake stays held. [DEDUCED, log 57] -/
def loseShadow (s : State) : State :=
  { s with fw := { s.fw with shadowLost := true }, q := { s.q with intakeHeld := s.q.intakeHeld || s.fw.onShadow } }

/-- Table 22.2 for one die; the failure of LD0 resets the device. [DEDUCED, log 57] -/
def dieFails (d : Nat) (s : State) : State :=
  if !dieLive s d ∨ !s.fw.started then s
  else if d = 0 then deviceReset 6 true s
  else
    let lost := dieCommands s d
    let counters := (s.tcxs.map (·.1)).filter fun t => counterDie s t = d
    let s := { s with flt := { s.flt with dieFailed := s.flt.dieFailed ||| BitVec.ofNat 4 (2 ^ d) } }
    let s := notifyFm { kind := 0x0F, unit := d } 0 s
    let s := lost.foldl (fun s k => loseState k s) s
    let s := counters.foldl (fun s t => modTcx t (fun x => { x with arrival := [] }) s) s
    let s := (List.range 32).foldl (fun s i => quarantineCore (32 * d + i) s) s
    let s := (List.range 8).foldl (fun s i => quarantineCrown (8 * d + i) s) s
    let s := (List.range 6).foldl (fun s i => if s.tray.ddrPresent.getLsbD (6 * d + i) then channelFailed (.ddr (Fin.ofNat 24 (6 * d + i))) s else s) s
    let s := (List.range 64).foldl (fun s i => channelFailed (.hbm (Fin.ofNat 256 (64 * d + i))) s) s
    let s := (List.range 16).foldl (fun s i => nandFail (16 * d + i) s) s
    let s := loseSlice d s
    let s := (List.range 4).foldl (fun s i => portFails (4 * d + i) s) s
    if d = 2 then loseShadow s else s

/-- Dies that the levees fail, one after another (R16, R439). -/
def checkDies : Nat → State → State
  | 0, s => s
  | fuel + 1, s => match leveeVictim s with
    | none => s
    | some d => checkDies fuel (dieFails d s)

/-- A die fails, and with it any die that is cut off. -/
def failDie (d : Nat) (s : State) : State := checkDies 3 (dieFails d s)

/-- Lost directory ways that four of a set bring the die down (R438). -/
def loseSlots (line : Nat) (ways : List (Fin 16)) (s : State) : State :=
  if ways = [] then s
  else
    let die := homeDie s (line * 64)
    let (s, dead) := loseWays line ways s
    if dead then failDie die s else s

/-! ### Levee links (R16) -/

def modLevee (k : Nat) (f : Levee → Levee) (s : State) : State :=
  { s with flt := { s.flt with levees := tabModify s.flt.levees {} k f } }

/-- A link is marked down: its traffic detours, the FM is notified, and dies that are cut off fail. -/
def leveeDown (k : Nat) (s : State) : State :=
  let s := modLevee k (fun x => { x with down := true, retraining := false, detours := x.detours + 1 }) s
  let s := writeEvent 0x01 k 0 64 0 3 s
  checkDies 4 (notifyFm { kind := 0x07, unit := k } 0 s)

def dirKey (up : Bool) : Nat := if up then 1 else 0

/-- `LEVEE_FRAME_RECEIVED`: accepted only in sequence and with a good CRC; a discarded frame is replayed. -/
def leveeFrame (k : Nat) (up : Bool) (seq : Nat) (crcOk : Bool) (s : State) : State :=
  let x := leveeOf s k
  if x.down then s
  else if crcOk && decide (seq = tabGet x.nextSeq 0 (dirKey up)) then
    emit (.levee k true) (modLevee k (fun x => { x with nextSeq := tabPut x.nextSeq 0 (dirKey up) ((seq + 1) % 2 ^ 16) }) s)
  else emit (.levee k false) (if crcOk then s else modLevee k (fun x => { x with discarded := x.discarded + 1 }) s)

/-- `LEVEE_LANE_FAILURE`: the lane waits for a spare, and a retrain begins. -/
def leveeLane (k : Nat) (up : Bool) (group : Nat) (s : State) : State :=
  let g := 8 * dirKey up + group
  if (leveeOf s k).down ∨ (leveeOf s k).groupsOff.contains g then s
  else
    let s := if (leveeOf s k).retraining then s
      else writeEvent 0x01 k 0 64 0 2 (modLevee k (fun x => { x with retraining := true, retrains := x.retrains + 1 }) s)
    modLevee k (fun x => { x with pendingLanes := tabModify x.pendingLanes 0 g (· + 1) }) s

/-- One lane of a group is repaired from its two spares, or switches its group off. -/
def repairLane (k g : Nat) (s : State) : State :=
  let x := leveeOf s k
  if x.groupsOff.contains g then s
  else if tabGet x.failedLanes 0 g < 2 then
    writeEvent 0x01 k 0 64 0 0 (modLevee k (fun x => { x with failedLanes := tabModify x.failedLanes 0 g (· + 1), repairs := x.repairs + 1 }) s)
  else
    writeEvent 0x01 k 0 64 0 1 (modLevee k (fun x => { x with failedLanes := tabModify x.failedLanes 0 g (· + 1)
                                                              groupsOff := x.groupsOff ++ [g], losses := x.losses + 1 }) s)

/-- `LEVEE_RETRAIN_END`: the spares are applied; a link that cannot retrain, or keeps fewer than four lane groups in a
direction, is marked down. -/
def leveeRetrained (k : Nat) (ok : Bool) (s : State) : State :=
  let x := leveeOf s k
  if !x.retraining then s
  else if !ok then leveeDown k s
  else
    let lanes := x.pendingLanes.flatMap fun e => List.replicate e.2 e.1
    let s := lanes.foldl (fun s g => repairLane k g s) s
    let s := modLevee k (fun x => { x with retraining := false, pendingLanes := [] }) s
    let off := (leveeOf s k).groupsOff
    if (off.filter (· < 8)).length > 4 ∨ (off.filter (8 ≤ ·)).length > 4 then leveeDown k s else s

/-! ### Watchdogs (R381) -/

/-- The shadow takes over SCH's role from its replica; with no shadow intake stays held. [DEDUCED, log 30] [DEDUCED, log 57] -/
def takeover (s : State) : State :=
  if s.fw.onShadow then { s with q := { s.q with intakeHeld := true } }
  else if s.fw.shadowLost then { s with q := { s.q with intakeHeld := true } }
  else
    let s := { s with fw := { s.fw with onShadow := true, shadowLost := true, halted := s.fw.halted &&& ~~~(4 : BitVec 28) } }
    let s := notifyFm { kind := 0x10, unit := 2 } 0 s
    if s.fw.activating.isSome then s else releaseDoorbells s

/-- `SCH_HEARTBEAT_MISS`. -/
def heartbeatMiss (s : State) : State :=
  if !s.fw.started ∨ s.fw.onShadow ∨ s.fw.shadowLost ∨ s.fw.halted.getLsbD 2 ∨ s.fw.halted.getLsbD 3 then s else takeover s

/-- `SHADOW_HEARTBEAT_MISS`: SCH goes on without a shadow. -/
def shadowMiss (s : State) : State :=
  if !s.fw.started ∨ s.fw.onShadow ∨ s.fw.halted.getLsbD 3 then s else { s with fw := { s.fw with shadowLost := true } }

/-- `WATCHDOG_EXPIRY` of a firmware core by its index (R461); a halted core's watchdog is suspended (R464). [DEDUCED, log 57] -/
def watchdog (core : Nat) (s : State) : State :=
  if !s.pins.terpUp ∨ s.fw.halted.getLsbD core then s
  else if core = 0 then deviceReset 4 true s
  else if !s.fw.started then s
  else if core = 1 then deviceReset Config.secResetDetail.toNat true s
  else if core = 2 then (if s.fw.onShadow then s else takeover s)
  else if core = 3 then (if s.fw.onShadow then takeover s else shadowMiss s)
  else if core < 20 then quarantineCluster (core - 4) s
  else if core < 24 then quarantineCluster (20 + (core - 20)) s
  else quarantineCluster (16 + (core - 24)) s

/-- `DIE_PLL_LOCK_LOSS` and `SRAM_STACK_FAILURE` (R439). -/
def dieLost (d : Nat) (s : State) : State := failDie d s

/-- `CHANNEL_CORE_FAULT`. -/
def channelCoreFails (ch : Nat) (s : State) : State := nandFail ch s

end Sys2Proof.Machine
end

