-- ==== Sys2Proof/Machine/Weir.lean ====
section
/-!
DEFINITION. The weir switch core (chapter 9): the checks of a frame, policing, random early drop, admission to the shared
buffer, the order of delivery, and the weir's counters.
-/

namespace Sys2Proof.Machine

/-! ### Attachments and routes (Table 9.1, R15, R16) -/

/-- Endpoint of an attachment. -/
def endpointOf (att : Nat) : Nat :=
  if att ≤ 5 then att else if att ≤ 14 then 6 + (att - 6) / 3 else if att ≤ 25 then 9 else att - 16

/-- Attachment 32 is on LD0 only. -/
def attExists (die att : Nat) : Bool := decide (att ≤ 31) || decide (die = 0 ∧ att = 32)

def otherDies (die : Nat) : List Nat := (List.range 4).filter (· ≠ die)

/-- The die that a frame for another die crosses to: that die, or over a link that is down the other live die. -/
def nextDie (s : State) (die dst : Nat) : Nat :=
  if (leveeOf s (leveeIx die dst)).down then ((otherDies die).find? fun c => c ≠ dst && dieLive s c).getD dst else dst

/-- Endpoint at a die to which a frame goes there. -/
def routeEp (s : State) (die : Nat) (f : Frame) : Nat :=
  if f.dstDie.toNat = die then f.dstEp.toNat else 6 + (otherDies die).findIdx (· = nextDie s die f.dstDie.toNat)

/-- Flow of a frame at a die (R175). -/
def flowKey (die src dst cls : Nat) : Nat := ((die * 17 + src) * 17 + dst) * 8 + cls

/-! ### The checks (R171) -/

/-- Kinds that a class carries (Table 9.3). -/
def classKinds (cls : Nat) : List Nat :=
  match cls with
  | 0 => [0x4, 0x5, 0xB]
  | 1 => [0x6, 0x7]
  | 2 | 3 => [0x0, 0x1, 0x2, 0x3]
  | 4 => [0x0, 0x1, 0x2, 0x3, 0x9]
  | 5 => [0x8, 0xC]
  | 6 => [0x9]
  | _ => [0xA]

/-- Every check of R171. [DEDUCED, log 49] -/
def frameOk (f : Frame) (crcOk : Bool) (received : Nat) : Bool :=
  crcOk && decide (f.len.toNat = received ∧ received ≤ 64) && decide (f.dstEp.toNat < (if f.dstDie = 0 then 17 else 16))
    && (classKinds f.cls.toNat).contains f.kind.toNat && decide (f.colour ≠ 3) && !f.reservedSet && decide (f.polder.toNat ≤ 64)

/-- An attachment fails after eight consecutive failed replays (R171, R439, Table 22.1). [DEDUCED, log 30] [DEDUCED, log 49] -/
def attachmentFails (die att : Nat) (s : State) : State :=
  let key := die * 33 + att
  let s := notifyFm { kind := 0x12, unit := key } 0 { s with weir := { s.weir with failedAtt := s.weir.failedAtt ++ [key] } }
  if 28 ≤ att then portFails (if att = 32 then 16 else 4 * die + (att - 28)) s
  else if 6 ≤ att ∧ att ≤ 26 then failDie die s
  else s

/-- A frame that fails a check is discarded and counted; its sender replays it. -/
def discardFrame (die att : Nat) (s : State) : State :=
  let key := die * 33 + att
  let n := tabGet s.weir.replays 0 key + 1
  let s := { s with weir := { s.weir with discards := s.weir.discards + 1, replays := tabPut s.weir.replays 0 key n } }
  if n ≥ 9 then attachmentFails die att s else s

/-! ### Policing (R180) -/

/-- Buckets after the ticks since they were last touched, and the colour of a frame (RFC 2698, colour-blind). -/
def policeWith (now size : Nat) (p : Policer) : BitVec 2 × Policer :=
  if !p.enable then (0, p)
  else
    let tc := min (p.cbs * 1000) (p.tc + 40 * p.cir * (now - p.last))
    let tp := min (p.pbs * 1000) (p.tp + 40 * p.pir * (now - p.last))
    if tp < size * 1000 then (2, { p with tc := tc, tp := tp, last := now })
    else if tc < size * 1000 then (1, { p with tc := tc, tp := tp - size * 1000, last := now })
    else (0, { p with tc := tc - size * 1000, tp := tp - size * 1000, last := now })

def frameBytes (f : Frame) : Nat := 32 + 8 * f.len.toNat

/-- A frame is policed once, at its entry weir; a frame without a polder is green. [DEDUCED, log 49] -/
def policeFrame (die att : Nat) (f : Frame) (s : State) : Frame × State :=
  if 6 ≤ att ∧ att ≤ 14 then (f, s)
  else
    let key := 4 * f.policer.toNat + die
    let (colour, s) :=
      if f.polder = 64 then ((0 : BitVec 2), s)
      else
        let (c, p) := policeWith s.time (frameBytes f) (tabGet s.weir.policers {} key)
        (c, { s with weir := { s.weir with policers := tabPut s.weir.policers {} key p } })
    let s := if f.host then { s with weir := { s.weir with lastColour := tabPut s.weir.lastColour 0 f.hid.toNat colour } } else s
    ({ f with colour := colour }, s)

/-! ### Random early drop (R182) -/

def redOf (s : State) (colour : BitVec 2) : RedReg := if colour = 0 then s.weir.redG else if colour = 1 then s.weir.redY else s.weir.redR

/-- Occupancy of a queue in cells, reserved and shared. -/
def queueCells (s : State) (key : Nat) : Nat := cellSum (tabGet s.weir.queues [] key) fun _ => true

/-- Whether a draw drops a frame at an average in 1/512 cells. [DESIGN CHOICE, log 22] -/
def redDrops (r : RedReg) (average : Nat) (draw : BitVec 32) : Bool :=
  let lo := r.min.toNat * 64 * 512
  let hi := r.max.toNat * 64 * 512
  if average < lo then false
  else if average < hi then decide (draw.toNat * 256 * (hi - lo) < r.pmax.toNat * (average - lo) * 2 ^ 32)
  else true

/-- The average takes in the occupancy, and the draw is made. [DESIGN CHOICE, log 22] -/
def redTest (key : Nat) (f : Frame) (s : State) : Bool × State :=
  let a := tabGet s.weir.average 0 key
  let a := a + queueCells s key - a / 512
  let s := drawFree { s with weir := { s.weir with average := tabPut s.weir.average 0 key a } }
  (redDrops (redOf s f.colour) a (Config.redDraw (s.free - 1)), s)

/-! ### Sequence (R175) -/

/-- Passes over the dropped frames that follow in a flow. [DEDUCED, log 49] -/
def passSkipped : Nat → List Nat → Nat → List Nat × Nat
  | 0, l, n => (l, n)
  | fuel + 1, l, n => if l.contains n then passSkipped fuel (l.filter (· ≠ n)) ((n + 1) % 65536) else (l, n)

/-- The flow goes on with the frame after the one of this SEQ, when its turn has come; a later one is remembered. -/
def passSeq (flow seq : Nat) (s : State) : State :=
  let skipped := tabGet s.weir.skipped [] flow
  if (tabGet s.weir.seqs 0 flow).toNat = seq then
    let (rest, n) := passSkipped skipped.length skipped ((seq + 1) % 65536)
    { s with weir := { s.weir with seqs := tabPut s.weir.seqs 0 flow (BitVec.ofNat 16 n), skipped := tabPut s.weir.skipped [] flow rest } }
  else { s with weir := { s.weir with skipped := tabPut s.weir.skipped [] flow (skipped ++ [seq]) } }

/-! ### Admission (R177, R178) -/

/-- A counter of the polder of a frame (Table 9.10). -/
def bumpFrame (f : Frame) (offset n : Nat) (s : State) : State := if f.polder.toNat < 64 then bumpWeir f.polder.toNat offset n s else s

/-- Where a frame of `f` for a queue finds room: in the reservation (`false`), in the shared pool (`true`), or nowhere. -/
def admission (s : State) (die key : Nat) (f : Frame) : Option Bool :=
  let k := cellsOf f
  let q := tabGet s.weir.queues [] key
  let cap := polderCap die
  let limit := if f.colour = 0 then cap else if f.colour = 1 then cap * 3 / 4 else cap / 2
  let free := poolCells die - cellSum (dieFrames s die) (·.shared)
  if cellSum q (fun x => !x.shared) + k ≤ 256 then some false
  else if k ≤ free && decide (polderCells s die f.polder.toNat + k ≤ limit) && decide (cellSum q (·.shared) + k ≤ 2 * free) then some true
  else none

/-- Classes that an endpoint serves before a class or with it (R173, R179). -/
def classesAhead (cls : Nat) : List Nat := if cls = 1 then [1] else if cls = 0 then [1, 0] else [1, 0, cls]

/-- A frame enters frame memory, on the express path when nothing is queued ahead of it (R173). -/
def admitFrame (die input : Nat) (f : Frame) (shared : Bool) (s : State) : State :=
  let dst := routeEp s die f
  let key := queueKey die dst f.cls.toNat
  let express := (classesAhead f.cls.toNat).all fun c => tabGet s.weir.queues [] (queueKey die dst c) = []
  let s := bumpFrame f (if f.colour = 0 then 0x00 else if f.colour = 1 then 0x08 else 0x10) (frameBytes f) s
  let s := bumpFrame f (if express then 0x18 else 0x20) 1 s
  let entry : QFrame := { frame := f, cells := cellsOf f, shared := shared, express := express, input := input }
  { s with weir := { s.weir with queues := tabModify s.weir.queues [] key fun l => l ++ [entry] } }

/-- A frame of class 6 or 7 is dropped, early or for want of buffer space; the source of a class 6 frame is told (R172, R184). -/
def dropFrame (die input : Nat) (f : Frame) (early : Bool) (s : State) : State :=
  let s := passSeq (flowKey die (endpointOf (input % 33)) (routeEp s die f) f.cls.toNat) f.seq.toNat s
  if f.cls = 6 then emit (.dropNotice f) (bumpFrame f (if early then 0x38 else 0x40) 1 s)
  else bumpFrame f 0x48 1 { s with weir := { s.weir with lostSnaps := tabModify s.weir.lostSnaps 0 f.tcx.toNat fun n => satAdd 64 n 1 } }

/-- The flow of a frame is held at its source (R178). -/
def flowHeld (s : State) (die input : Nat) (f : Frame) : Bool :=
  s.weir.held.any fun h => decide (h.input / 33 = die ∧ endpointOf (h.input % 33) = endpointOf (input % 33) ∧ h.frame.cls = f.cls)
    && decide (routeEp s die h.frame = routeEp s die f)

/-- A frame is held at its input (R178). -/
def holdFrame (input : Nat) (f : Frame) (s : State) : State :=
  bumpFrame f 0x28 1 { s with weir := { s.weir with held := s.weir.held ++ [{ frame := f, input := input, since := s.time }] } }

/-- `WEIR_FRAME_ARRIVAL`. -/
def weirArrival (die att : Nat) (f : Frame) (crcOk : Bool) (received : Nat) (s : State) : State :=
  let input := die * 33 + att
  if !s.fw.started || !dieLive s die || !attExists die att || s.weir.failedAtt.contains input then s
  else if !frameOk f crcOk received then discardFrame die att s
  else
    let s := { s with weir := { s.weir with replays := tabErase s.weir.replays input } }
    let (f, s) := policeFrame die att f s
    let key := queueKey die (routeEp s die f) f.cls.toNat
    if f.cls.toNat < 6 then
      if flowHeld s die input f then holdFrame input f s
      else match admission s die key f with
        | some shared => admitFrame die input f shared s
        | none => holdFrame input f s
    else
      let (drops, s) := redTest key f s
      if drops then dropFrame die input f true s
      else match admission s die key f with
        | some shared => admitFrame die input f shared s
        | none => dropFrame die input f false s

/-- Tries to admit held frames in order, each only when no earlier one of its flow stays held. -/
def retryHeld (die : Nat) : List HeldFrame → List HeldFrame → State → State
  | [], _, s => s
  | h :: rest, kept, s =>
    let blocked := kept.any fun g => g.frame.cls = h.frame.cls && decide (routeEp s die g.frame = routeEp s die h.frame)
    match if blocked then none else admission s die (queueKey die (routeEp s die h.frame) h.frame.cls.toNat) h.frame with
    | none => retryHeld die rest (kept ++ [h]) s
    | some shared =>
      let s := { s with weir := { s.weir with held := s.weir.held.erase h } }
      retryHeld die rest kept (admitFrame die h.input h.frame shared (bumpFrame h.frame 0x30 (40 * (s.time - h.since)) s))

/-- `FRAME_ADMIT_RETRY`: the held frames of an attachment, classes 0 and 1 first (R178). -/
def weirRetry (die att : Nat) (s : State) : State :=
  let mine := s.weir.held.filter fun h => h.input = die * 33 + att
  retryHeld die ((mine.filter fun h => decide (h.frame.cls.toNat ≤ 1)) ++ mine.filter fun h => decide (2 ≤ h.frame.cls.toNat)) [] s

/-! ### Delivery (R175, R179, R183) -/

/-- The next frame of its flow (R175). -/
def isNext (s : State) (die dst : Nat) (q : QFrame) : Bool :=
  tabGet s.weir.seqs 0 (flowKey die (endpointOf (q.input % 33)) dst q.frame.cls.toNat) = q.frame.seq

/-- A polder that holds a quarter of the port of a host endpoint (R24). [DEDUCED, log 49] -/
def holdsQuarter (s : State) (die ep : Nat) (q : QFrame) : Bool :=
  let port := if ep = 16 then 16 else 4 * die + (ep - 12)
  decide (q.frame.polder.toNat < 64) && (List.range 4).any fun i => (polderOf s q.frame.polder.toNat).quarters.getLsbD (4 * port + i)

/-- The frame of a queue that its output serves next: at a host port, one of a polder with a quarter of the port first. -/
def queueHead (s : State) (die ep cls : Nat) : Option QFrame :=
  let ready := (tabGet s.weir.queues [] (queueKey die ep cls)).filter (isNext s die ep)
  match if 12 ≤ ep then ready.find? (holdsQuarter s die ep) else none with
  | some q => some q
  | none => ready.head?

/-- Quanta of the deficit round robin in frames. -/
def quantum (cls : Nat) : Nat := match cls with | 2 | 3 => 8 | 4 => 4 | 5 => 2 | _ => 1

/-- The class that an output serves next, its deficit counted (R179). [DEDUCED, log 49] -/
def chooseClass (die ep : Nat) (s : State) : Option (Nat × State) :=
  if (queueHead s die ep 1).isSome then some (1, s)
  else if (queueHead s die ep 0).isSome then some (0, s)
  else
    let ready := [2, 3, 4, 5, 6, 7].filter fun c => (queueHead s die ep c).isSome
    let spend := fun (c : Nat) (s : State) => (c, { s with weir := { s.weir with deficit := tabModify s.weir.deficit 0 (queueKey die ep c) (· - 1) } })
    match ready.find? fun c => tabGet s.weir.deficit 0 (queueKey die ep c) ≠ 0 with
    | some c => some (spend c s)
    | none =>
      let refill := ready.foldl (fun t c => tabPut t 0 (queueKey die ep c) (quantum c)) s.weir.deficit
      ready.head?.map fun c => spend c { s with weir := { s.weir with deficit := refill } }

/-- A frame leaves its queue; an emptied queue keeps no deficit. -/
def takeFrame (die ep : Nat) (q : QFrame) (s : State) : State :=
  let key := queueKey die ep q.frame.cls.toNat
  let rest := (tabGet s.weir.queues [] key).erase q
  let s := passSeq (flowKey die (endpointOf (q.input % 33)) ep q.frame.cls.toNat) q.frame.seq.toNat s
  { s with weir := { s.weir with queues := tabPut s.weir.queues [] key rest
                                 deficit := if rest = [] then tabErase s.weir.deficit key else s.weir.deficit } }

/-- The levee link of a levee endpoint. -/
def linkOfEp (die ep : Nat) : Option Nat := if 6 ≤ ep ∧ ep ≤ 8 then some (leveeIx die ((otherDies die).getD (ep - 6) 0)) else none

/-- A frame is handed to its endpoint; over a link that has gone down meanwhile, to that of the detour. -/
def handOver (die ep : Nat) (f : Frame) (s : State) : State :=
  emit (.frame die (if (linkOfEp die ep).any fun k => (leveeOf s k).down then routeEp s die f else ep) f) s

/-- `WEIR_FRAME_DELIVER`. -/
def weirDeliver (die att : Nat) (err : FrameError) (s : State) : State :=
  let ep := endpointOf att
  if !attExists die att || !dieLive s die || s.weir.failedAtt.contains (die * 33 + att) || (linkOfEp die ep).any fun k => (leveeOf s k).retraining then s
  else match chooseClass die ep s with
    | none => s
    | some (c, s') => match queueHead s die ep c with
      | none => s
      | some q =>
        let s := takeFrame die ep q s'
        match err with
        | .none => handOver die ep q.frame s
        | .corrected => handOver die ep q.frame { s with weir := { s.weir with corrected := s.weir.corrected + 1 } }
        | .payload =>
          if q.frame.len = 0 then handOver die ep q.frame s
          else handOver die ep { q.frame with poison := true } (bumpFrame q.frame 0x50 1 s)
        | .header => failDie die (writeEvent 0x08 die 0 64 0 1 s)

/-! ### WEIR_STATS (R184) -/

/-- The block of Table 9.10 for a TCX. -/
def weirBlock (s : State) (t : Nat) : List Byte :=
  counterBytes (polderOf s (tcxOf s t).polder).weirCnt 11 ++ toBytes 8 (tabGet s.weir.lostSnaps 0 t)

/-- The counters are zeroed with a copy, where CLEAR asks for it. -/
def clearWeir (t : Nat) (clear delivered : Bool) (s : State) : State :=
  let s := if clear then modPolder (tcxOf s t).polder (fun p => { p with weirCnt := [] }) s else s
  if clear || delivered then { s with weir := { s.weir with lostSnaps := tabErase s.weir.lostSnaps t } } else s

/-- `WEIR_STATS`. -/
def weirStatsBody (c : Cmd) (s : State) : State :=
  let period := field c.words 3 31 16
  let stop := flag c.words 3 1
  if !dvaClear c.words 4 || (stop && decide (period ≠ 0)) then finishWith c .invalid 0 s
  else if stop then finishWith c .ok 0 { s with weir := { s.weir with streams := tabErase s.weir.streams c.tcx } }
  else
    let dva := word64 c.words 4
    let clear := flag c.words 3 0
    let r := checkWhole dva 96 .write 0x3 (fun _ => false) (runOf c s)
    let r := writeRange dva (cleanBytes (weirBlock s c.tcx)) r
    let stream : StatStream := { period := period, clear := clear, dva := BitVec.ofNat 52 dva }
    let r := if r.stopped then r
      else
        let s' := clearWeir c.tcx clear (decide (period ≠ 0)) r.s
        let streams := if period = 0 then s'.weir.streams else tabInsert s'.weir.streams c.tcx stream
        { r with s := { s' with weir := { s'.weir with streams := streams } } }
    concludeRun r {} s

/-- `WEIR_STATS_PERIOD`: a snapshot of a periodic stream is delivered where its destination still has W. [DEDUCED, log 49] -/
def weirPeriod (t : Nat) (s : State) : State :=
  match tabFind s.weir.streams t with
  | none => s
  | some st =>
    let ps := checkRange s t st.dva.toNat 96 .write
    if ps.any fun p => isDenied p.2.2 || isUnmapped p.2.2 then s
    else clearWeir t st.clear true (deviceWriteDva t st.dva.toNat (cleanBytes (weirBlock s t)) s)

end Sys2Proof.Machine
end

