-- ==== Sys2Proof/Machine/Power.lean ====
section
/-!
DEFINITION. Power, clocks and sleep (chapter 21): the thermal and supply monitors, the governor, and the states of the
clusters and of the control domain.
-/

namespace Sys2Proof.Machine

/-! ### Temperature (R430, R431) -/

/-- Offset of a sensor from the calibration shadow in 1/64 °C (Table 24.1); the HBM stacks report their own temperature. -/
def sensorOffset (s : State) (sensor : Nat) : Int :=
  if sensor ≥ 72 then 0
  else
    let v := (tabGet s.ident.shadow 0 (0x1BC0 + 2 * sensor)).toNat + 256 * (tabGet s.ident.shadow 0 (0x1BC1 + 2 * sensor)).toNat
    if v < 32768 then v else (v : Int) - 65536

/-- A reading with its offset. -/
def sensorReading (s : State) (r : Reading) : Int := r.raw + sensorOffset s r.sensor.val

/-- A reading outside −40 to 150 °C is a sensor fault. [DEDUCED, log 50] -/
def sensorFault (s : State) (r : Reading) : Bool := decide (sensorReading s r < -2560 ∨ 9600 < sensorReading s r)

/-- The temperature that is compared, in °C rounded down: without a calibration 5 °C are added to die and stack sensors (R469). -/
def sensorTemp (s : State) (r : Reading) : Int :=
  (sensorReading s r + (if s.ident.uncalibrated ∧ r.sensor.val < 72 then 320 else 0)) / 64

def incSat8 (v : BitVec 8) : BitVec 8 := if v = 0xFF then v else v + 1

/-- A sensor fault is counted and recorded. -/
def recordFault (r : Reading) (s : State) : State :=
  writeEvent 0x0B r.sensor.val 0 64 0 0xFF { s with pwr := { s.pwr with faults := incSat8 s.pwr.faults } }

/-- A sensor reaches WARN: one record and one event per crossing. -/
def warnSensor (sensor temp : Nat) (s : State) : State :=
  if s.pwr.warned.contains sensor then s
  else
    let s := { s with pwr := { s.pwr with warned := s.pwr.warned ++ [sensor] } }
    raiseIrq 1 (postAsyncAll 0x03 0 64 0 (readySluices s) (writeEvent 0x0B sensor 0 64 0 temp s))

/-- Every sensor reads below 100 °C, which ends a trip (Table 21.4 step 4). -/
def allCool (s : State) (l : List Reading) : Bool :=
  (List.range 80).all fun k => l.any fun r => decide (r.sensor.val = k) && !sensorFault s r && decide (sensorTemp s r < 100)

/-- `THERMAL_SAMPLE`. [DEDUCED, log 50] -/
def thermalSampleOp (l : List Reading) (s : State) : State :=
  if !s.pins.terpUp then s
  else
    let s := (l.filter (sensorFault s)).foldl (fun s r => recordFault r s) s
    let good := l.filter fun r => !sensorFault s r
    let temps := good.map fun r => (r.sensor.val, (sensorTemp s r).toNat)
    let top := (temps.map (·.2)).foldl max 0
    let hotNow := (temps.filter fun t => t.1 < 72 ∧ t.2 ≥ 125).map (·.1)
    let trips := hotNow.any fun k => s.pwr.hot.contains k
    let s := { s with pwr := { s.pwr with
      maxC := BitVec.ofNat 8 top, peakC := BitVec.ofNat 8 (max s.pwr.peakC.toNat top), hot := hotNow
      warned := s.pwr.warned.filter fun k => temps.any fun t => decide (t.1 = k ∧ t.2 ≥ s.pwr.warn.toNat)
      throttling := s.pwr.throttling || decide (top ≥ s.pwr.throttle.toNat) } }
    let s := (temps.filter fun t => t.2 ≥ s.pwr.warn.toNat).foldl (fun s t => warnSensor t.1 t.2 s) s
    if s.pwr.tripped then
      if allCool s l then { s with pwr := { s.pwr with tripped := false }, pins := { s.pins with thermTrip := false } } else s
    else if trips then thermalTrip s
    else s

/-- `THROTTLE_STEP`: one step down while a sensor is at THROTTLE or above, one up once every sensor is 5 °C below it. [DEDUCED, log 50] -/
def throttleStepOp (s : State) : State :=
  if s.pwr.maxC.toNat ≥ s.pwr.throttle.toNat then
    { s with pwr := { s.pwr with throttleStep := max 8 (s.pwr.throttleStep - 1), throttling := true } }
  else if s.pwr.maxC.toNat < s.pwr.throttle.toNat - 5 then
    let n := min 16 (s.pwr.throttleStep + 1)
    { s with pwr := { s.pwr with throttleStep := n, throttling := s.pwr.throttling && decide (n < 16) } }
  else s

/-! ### Supply (R432 to R434) -/

/-- The lowest core rail since WARN_STICKY was cleared (Table 21.7). -/
def noteSupply (pct : BitVec 8) (s : State) : State :=
  { s with pwr := { s.pwr with minPct := if pct.toNat < s.pwr.minPct.toNat then pct else s.pwr.minPct } }

/-- `SUPPLY_WARNING_CROSSING`: an episode begins; within the restore window it goes on. -/
def supplyWarning (die : Nat) (pct : BitVec 8) (s : State) : State :=
  if !s.pins.terpUp then s
  else
    let s := noteSupply pct s
    if s.pwr.warnNow then { s with pwr := { s.pwr with restoring := false } }
    else
      let s := { s with pwr := { s.pwr with warnNow := true, warnSticky := true, restoring := false
                                            episodes := if s.pwr.episodes = 0xFFFF then s.pwr.episodes else s.pwr.episodes + 1 } }
      raiseIrq 0 (postAsyncAll 0x02 0 64 0 (readySluices s) (writeEvent 0x0A die 0 64 0 s.pwr.minPct.toNat s))

/-- `SUPPLY_ABOVE_WARNING`: the restore window starts. -/
def supplyAbove (pct : BitVec 8) (s : State) : State :=
  if s.pwr.warnNow then noteSupply pct { s with pwr := { s.pwr with restoring := true } } else s

/-- `RESTORE_WINDOW_EXPIRY`: the episode ends. -/
def restoreEnds (s : State) : State := if s.pwr.restoring then endEpisode s else s

/-- `SUPPLY_RESET_CROSSING`: the episode ends, and the power-loss sequence runs (R434, R446). -/
def supplyResetCrossing (pct : BitVec 8) (s : State) : State :=
  if !s.pins.terpUp then s else powerLoss (endEpisode (noteSupply pct s))

/-! ### The governor (R428) -/

/-- `GOVERNOR_SAMPLE`: P, the 1 ms running average of package power. -/
def governorSampleOp (watts : BitVec 16) (s : State) : State := if s.fw.started then { s with pwr := { s.pwr with avgW := watts } } else s

/-- P lies below LIMIT − 20 W. -/
def wellBelow (s : State) : Bool := decide (s.pwr.avgW.toNat + 20 < s.pwr.limit.toNat)

/-- `GOVERNOR_STEP_DOWN`. -/
def governorDown (s : State) : State :=
  if s.pwr.avgW.toNat > s.pwr.limit.toNat then { s with pwr := { s.pwr with govStep := max 8 (s.pwr.govStep - 1) } } else s

/-- `GOVERNOR_STEP_UP`. -/
def governorUp (s : State) : State :=
  if wellBelow s then { s with pwr := { s.pwr with govStep := min 16 (s.pwr.govStep + 1) } } else s

/-- A designated cluster of a LATENCY polder (R425). -/
def isDesignated (s : State) (cl : Nat) : Bool :=
  s.polders.any fun e => decide (modePwr e.2.modes = 1) && (designated e.2).contains cl

/-- `GOVERNOR_EVACUATION`: the migratable items of the cluster move, and it takes no new work. [DEDUCED, log 50] -/
def governorEvacuate (cl : Nat) (s : State) : State :=
  if s.pwr.avgW.toNat ≤ s.pwr.limit.toNat ∨ s.pwr.govStep ≠ 8 ∨ (clusterOf s cl).state ≠ .active ∨ isDesignated s cl
      ∨ s.pwr.evacuated.contains cl then s
  else migrateCores ((List.range 8).map (8 * cl + ·)) { s with pwr := { s.pwr with evacuated := s.pwr.evacuated ++ [cl] } }

/-- `EVACUATION_RELEASE`. -/
def evacuationEnds (s : State) : State := if wellBelow s then { s with pwr := { s.pwr with evacuated := [] } } else s

/-! ### Clusters (R423 to R425, R324) -/

/-- Cluster of a translating unit: compute core n, crown core 0xC0 + n. -/
def unitCluster (unit : Nat) : Nat := if unit < 128 then unit / 8 else if 0xC0 ≤ unit ∧ unit < 0xE0 then 20 + (unit - 0xC0) / 8 else 24

/-- Compute clusters on which the commands of a polder land: those with pool-B cores, or all of its own (R23). -/
def landsOn (p : Polder) (cl : Nat) : Bool :=
  let all := (maskBits 128 p.cores.toNat).filter fun n => n / 8 = cl
  if p.cores &&& p.poolB = 0 then decide (all ≠ []) else all.any fun n => p.poolB.getLsbD n

/-- A tile, phase, crown run or dispatched command is in progress on a cluster; on a channel cluster, an operation of a die or a scan. -/
def clusterBusy (s : State) (cl : Nat) : Bool :=
  if 16 ≤ cl ∧ cl < 20 then
    (s.ftl.chans.any fun e => decide (e.1 / 16 = cl - 16) && e.2.dies.any fun d => d.2.running.isSome)
      || s.srch.running.any fun e => decide (e.1 / 16 = cl - 16)
  else
    (s.eng.tiles.any fun e => decide (unitCluster e.2.unit = cl)) || (s.eng.waiting.any fun w => decide (unitCluster w.unit = cl))
      || (s.eng.placements.any fun e => e.2.begun && e.2.cores.any fun n => n / 8 = cl)
      || (s.eng.runs.any fun e => !e.2.ended && e.2.cores.any fun n => 20 + n / 8 = cl)
      || (s.q.cmds.any fun c => decide (0x80 ≤ c.opcode ∧ c.opcode ≤ 0x9F ∧ c.phase ≠ 0) && c.outcome.isNone && landsOn (polderOf s c.polder) cl)

/-- A cluster with a core of a REPRODUCIBLE polder starts its PLL on a start beat (R324). -/
def needsBeat (s : State) (cl : Nat) (from_ : DomainState) : Bool :=
  decide (from_ = DomainState.doze ∨ from_ = DomainState.dark) && (clusterPolders s cl).any fun p => isReproducible (polderOf s p).modes

/-- SCH requests the wake of a cluster that has work; a flush before sleep is cancelled, an entry ends first (R424). [DEDUCED, log 50] -/
def requestWake (cl : Nat) (s : State) : State :=
  let x := clusterOf s cl
  if x.state = .active ∧ x.entering = none ∧ x.flushing = none then s
  else if x.waking then s
  else modCluster cl (fun x => { x with waking := decide (x.state ≠ .active) || x.entering.isSome, flushing := none
                                        waitBeat := x.entering.isNone && needsBeat s cl x.state }) s

/-- A cluster with work wakes; one without is IDLE at once, and an evacuated one goes on to DOZE (R424, R428). [DEDUCED, log 50] -/
def settleCluster (cl : Nat) (s : State) : State :=
  let x := clusterOf s cl
  if clusterBusy s cl then requestWake cl s
  else if x.state = .active then modCluster cl (fun x => { x with state := .idle }) s
  else if x.state = .idle ∧ x.entering = none ∧ s.pwr.evacuated.contains cl then modCluster cl (fun x => { x with entering := some .doze }) s
  else s

def settleClusters (s : State) : State := (List.range 24).foldl (fun s cl => settleCluster cl s) s

/-- `CLUSTER_IDLE_TIMEOUT`: DOZE after 200 µs, DARK after 5 ms (`long`), as the policies allow; a crown cluster that leaves
IDLE flushes its L2s first. -/
def clusterIdle (cl : Nat) (long : Bool) (s : State) : State :=
  let x := clusterOf s cl
  let target : DomainState := if long then .dark else .doze
  if (16 ≤ cl ∧ cl < 20) ∨ clusterBusy s cl ∨ x.waking ∨ x.entering.isSome ∨ x.flushing.isSome
      ∨ stateDepth target ≤ stateDepth x.state ∨ x.state = .active ∨ stateDepth (allowedState s cl) < stateDepth target then s
  else if 20 ≤ cl ∧ x.state = .idle then modCluster cl (fun x => { x with flushing := some target }) s
  else modCluster cl (fun x => { x with entering := some target }) s

/-- Crown L2s write back and give up every tray line that the directory tracks (R76, R424). -/
def giveUpLines (core : Nat) (s : State) : State :=
  let slots := s.coh.sets.flatMap fun e => (e.2.filter fun d => d.crown && d.ids.contains core).map fun d => (lineOfSlot e.1 d, d)
  slots.foldl (fun s e =>
    if e.2.state = .owned ∨ e.2.ids.filter (· ≠ core) = [] then removeSlot e.1 s
    else refreshSlot e.1 { e.2 with ids := e.2.ids.filter (· ≠ core) } s) s

/-- `CROWN_L2_FLUSH_COMPLETE`. -/
def l2Flushed (k : Nat) (s : State) : State :=
  let cl := 20 + k
  match (clusterOf s cl).flushing with
  | none => s
  | some t =>
    modCluster cl (fun x => { x with flushing := none, entering := some t })
      ((List.range 8).foldl (fun s i => giveUpLines (8 * k + i) s) s)

/-- What DARK loses: local stores and scratch, segment caches (Table 14.6). -/
def darkenCluster (cl : Nat) (s : State) : State :=
  { s with eng := { s.eng with
      stores := if cl < 16 then tabMap s.eng.stores {} fun core st => if core / 8 = cl then { corrected := st.corrected } else st else s.eng.stores
      segCaches := tabFilter s.eng.segCaches fun k _ => decide (unitCluster (k / 16) ≠ cl)
      lastTcx := tabFilter s.eng.lastTcx fun k _ => decide (unitCluster (k / 16) ≠ cl)
      l2Poison := s.eng.l2Poison.filter fun k => 20 + k / 2 ^ 44 / 8 ≠ cl } }

/-- `CLUSTER_SLEEP_ENTRY_END`: a wake requested meanwhile runs from here. -/
def sleepEntered (cl : Nat) (s : State) : State :=
  match (clusterOf s cl).entering with
  | none => s
  | some t =>
    let s := if t = .dark then darkenCluster cl s else s
    modCluster cl (fun x => { x with state := t, entering := none, waitBeat := x.waking && needsBeat s cl t }) s

/-- `CLUSTER_WAKE_COMPLETE`: the PLL has started with the spread that CLK_CTRL sets (R422). -/
def wakeEnds (cl : Nat) (s : State) : State :=
  let x := clusterOf s cl
  if !x.waking ∨ x.entering.isSome ∨ x.waitBeat then s
  else modCluster cl (fun x => { x with state := .active, waking := false
                                        spread := if x.state = .idle then x.spread else s.pwr.sscEn }) s

/-- `START_BEAT`: the time base stands at the next multiple of 64 cycles; the wakes that wait for a beat begin. [DESIGN CHOICE, log 3] -/
def startBeatOp (s : State) : State :=
  if !s.pins.terpUp then s
  else
    { s with time := (s.time / 64 + 1) * 64 % 2 ^ 64, beat := (s.beat + 1) % 2 ^ 48
             pwr := { s.pwr with clusters := tabMap s.pwr.clusters {} fun _ x => if x.entering.isSome then x else { x with waitBeat := false } } }

/-- `CONTROL_DOMAIN_DOZE` (R426). -/
def controlDozes (s : State) : State :=
  if s.fw.started && decide (s.q.cmds = []) && ((List.range 16) ++ [20, 21, 22, 23]).all fun cl =>
      decide ((clusterOf s cl).state = DomainState.doze ∨ (clusterOf s cl).state = DomainState.dark) then
    { s with pwr := { s.pwr with controlDoze := true } }
  else s

end Sys2Proof.Machine
end

