-- ==== Sys2Proof/Machine/Sessions.lean ====
section
/-!
DEFINITION. SPDM sessions, IDE streams and measurements (R162 to R166). What a request carries beyond its operands, and
the certificate and signatures of the answers, are the environment's.
-/

namespace Sys2Proof.Machine

/-- Number of an SPDM endpoint: port × 16 + LD, 272 for MCTP. -/
def endIx : SpdmEnd → Nat
  | .doe p l => sluiceIx p l
  | .mctp => 272

/-- SEC answers: the device has started and SEC is not halted. -/
def secAnswers (s : State) : Bool := s.fw.started && !s.fw.halted.getLsbD 1

/-- Codes of an ERROR response: 0x01 InvalidRequest, 0x03 Busy, 0x04 UnexpectedRequest, 0x06 DecryptError, 0x07 UnsupportedRequest. [PRESUMED, log 31] -/
def spdmError (ep : SpdmEnd) (code : Nat) (s : State) : State := emit (.spdm (endIx ep) 0x7F [BitVec.ofNat 32 code]) s

/-- [PRESUMED, log 31] -/
def spdmReply (ep : SpdmEnd) (code : Nat) (words : List Word) (s : State) : State := emit (.spdm (endIx ep) code words) s

def phaseOf (s : State) (ep : SpdmEnd) : SpdmPhase := tabGet s.key.spdm .start (endIx ep)

def setPhase (ep : SpdmEnd) (p : SpdmPhase) (s : State) : State := { s with key := { s.key with spdm := tabPut s.key.spdm .start (endIx ep) p } }

def sessionsAt (s : State) (ep : SpdmEnd) : List Session := tabGet s.key.sessions [] (endIx ep)

def putSessions (ep : SpdmEnd) (l : List Session) (s : State) : State := { s with key := { s.key with sessions := tabPut s.key.sessions [] (endIx ep) l } }

/-- The established session with an identifier. -/
def liveSession (s : State) (ep : SpdmEnd) (id : Nat) : Option Session := (sessionsAt s ep).find? fun x => x.id = id && x.established

/-- A session ends; the streams it programmed return to IDLE with their keys erased (R165). [PRESUMED, log 31] -/
def dropSession (ep : SpdmEnd) (id : Nat) (s : State) : State :=
  let s := putSessions ep ((sessionsAt s ep).filter fun x => x.id ≠ id) s
  { s with key := { s.key with streams := tabFilter s.key.streams fun k x => !(decide (k / 256 = endIx ep ∧ x.session = id)) } }

/-- A request that needs the negotiation. -/
def negotiated (ep : SpdmEnd) (go : State → State) (s : State) : State :=
  if !secAnswers s then s else if phaseOf s ep = .negotiated then go s else spdmError ep 0x04 s

/-- `GET_VERSION`: the connection begins anew, and its sessions end. [PRESUMED, log 31] -/
def spdmVersion (ep : SpdmEnd) (s : State) : State :=
  if !secAnswers s then s
  else spdmReply ep 0x04 [0x1300] (setPhase ep .version ((sessionsAt s ep).foldl (fun s x => dropSession ep x.id s) s))

/-- `GET_CAPABILITIES`. -/
def spdmCapabilities (ep : SpdmEnd) (s : State) : State :=
  if !secAnswers s then s
  else if phaseOf s ep = .version then spdmReply ep 0x61 [] (setPhase ep .capabilities s)
  else spdmError ep 0x04 s

/-- `NEGOTIATE_ALGORITHMS`: the algorithms of Table 8.5. -/
def spdmNegotiate (ep : SpdmEnd) (supported : Bool) (s : State) : State :=
  if !secAnswers s then s
  else if phaseOf s ep ≠ .capabilities then spdmError ep 0x04 s
  else if supported then spdmReply ep 0x63 [] (setPhase ep .negotiated s)
  else spdmError ep 0x01 s

/-- `GET_DIGESTS`: slot 0 holds a chain. -/
def spdmDigests (ep : SpdmEnd) (s : State) : State := negotiated ep (fun s => spdmReply ep 0x01 [1] s) s

/-- `GET_CERTIFICATE`: a portion of the chain of slot 0. -/
def spdmCertificate (ep : SpdmEnd) (slot offset length : Nat) (s : State) : State :=
  negotiated ep (fun s =>
    let total := Config.certLength s.ident.serial
    if slot ≠ 0 ∨ total ≤ offset then spdmError ep 0x01 s
    else
      let n := min length (total - offset)
      let chain := (List.range n).map fun i => Config.certByte s.ident.serial (offset + i)
      spdmReply ep 0x02 (BitVec.ofNat 32 n :: BitVec.ofNat 32 (total - offset - n) :: bytesToWords ((n + 3) / 4) chain) s) s

/-- A P-384 signature, 96 bytes. -/
def signature (s : State) : List Word := (List.range 24).map fun i => Config.signatureWord s.free i

/-- `CHALLENGE`. -/
def spdmChallenge (ep : SpdmEnd) (slot : Nat) (nonce : BitVec 256) (s : State) : State :=
  negotiated ep (fun s =>
    if slot ≠ 0 then spdmError ep 0x01 s else drawFree (spdmReply ep 0x03 (toWords 8 nonce.toNat ++ signature s) s)) s

/-- `GET_MEASUREMENTS`: 0 asks for the number of blocks, 0xFF for all nine, 1 to 9 for one. -/
def spdmMeasurements (ep : SpdmEnd) (index : Nat) (s : State) : State :=
  negotiated ep (fun s =>
    let block := fun n => toWords 8 (tabGet s.fw.measurements 0 n).toNat
    if index = 0 then spdmReply ep 0x60 [9] s
    else if index = 0xFF then spdmReply ep 0x60 ((List.range 9).flatMap fun i => block (i + 1)) s
    else if index ≤ 9 then spdmReply ep 0x60 (block index) s
    else spdmError ep 0x01 s) s

/-- Sessions that an endpoint holds at most. -/
def sessionLimit : SpdmEnd → Nat
  | .doe _ _ => 2
  | .mctp => 8

/-- `KEY_EXCHANGE`. -/
def spdmKeyExchange (ep : SpdmEnd) (id : Nat) (mutualAuth : Bool) (s : State) : State :=
  negotiated ep (fun s =>
    if mutualAuth then spdmError ep 0x07 s
    else if (sessionsAt s ep).length ≥ sessionLimit ep then spdmError ep 0x03 s
    else if (sessionsAt s ep).any fun x => x.id = id then spdmError ep 0x01 s
    else
      let s' := putSessions ep (sessionsAt s ep ++ [{ id := id, secret := s.free }]) s
      drawFree (spdmReply ep 0x64 (BitVec.ofNat 32 id :: signature s) s')) s

/-- `FINISH`. -/
def spdmFinish (ep : SpdmEnd) (id : Nat) (verifies : Bool) (s : State) : State :=
  negotiated ep (fun s =>
    match (sessionsAt s ep).find? fun x => x.id = id && !x.established with
    | none => spdmError ep 0x04 s
    | some _ =>
      if verifies then
        spdmReply ep 0x65 [] (putSessions ep ((sessionsAt s ep).map fun x => if x.id = id then { x with established := true } else x) s)
      else spdmError ep 0x06 (dropSession ep id s)) s

/-- A message within an established session. -/
def inSession (ep : SpdmEnd) (id code : Nat) (go : State → State) (s : State) : State :=
  if !secAnswers s then s
  else match liveSession s ep id with
    | none => spdmError ep 0x04 s
    | some _ => spdmReply ep code [] (go s)

/-- `HEARTBEAT`. -/
def spdmHeartbeat (ep : SpdmEnd) (id : Nat) (s : State) : State := inSession ep id 0x68 (fun s => s) s

/-- `KEY_UPDATE`: the session goes on under new keys. -/
def spdmKeyUpdate (ep : SpdmEnd) (id : Nat) (s : State) : State := inSession ep id 0x69 (fun s => s) s

/-- `END_SESSION`. -/
def spdmEndSession (ep : SpdmEnd) (id : Nat) (s : State) : State := inSession ep id 0x6C (dropSession ep id) s

/-- `SPDM_SESSION_TIMEOUT`: no message for two heartbeat periods. -/
def spdmTimeout (ep : SpdmEnd) (id : Nat) (s : State) : State :=
  if (sessionsAt s ep).any fun x => x.id = id then dropSession ep id s else s

/-! ### IDE streams (R163) -/

def streamKey (port : Fin 17) (ld : Fin 16) (stream : BitVec 8) : Nat := sluiceIx port ld * 256 + stream.toNat

def streamOf (s : State) (k : Nat) : Option IdeStream := tabFind s.key.streams k

def putStream (k : Nat) (x : IdeStream) (s : State) : State := { s with key := { s.key with streams := tabInsert s.key.streams k x } }

/-- Streams of an LD and of its port. -/
def streamRoom (s : State) (k : Nat) : Bool :=
  decide ((s.key.streams.filter fun e => e.1 / 256 = k / 256).length < 4)
    && decide ((s.key.streams.filter fun e => e.1 / 4096 = k / 4096).length < 64)

def dirBit (transmit : Bool) : BitVec 2 := if transmit then 2 else 1

/-- An IDE_KM request over a session of the same LD: 0 acknowledges, any other value refuses. -/
def ideReply (port : Fin 17) (ld : Fin 16) (status : Nat) (s : State) : State := spdmReply (.doe port ld) 0x7E [BitVec.ofNat 32 status] s

def ideRequest (port : Fin 17) (ld : Fin 16) (session : Nat) (go : State → Option State) (s : State) : State :=
  if !secAnswers s then s
  else match liveSession s (.doe port ld) session with
    | none => spdmError (.doe port ld) 0x04 s
    | some _ => match go s with
      | none => ideReply port ld 1 s
      | some s' => ideReply port ld 0 s'

/-- A direction of a stream is programmed; with both it is KEYED. -/
def programDir (session : Nat) (transmit : Bool) (x : IdeStream) : IdeStream :=
  let p := x.programmed ||| dirBit transmit
  { x with state := if p = 3 then .keyed else .idle, session := session, programmed := p, active := 0, alternate := false }

/-- `KEY_PROG`: a new stream, a stream being keyed, or the alternate key set of a SECURE one; an INSECURE stream only after
its K_SET_STOP. -/
def keyProgOp (port : Fin 17) (ld : Fin 16) (stream : BitVec 8) (transmit : Bool) (session : Nat) (s : State) : State :=
  let k := streamKey port ld stream
  ideRequest port ld session (fun s =>
    match streamOf s k with
    | none => if streamRoom s k then some (putStream k (programDir session transmit {}) s) else none
    | some x =>
      match x.state with
      | .idle | .keyed => some (putStream k (programDir session transmit x) s)
      | .secure => some (putStream k { x with alternate := true, session := session } s)
      | .insecure => if x.active = 0 then some (putStream k (programDir session transmit {}) s) else none) s

/-- `K_SET_GO`: a programmed direction becomes active, and with both the stream is SECURE; on a SECURE stream the alternate
key set takes over at the next IDE boundary. -/
def kSetGoOp (port : Fin 17) (ld : Fin 16) (stream : BitVec 8) (transmit : Bool) (session : Nat) (s : State) : State :=
  let k := streamKey port ld stream
  ideRequest port ld session (fun s =>
    (streamOf s k).bind fun x =>
      match x.state with
      | .keyed =>
        let a := x.active ||| dirBit transmit
        some (putStream k { x with active := a, state := if a = 3 then .secure else .keyed } s)
      | .secure => if x.alternate then some (putStream k { x with alternate := false } s) else none
      | _ => none) s

/-- `K_SET_STOP`: the keys are erased; an INSECURE stream stays so until its next KEY_PROG. [PRESUMED, log 31] -/
def kSetStopOp (port : Fin 17) (ld : Fin 16) (stream : BitVec 8) (session : Nat) (s : State) : State :=
  let k := streamKey port ld stream
  ideRequest port ld session (fun s =>
    (streamOf s k).map fun x =>
      match x.state with
      | .insecure => putStream k { x with active := 0 } s
      | _ => { s with key := { s.key with streams := tabErase s.key.streams k } }) s

/-- `IDE_INTEGRITY_FAILURE`: UNIT of the notice holds the stream in bits 7:0 and the LD in bits 11:8. [DEDUCED, log 30] -/
def ideFails (port : Fin 17) (ld : Fin 16) (stream : BitVec 8) (s : State) : State :=
  let k := streamKey port ld stream
  match streamOf s k with
  | none => s
  | some x =>
    if x.state ≠ .secure then s
    else
      notifyFm { kind := 0x03, port := port.val, hid := tabGet s.q.bound 0 (sluiceIx port ld), unit := stream.toNat + 256 * ld.val } 0
        (putStream k { x with state := .insecure, programmed := 0, active := 3, alternate := false } s)

end Sys2Proof.Machine
end

