-- ==== Sys2Proof/Machine/Fabric.lean ====
section
/-!
DEFINITION. The fabric manager's commands (R399, R400): identification, LD divisions, DevLoad, bindings (R33, R341, R359)
and the tunnel of admin items (R364).
-/

namespace Sys2Proof.Machine

/-- FM API return codes: 0 Success, 2 Invalid Input, 3 Unsupported, 6 Busy. [PRESUMED, log 32] -/
def fmReply (code : Nat) (words : List Word) (s : State) : State := emit (.fmResponse code words) s

/-- The fabric manager is answered once the device runs its firmware. [PRESUMED, log 32] -/
def fmAnswers (s : State) : Bool := s.pins.terpUp && !s.fw.terpOnly

def fmCommand (go : State → State) (s : State) : State := if fmAnswers s then go s else s

/-- `FM_IDENTIFY`: the package serial. -/
def fmIdentifyOp (s : State) : State := fmCommand (fun s => fmReply 0 (bytesToWords 4 s.ident.serial) s) s

/-- `GET_LD_INFO`: 16 LDs on every port. -/
def ldInfoOp (s : State) : State := fmCommand (fmReply 0 [16]) s

/-- The link that carries each of the 16 LDs of a port (Table 20.1). -/
def ldDivision (s : State) (port : Nat) : List Nat := (List.range 16).map fun ld => linkOfLd (portAt s port).width ld

/-- `GET_LD_ALLOCATIONS`. -/
def ldAllocationsOp (port : Nat) (s : State) : State := fmCommand (fun s => fmReply 0 ((ldDivision s port).map (BitVec.ofNat 32 ·)) s) s

/-- `SET_LD_ALLOCATIONS`: nothing but the division in force is accepted. -/
def setLdAllocationsOp (port : Nat) (division : List (BitVec 8)) (s : State) : State :=
  fmCommand (fun s => fmReply (if division.map (·.toNat) = ldDivision s port then 0 else 2) [] s) s

/-- `GET_QOS_STATUS`: the DevLoad of the LD's HID, for the most occupied of its polders. -/
def qosStatusOp (port ld : Nat) (s : State) : State :=
  fmCommand (fun s =>
    match tabFind s.q.bound (port * 16 + ld) with
    | none => fmReply 2 [] s
    | some hid =>
      let loads := ((List.range 64).filter (polderBit (hitOf s hid))).map fun p => devLoadOf s port hid p
      fmReply 0 [BitVec.ofNat 32 (loads.foldl max (devLoadOf s port hid 64))] s) s

/-- An admin item that arrives through the FM API: 64 B to 256 B, one at a time; a further one is answered Busy. [PRESUMED, log 32] [DEDUCED, log 59] -/
def tunnelItemOp (ws : List Word) (s : State) : State :=
  fmCommand (fun s =>
    if !s.fw.started || intakeShut s ⟨.tunnel, ws, []⟩ then fmReply 6 [] s
    else if ws.length ≠ 16 * hdrEntries ws then fmReply 2 [] s
    else takeIn ⟨.tunnel, ws, []⟩ s) s

/-- A sluice as a bind makes it: UNMATCHED, every register at its reset value (Table 17.5). -/
def freshSluice (s : State) (hid : Nat) : Sluice := { hid := hid, ifVersion := s.fw.running.manifest.ifVersion }

/-- `BIND_HID`. [PRESUMED, log 32] -/
def bindOp (b0 b1 b2 b3 : Byte) (s : State) : State :=
  fmCommand (fun s =>
    let ix := b0.toNat * 16 + b1.toNat
    let hid := b2.toNat
    if !s.fw.started then fmReply 6 [] s
    else if b0.toNat > 16 ∨ b1.toNat > 15 ∨ b3 ≠ 0 then fmReply 2 [] s
    else match tabFind s.q.bound ix with
      | some h => fmReply (if h = hid then 0 else 2) [] s
      | none =>
        if (ldOfHid s hid).isSome ∨ s.q.bound.length ≥ 256 then fmReply 2 [] s
        else fmReply 0 [] { s with q := { s.q with bound := tabInsert s.q.bound ix hid
                                                   sluices := tabInsert s.q.sluices ix (freshSluice s hid) } }) s

/-- `UNBIND_HID`. -/
def unbindOp (b0 b1 b2 b3 : Byte) (s : State) : State :=
  fmCommand (fun s =>
    if b0.toNat > 16 ∨ b1.toNat > 15 ∨ b2 ≠ 0 ∨ b3 ≠ 0 then fmReply 2 [] s
    else fmReply 0 [] (unbindLd (b0.toNat * 16 + b1.toNat) s)) s

end Sys2Proof.Machine
end

