-- ==== Sys2Proof/Machine/Boards.lean ====
section
/-!
DEFINITION. The direct registers (chapter 26), the pins and the tray interlock (chapter 25), the BMC bus (R494) and the NOR
window (R498).
-/

namespace Sys2Proof.Machine

/-! ### The tray interlock (R486 to R488) -/

/-- Entry to TRAY_OPEN or FAULT: one event record with the debounced channels (A in bit 0, B in bit 1), and events. [DEDUCED, log 51] -/
def interlockEnters (s : State) : State :=
  let detail := (if s.pins.closedA then 1 else 0) + (if s.pins.closedB then 2 else 0)
  raiseIrq 3 (postAsyncAll 0x04 0 64 0 (readySluices s) (writeEvent 0x0E 0 0 64 0 detail s))

/-- The interlock state on the debounced channels (Table 25.9). -/
def interlockState (s : State) : State :=
  if s.pins.closedA && s.pins.closedB then { s with pins := { s.pins with ilOpen := false, disagree := false } }
  else if !s.pins.closedA && !s.pins.closedB then
    let s' := { s with pins := { s.pins with ilOpen := true, disagree := false } }
    if s.pins.ilOpen then s' else interlockEnters s'
  else if s.pins.disagree then s
  else { s with pins := { s.pins with disagree := true, disagreements := if s.pins.disagreements = 0xFFFF then 0xFFFF else s.pins.disagreements + 1 } }

/-- A channel after a sample: the tenth in a row that differs changes it. [DEDUCED, log 51] -/
def debounce (closed sample : Bool) (run : Nat) : Bool × Nat :=
  if sample = closed then (closed, 0) else if run ≥ 9 then (sample, 0) else (closed, run + 1)

/-- `INTERLOCK_SAMPLE`. -/
def interlockSampleOp (a b : Bool) (s : State) : State :=
  if !s.pins.terpUp then s
  else
    let (ca, ra) := debounce s.pins.closedA a s.pins.runA
    let (cb, rb) := debounce s.pins.closedB b s.pins.runB
    interlockState { s with pins := { s.pins with sampleA := a, sampleB := b, closedA := ca, closedB := cb, runA := ra, runB := rb } }

/-- `INTERLOCK_CHANNEL_DEBOUNCED`: ten samples in a row have differed from the state of channel A, or B. -/
def interlockDebounced (b : Bool) (s : State) : State :=
  if !s.pins.terpUp then s
  else if b then interlockState { s with pins := { s.pins with sampleB := !s.pins.closedB, closedB := !s.pins.closedB, runB := 0 } }
  else interlockState { s with pins := { s.pins with sampleA := !s.pins.closedA, closedA := !s.pins.closedA, runA := 0 } }

/-- `INTERLOCK_DISAGREE_TIMEOUT`: a disagreement longer than 20 ms latches the fault. -/
def interlockDisagrees (s : State) : State :=
  if s.pins.disagree && !s.pins.ilFault then interlockEnters { s with pins := { s.pins with ilFault := true } } else s

/-- `INTERLOCK_CLEAR` (R488). -/
def interlockClearOp (s : State) : State :=
  if !s.pins.terpUp then s
  else if s.pins.closedA && s.pins.closedB then { s with pins := { s.pins with ilFault := false, ilOpen := false, disagree := false } }
  else { s with pins := { s.pins with clearsIgnored := incSat8 s.pins.clearsIgnored } }

/-! ### The NOR window (R498) -/

def norOpen (s : State) : Bool := s.fw.terpOnly || (s.pins.terpUp && !s.pins.sysResetHigh)

/-- A refused command or buffer write is counted. [DEDUCED, log 52] -/
def norRefuse (s : State) : State :=
  { s with regs := { s.regs with norRefused := if s.regs.norRefused = 0xFFFF then 0xFFFF else s.regs.norRefused + 1 } }

/-- A NOR_CMD write: 1 READ, 2 PROGRAM, 3 ERASE. -/
def norCommand (op : BitVec 2) (s : State) : State :=
  let a := s.regs.norAddr.toNat
  let bad := !norOpen s || decide (op ≠ 1 ∧ 0x03010000 ≤ a) || decide (a % (if op = 3 then 65536 else 256) ≠ 0)
  if op = 0 ∨ !s.pins.terpUp then s
  else if s.regs.norBusy.isSome then norRefuse s
  else if bad then norRefuse { s with regs := { s.regs with norDenied := true } }
  else { s with regs := { s.regs with norBusy := some (op, s.regs.norAddr) } }

/-- A byte of a record slot: its header page, then its records (R457). -/
def slotByte (x : NorSlot) (i : Nat) : Byte :=
  if x.erased then 0xFF
  else if i < 16 then (wordsToBytes [x.magic, x.seq, BitVec.ofNat 32 x.count, x.crc]).getD i 0xFF
  else if i < 256 then 0xFF
  else (eventBytes (x.records.getD ((i - 256) / 32) [])).getD ((i - 256) % 32) 0xFF

def norByte (s : State) (a : Nat) : Byte :=
  if 0x03010000 ≤ a ∧ a < 0x03020000 then slotByte s.recorder.slotA (a - 0x03010000)
  else if 0x03020000 ≤ a ∧ a < 0x03030000 then slotByte s.recorder.slotB (a - 0x03020000)
  else tabGet s.ident.nor 0xFF a

def norPut (a : Nat) (l : List Byte) (s : State) : State :=
  { s with ident := { s.ident with nor := (List.range l.length).foldl (fun m i => tabPut m 0xFF (a + i) (l.getD i 0)) s.ident.nor } }

/-- `NOR_COMMAND_COMPLETE`: what a failed PROGRAM or ERASE leaves in its page or sector is open. [DESIGN CHOICE, log 21] -/
def norComplete (ok : Bool) (s : State) : State :=
  match s.regs.norBusy with
  | none => s
  | some (op, addr) =>
    let a := addr.toNat
    let n := if op = 3 then 65536 else 256
    let s := { s with regs := { s.regs with norBusy := none, norError := s.regs.norError || !ok } }
    let s :=
      if op = 1 then
        if ok then { s with regs := { s.regs with norBuf := (List.range 256).foldl (fun m i => tabPut m 0 i (norByte s (a + i))) [] } } else s
      else if !ok then drawFree (spoilCopy (decide (op = 3)) a (norPut a ((List.range n).map fun i => Config.cutSector s.free (a + i)) s))
      else if op = 2 then spoilCopy false a (norPut a ((List.range 256).map fun i => tabGet s.regs.norBuf 0 i) s)
      else spoilCopy true a (norPut a (List.replicate 65536 0xFF) s)
    raiseIrq 7 s

/-! ### Record windows (R495) -/

/-- Record `i` of a part. -/
def recordAt (s : State) (persistent : Bool) (i : Nat) : Record := ((if persistent then s.recorder.persistent else s.recorder.entries)[i]?).getD []

/-- The record that a window selects: PREC_WIN by PREC_SEL, REC_WIN by REC_WIN_SEL. -/
def windowRecord (s : State) (prec : Bool) : Record :=
  if prec then recordAt s true s.regs.precIndex.toNat else recordAt s s.regs.winPart s.regs.winIndex.toNat

def latchWindow (prec : Bool) (s : State) : State :=
  if prec then { s with regs := { s.regs with precLatch := windowRecord s true } }
  else { s with regs := { s.regs with winLatch := windowRecord s false } }

/-! ### Values of registers -/

def b32 (n : Nat) : BitVec 32 := BitVec.ofNat 32 n

/-- STATE of Table 18.5, also TERP_STATE. -/
def stateWord (s : State) : Nat :=
  boolBit s.ident.uncalibrated 0 + (match s.dbg.lock with | .locked => 0 | .tenantSafe => 2 | .open_ => 4)
    + boolBit s.pins.ilFault 3 + boolBit s.pwr.warnSticky 4

def copyCode : CopyMark → Nat | .notExamined => 0 | .failed => 1 | .verified => 2 | .invalid => 3

/-- BOOT_STATUS (Table 19.5). -/
def bootStatus (s : State) : Nat :=
  s.fw.step.toNat * 2 ^ 16 + s.fw.cause.toNat * 2 ^ 12 + copyCode s.fw.copyMarkB * 2 ^ 10 + copyCode s.fw.copyMarkA * 2 ^ 8
    + boolBit s.fw.active 7 + boolBit s.fw.terpOnly 6 + boolBit s.fw.staged 5

/-- A die record; one whose CHECK fails keeps only KIND and INDEX (R472). -/
def dieRecord (s : State) (i : Nat) : List Word :=
  let l := s.ident.dies.getD i []
  if wordAt l 3 = crc32 (wordsToBytes (l.take 3)) then (List.range 4).map fun k => b32 (wordAt l k)
  else [0, b32 (wordAt l 1 / 2 ^ 16 * 2 ^ 16), 0, 0]

def redWord (r : RedReg) : Nat := r.pmax.toNat * 2 ^ 24 + r.max.toNat * 2 ^ 12 + r.min.toNat

def linkCode : LinkState → Nat | .off => 0 | .training => 1 | .l0 => 2 | .l1 => 3 | .detached => 4

/-- A word of a link block (Table 20.6); a link that does not exist reads zero. -/
def linkWord (s : State) (p l off : Nat) : Nat :=
  if !linkExists s p l then 0
  else
    let x := linkAt s p l
    if off = 0 then
      linkCode x.state * 2 ^ 29 + x.speed * 2 ^ 27 + x.width * 2 ^ 22 + x.active * 2 ^ 17 + boolBit x.ptmOk 16 + boolBit x.rdvOk 15
        + x.cause.toNat * 2 ^ 8 + x.attempts
    else if off ≤ 0x1C then tabGet x.counters 0 off
    else 0

/-- PORT_CTRL (Table 20.5). -/
def portWord (s : State) (p : Nat) : Nat :=
  let x := tabGet s.port.ports {} p
  boolBit x.enable 31 + x.width * 2 ^ 29 + x.speedMax * 2 ^ 27 + x.clocking * 2 ^ 25 + boolBit x.l0pEn 24 + boolBit x.l1En 23
    + x.l1Idle.toNat * 2 ^ 8 + x.l1Resync.toNat

/-- Word `k` of the power block (Table 21.5). -/
def powerWord (s : State) (k : Nat) : Nat :=
  let p := s.pwr
  match k with
  | 0 => boolBit p.sscEn 0
  | 1 => p.limit.toNat * 2 ^ 12 + min p.govStep p.throttleStep * 2 ^ 7 + boolBit (decide (p.evacuated ≠ [])) 6 + boolBit p.throttling 5
  | 2 => p.avgW.toNat
  | 3 => p.throttle.toNat * 2 ^ 8 + p.warn.toNat
  | _ => p.maxC.toNat * 2 ^ 16 + p.peakC.toNat * 2 ^ 8 + p.faults.toNat

/-- Word `k` of the fault block (Table 22.5). -/
def faultWord (s : State) (k : Nat) : Nat :=
  let f := s.flt
  match k with
  | 0 => boolBit f.powerLoss 13 + boolBit f.flushIncomplete 12 + boolBit s.fw.onShadow 11 + boolBit s.fw.shadowLost 10
      + ((List.range 6).map fun i => boolBit (leveeOf s i).down (4 + i)).sum + f.dieFailed.toNat
  | 1 => f.portFailed.toNat
  | 2 => f.crownQ.toNat
  | 7 => f.clusterQ.toNat
  | 8 => boolBit f.notifyEnable 31 + f.notifyEid.toNat
  | 9 => f.noticeSeq.toNat
  | k => bits f.coreQ.toNat (32 * (k - 3) + 31) (32 * (k - 3))

/-- Word `k` of the recorder block (Table 23.4). -/
def recorderWord (s : State) (k : Nat) : Nat :=
  let r := s.recorder
  match k with
  | 0 => boolBit r.norReady 19 + boolBit r.frozen 18 + boolBit (decide (r.entries.length ≥ 65536)) 17 + r.entries.length
  | 1 => r.fullDrops
  | 2 => r.frozenDrops
  | _ => r.persistent.length

/-- SUPPLY_STATUS (Table 21.7). -/
def supplyWord (s : State) : Nat :=
  s.pwr.episodes.toNat * 2 ^ 16 + s.pwr.minPct.toNat * 2 ^ 8 + boolBit s.pwr.warnNow 2 + boolBit s.pwr.restoring 1 + boolBit s.pwr.warnSticky 0

/-- NOR_STATUS (Table 26.6). -/
def norStatusWord (s : State) : Nat :=
  s.regs.norRefused.toNat * 2 ^ 16 + boolBit s.regs.norError 3 + boolBit s.regs.norDenied 2 + boolBit s.regs.norBusy.isSome 1 + boolBit (norOpen s) 0

/-- A word of the pin block (Table 25.10). -/
def pinWord (s : State) (k : Nat) : Nat :=
  let p := s.pins
  match k with
  | 0 => boolBit p.ilFault 7 + boolBit p.ilOpen 6 + boolBit p.disagree 5 + boolBit p.closedB 4 + boolBit p.closedA 3
  | 1 => p.clearsIgnored.toNat * 2 ^ 24 + p.disagreements.toNat
  | 2 => p.refused.toNat
  | 3 => p.ioCtrl.toNat
  | _ => p.glitchControl.toNat * 2 ^ 16 + p.glitchBus.toNat

/-- Value of a terp register (Table 26.4). -/
def terpValue (s : State) (off : Nat) : Nat :=
  if off = 0x000 then stateWord s
  else if off = 0x004 then bootStatus s
  else if off = 0x008 then supplyWord s
  else if off = 0x00C then s.regs.irqStatus.toNat
  else if off = 0x010 then s.regs.irqEnable.toNat
  else if off = 0x018 then bits s.time 31 0
  else if off = 0x01C then s.regs.timeHi.toNat
  else if off = 0x020 then bits s.beat 31 0
  else if off = 0x024 then s.regs.beatHi.toNat
  else if 0x040 ≤ off ∧ off < 0x054 then pinWord s ((off - 0x040) / 4)
  else if off = 0x080 then s.regs.precIndex.toNat
  else if off = 0x0A0 then wordAt (windowRecord s true) 0
  else if 0x0A4 ≤ off ∧ off < 0x0C0 then wordAt s.regs.precLatch ((off - 0x0A0) / 4)
  else if 0x100 ≤ off ∧ off < 0x110 then wordAt (bytesToWords 4 s.ident.serial) ((off - 0x100) / 4)
  else if 0x110 ≤ off ∧ off < 0x1D0 then wordAt (dieRecord s ((off - 0x110) / 16)) ((off - 0x110) % 16 / 4)
  else if off = 0x200 then s.regs.norAddr.toNat
  else if off = 0x208 then norStatusWord s
  else if 0x300 ≤ off ∧ off < 0x400 then ofBytes ((List.range 4).map fun i => tabGet s.regs.norBuf 0 (off - 0x300 + i))
  else 0

/-- Value of a management register (Table 26.2). -/
def mgmtValue (s : State) (off : Nat) : Nat :=
  if off = 0x0800 then s.coh.timeout.toNat
  else if off = 0x0804 then s.copy.hold.toNat
  else if off = 0x0808 then redWord s.weir.redG
  else if off = 0x080C then redWord s.weir.redY
  else if off = 0x0810 then redWord s.weir.redR
  else if off = 0x0814 then s.port.grace.toNat
  else if off = 0x0818 then s.regs.selLink.toNat * 2 ^ 8 + s.regs.selPort.toNat
  else if 0x0840 ≤ off ∧ off < 0x0884 then portWord s ((off - 0x0840) / 4)
  else if 0x08C0 ≤ off ∧ off < 0x0900 then linkWord s s.regs.selPort.toNat s.regs.selLink.toNat (off - 0x08C0)
  else if 0x0900 ≤ off ∧ off < 0x0914 then powerWord s ((off - 0x0900) / 4)
  else if 0x0940 ≤ off ∧ off < 0x0968 then faultWord s ((off - 0x0940) / 4)
  else if 0x0980 ≤ off ∧ off < 0x0990 then recorderWord s ((off - 0x0980) / 4)
  else if off = 0x0990 then boolBit s.regs.winPart 16 + s.regs.winIndex.toNat
  else if off = 0x09A0 then wordAt (windowRecord s false) 0
  else if 0x09A4 ≤ off ∧ off < 0x09C0 then wordAt s.regs.winLatch ((off - 0x09A0) / 4)
  else 0

/-- Value of a register of the register space (Table 26.1). -/
def regValue (s : State) (off : Nat) : Nat :=
  if off % 4 ≠ 0 then 0
  else if 0x0800 ≤ off ∧ off < 0x1000 then mgmtValue s off
  else if 0x2000 ≤ off ∧ off < 0x3100 then linkWord s ((off - 0x2000) / 0x100) ((off - 0x2000) % 0x100 / 0x40) (off % 0x40)
  else if 0x10000 ≤ off ∧ off < 0x11000 then terpValue s (off - 0x10000)
  else 0

/-! ### Side effects of reads (R491, R495, R496) -/

/-- The upper halves latch with a read of the lower ones, and a record with a read of its window's first word. -/
def readLatches (off : Nat) (s : State) : State :=
  if off = 0x09A0 then latchWindow false s
  else if off = 0x100A0 then latchWindow true s
  else if off = 0x10018 then { s with regs := { s.regs with timeHi := BitVec.ofNat 32 (s.time / 2 ^ 32) } }
  else if off = 0x10020 then { s with regs := { s.regs with beatHi := BitVec.ofNat 16 (s.beat / 2 ^ 32) } }
  else s

def clearLink (p l off : Nat) (s : State) : State :=
  if linkExists s p l && decide (off ≠ 0) then modLink p l (fun x => { x with counters := tabErase x.counters off }) s else s

/-- A read that is no peek clears RC fields. -/
def readClears (off : Nat) (s : State) : State :=
  if 0x08C0 ≤ off ∧ off < 0x0900 then clearLink s.regs.selPort.toNat s.regs.selLink.toNat (off - 0x08C0) s
  else if off = 0x0910 then { s with pwr := { s.pwr with peakC := 0, faults := 0 } }
  else if off = 0x0984 then { s with recorder := { s.recorder with fullDrops := 0 } }
  else if off = 0x0988 then { s with recorder := { s.recorder with frozenDrops := 0 } }
  else if off = 0x10008 then { s with pwr := { s.pwr with episodes := 0 } }
  else if off = 0x10044 then { s with pins := { s.pins with clearsIgnored := 0, disagreements := 0 } }
  else if off = 0x10048 then { s with pins := { s.pins with refused := 0 } }
  else if off = 0x10050 then { s with pins := { s.pins with glitchControl := 0, glitchBus := 0 } }
  else if off = 0x10208 then { s with regs := { s.regs with norRefused := 0 } }
  else s

/-- Reads registers in ascending order. -/
def readRegs (peek : Bool) : Nat → Nat → State → List Nat × State
  | 0, _, s => ([], s)
  | n + 1, off, s =>
    let v := regValue s off
    let s := readLatches off s
    let (rest, s) := readRegs peek n (off + 4) (if peek then s else readClears off s)
    (v :: rest, s)

/-- One read by a path of its own answers with the value. -/
def readOne (off : Nat) (s : State) : State := emit (.regRead (b32 (regValue s off))) (readClears off (readLatches off s))

/-! ### Writes (R7, R491) -/

/-- Bits that are written 1 clear. -/
def w1c (old : BitVec 8) (v : Nat) : BitVec 8 := old &&& ~~~(BitVec.ofNat 8 v)

/-- A write of 1 to WARN_STICKY (Table 21.7). -/
def warnStickyClearOp (s : State) : State := { s with pwr := { s.pwr with warnSticky := false, minPct := 100 } }

/-- A write of TERP_IRQ_ENABLE: a bit newly enabled whose status is set raises one interrupt (R497). -/
def irqEnableOp (v : Nat) (s : State) : State :=
  let fresh := BitVec.ofNat 8 v &&& ~~~s.regs.irqEnable &&& s.regs.irqStatus
  let s := { s with regs := { s.regs with irqEnable := BitVec.ofNat 8 v } }
  if fresh = 0 then s else raiseIbi s

/-- A two-bit field of IO_CTRL takes a value that Table 25.8 encodes. -/
def slewField (old v lo : Nat) : Nat := if bits v (lo + 1) lo = 3 then bits old (lo + 1) lo * 2 ^ lo else bits v (lo + 1) lo * 2 ^ lo

/-- A write of a word of NOR_BUF. -/
def norBufWrite (off v : Nat) (s : State) : State :=
  if s.regs.norBusy.isSome then norRefuse s
  else { s with regs := { s.regs with norBuf := (List.range 4).foldl (fun m i => tabPut m 0 (off + i) ((toBytes 4 v).getD i 0)) s.regs.norBuf } }

/-- A write of a terp register. [DEDUCED, log 37] -/
def terpWrite (off v : Nat) (s : State) : State :=
  if off = 0x008 then if v.testBit 0 then warnStickyClearOp s else s
  else if off = 0x00C then { s with regs := { s.regs with irqStatus := w1c s.regs.irqStatus v } }
  else if off = 0x010 then irqEnableOp v s
  else if off = 0x014 then bmcResetOp (b32 v) s
  else if off = 0x040 then if v.testBit 15 then interlockClearOp s else s
  else if off = 0x04C then
    let old := s.pins.ioCtrl.toNat
    { s with pins := { s.pins with ioCtrl := BitVec.ofNat 8 (([0, 2, 4, 6].map (slewField old v)).sum) } }
  else if off = 0x080 then { s with regs := { s.regs with precIndex := BitVec.ofNat 12 v } }
  else if off = 0x200 then { s with regs := { s.regs with norAddr := BitVec.ofNat 26 v } }
  else if off = 0x204 then norCommand (BitVec.ofNat 2 v) s
  else if off = 0x208 then { s with regs := { s.regs with norError := s.regs.norError && !v.testBit 3, norDenied := s.regs.norDenied && !v.testBit 2 } }
  else if 0x300 ≤ off ∧ off < 0x400 then norBufWrite (off - 0x300) v s
  else s

def redField (v : Nat) (old : RedReg) : RedReg :=
  if bits v 11 0 > bits v 23 12 then old else ⟨BitVec.ofNat 8 (bits v 31 24), BitVec.ofNat 12 (bits v 23 12), BitVec.ofNat 12 (bits v 11 0)⟩

/-- A write of PORT_CTRL (R404): each field whose value it does not take keeps its old one. [DEDUCED, log 37] -/
def portCtrlOp (p v : Nat) (s : State) : State :=
  let speed := bits v 28 27
  let clock := bits v 26 25
  let idle := bits v 15 8
  let resync := bits v 7 0
  let s := modPort p (fun x => { x with
    speedMax := if speed ≤ 1 then speed else x.speedMax
    clocking := if clock = 3 ∨ (clock = 0 ∧ p ≠ 16) then x.clocking else clock
    l0pEn := v.testBit 24, l1En := v.testBit 23
    l1Idle := if idle = 0 then x.l1Idle else BitVec.ofNat 8 idle
    l1Resync := if resync ≤ 100 then BitVec.ofNat 8 resync else x.l1Resync }) s
  let s := if bits v 30 29 = (portAt s p).width then s else portWidthOp p (bits v 30 29) s
  if v.testBit 31 = (portAt s p).enable then s else if v.testBit 31 then portEnableOp p s else portDisableOp p s

/-- FM_NOTIFY: the notices of this start-up go out when it is first enabled (R450). -/
def fmNotifyWrite (v : Nat) (s : State) : State :=
  let s := { s with flt := { s.flt with notifyEnable := v.testBit 31, notifyEid := BitVec.ofNat 8 v } }
  if v.testBit 31 then
    let s' := s.flt.startNotices.foldl (fun s ws => emit (.notice ws) s) s
    { s' with flt := { s'.flt with startNotices := [] } }
  else s

/-- A write of a management register. [DEDUCED, log 37] -/
def mgmtWrite (off v : Nat) (s : State) : State :=
  if off = 0x0800 then
    if 10 ≤ bits v 13 0 ∧ bits v 13 0 ≤ 10000 then { s with coh := { s.coh with timeout := BitVec.ofNat 14 v } } else s
  else if off = 0x0804 then
    if 1 ≤ bits v 9 0 ∧ bits v 9 0 ≤ 1000 then { s with copy := { s.copy with hold := BitVec.ofNat 10 v } } else s
  else if off = 0x0808 then { s with weir := { s.weir with redG := redField v s.weir.redG } }
  else if off = 0x080C then { s with weir := { s.weir with redY := redField v s.weir.redY } }
  else if off = 0x0810 then { s with weir := { s.weir with redR := redField v s.weir.redR } }
  else if off = 0x0814 then
    if 10 ≤ bits v 12 0 ∧ bits v 12 0 ≤ 6000 then { s with port := { s.port with grace := BitVec.ofNat 13 v } } else s
  else if off = 0x0818 then
    if bits v 4 0 ≤ 16 then { s with regs := { s.regs with selLink := BitVec.ofNat 2 (bits v 9 8), selPort := BitVec.ofNat 5 v } } else s
  else if 0x0840 ≤ off ∧ off < 0x0884 then portCtrlOp ((off - 0x0840) / 4) v s
  else if off = 0x0900 then { s with pwr := { s.pwr with sscEn := v.testBit 0 } }
  else if off = 0x0904 then
    if 300 ≤ bits v 21 12 ∧ bits v 21 12 ≤ 850 then { s with pwr := { s.pwr with limit := BitVec.ofNat 10 (bits v 21 12) } } else s
  else if off = 0x090C then
    if 85 ≤ bits v 15 8 ∧ bits v 15 8 ≤ 115 ∧ 80 ≤ bits v 7 0 ∧ bits v 7 0 ≤ bits v 15 8 then
      { s with pwr := { s.pwr with throttle := BitVec.ofNat 8 (bits v 15 8), warn := BitVec.ofNat 8 v } }
    else s
  else if off = 0x0940 then
    { s with flt := { s.flt with powerLoss := s.flt.powerLoss && !v.testBit 13, flushIncomplete := s.flt.flushIncomplete && !v.testBit 12 } }
  else if off = 0x0960 then fmNotifyWrite v s
  else if off = 0x0990 then { s with regs := { s.regs with winPart := v.testBit 16, winIndex := BitVec.ofNat 16 v } }
  else s

/-- A write of the register space. -/
def regWrite (off v : Nat) (s : State) : State :=
  if off % 4 ≠ 0 then s
  else if 0x0800 ≤ off ∧ off < 0x1000 then mgmtWrite off v s
  else if 0x10000 ≤ off ∧ off < 0x11000 then terpWrite (off - 0x10000) v s
  else s

/-! ### Sluice registers (Tables 17.1 to 17.3) -/

/-- SLUICE_STATE is RW1C in its three sticky bits. -/
def sluiceStateWrite (ix v : Nat) (s : State) : State :=
  modSluice ix (fun sl => { sl with dbErr := sl.dbErr && !v.testBit 7, asyncLost := sl.asyncLost && !v.testBit 5, orphan := sl.orphan && !v.testBit 4 }) s

/-- Half of an admin ring base: ignored while ENABLE = 1, bits 11:0 reserved. -/
def adminBaseWrite (ix : Nat) (cq hi : Bool) (v : Nat) (s : State) : State :=
  modSluice ix (fun sl =>
    if sl.adminEnable then sl
    else
      let old := if cq then sl.admin.cqBase else sl.admin.sqBase
      let new := if hi then v * 2 ^ 32 + old % 2 ^ 32 else old / 2 ^ 32 * 2 ^ 32 + v / 4096 * 4096
      { sl with admin := if cq then { sl.admin with cqBase := new } else { sl.admin with sqBase := new } }) s

/-- ADMIN_CFG: the fields are taken while the queue is off, then ENABLE acts. -/
def adminCfgWrite (port : Fin 17) (ld : Fin 16) (v : Nat) (s : State) : State :=
  let ok := fun n => decide (4 ≤ n ∧ n ≤ 12)
  let s := modSluice (sluiceIx port ld) (fun sl =>
    if sl.adminEnable then sl
    else { sl with admin := { sl.admin with
      vector := bits v 26 16
      cqLog2 := if ok (bits v 11 8) then bits v 11 8 else sl.admin.cqLog2
      sqLog2 := if ok (bits v 3 0) then bits v 3 0 else sl.admin.sqLog2 } }) s
  if v.testBit 31 then adminEnableOp port ld s else adminDisableOp port ld s

/-- Vector control of an MSI-X entry: bit 0 masks it. -/
def msixControlWrite (port : Fin 17) (ld : Fin 16) (vector v : Nat) (s : State) : State :=
  if v.testBit 0 then modSluice (sluiceIx port ld) (fun sl => { sl with unmasked := sl.unmasked.filter (· ≠ vector) }) s
  else unmaskVector port ld vector s

/-- Value of a word of BAR0 of a sluice (debug space 0x01): the regions that are registers. -/
def sluiceValue (s : State) (ix off : Nat) : Nat :=
  match findSluice s ix with
  | none => 0
  | some sl =>
    let held := decide (sl.admin.held ≠ []) || sl.qps.any fun e => decide (e.2.held ≠ [])
    if off = 0x00 then boolBit (decide (ix = mgmtIx)) 24 + sl.hid * 2 ^ 16 + ix / 16 * 2 ^ 8 + ix % 16
    else if off = 0x04 then
      boolBit sl.dbErr 7 + boolBit held 6 + boolBit sl.asyncLost 5 + boolBit sl.orphan 4
        + (match sl.state with | .unmatched => 0 | .ready => 1 | .held => 2)
    else if off = 0x08 then 255 * 2 ^ 16 + 2047
    else if off = 0x0C then sl.ifVersion.toNat
    else if off = 0x10 then sl.orphanCount
    else if off = 0x14 then sl.staleCount
    else if off = 0x18 then sl.dbErrCount
    else if off = 0x1C then sl.cqHoldCount
    else if off = 0x20 then sl.asyncDropCount
    else if off = 0x1000 then bits sl.admin.sqBase 31 0
    else if off = 0x1004 then sl.admin.sqBase / 2 ^ 32
    else if off = 0x1008 then bits sl.admin.cqBase 31 0
    else if off = 0x100C then sl.admin.cqBase / 2 ^ 32
    else if off = 0x1010 then boolBit sl.adminEnable 31 + sl.admin.vector * 2 ^ 16 + sl.admin.cqLog2 * 2 ^ 8 + sl.admin.sqLog2
    else if off = 0x1014 then boolBit sl.adminReady 0
    else if 0x10000 ≤ off ∧ off < 0x20000 ∧ off % 0x100 = 8 then
      (match tabFind sl.qps ((off - 0x10000) / 0x100) with
      | none => 0
      | some r => boolBit true 31 + boolBit (intakePaused s ix) 30 + boolBit (decide (r.held ≠ [])) 29 + r.sqHead % 2 ^ 16)
    else if 0x20000 ≤ off ∧ off < 0x28000 then
      (if off % 16 = 12 then boolBit (!sl.unmasked.contains ((off - 0x20000) / 16)) 0
      else (tabGet sl.msixWords 0 ((off - 0x20000) / 4)).toNat)
    else if 0x28000 ≤ off ∧ off < 0x28100 then
      ((List.range 32).map fun i => boolBit (sl.msixPending.contains ((off - 0x28000) * 8 + i)) i).sum
    else 0

/-- `REGISTER_WRITE`: registers without a row of their own, and the selectors. -/
def registerWriteOp (reg : RwReg) (v : Word) (s : State) : State :=
  let v := v.toNat
  match reg with
  | .cohTimeout => mgmtWrite 0x0800 v s
  | .burstHold => mgmtWrite 0x0804 v s
  | .weirRedG => mgmtWrite 0x0808 v s
  | .weirRedY => mgmtWrite 0x080C v s
  | .weirRedR => mgmtWrite 0x0810 v s
  | .hostGrace => mgmtWrite 0x0814 v s
  | .linkSel => mgmtWrite 0x0818 v s
  | .portCtrl p => portCtrlOp p v s
  | .clkCtrl => mgmtWrite 0x0900 v s
  | .govCtrl => mgmtWrite 0x0904 v s
  | .thermCtrl => mgmtWrite 0x090C v s
  | .faultSummary => mgmtWrite 0x0940 v s
  | .fmNotify => mgmtWrite 0x0960 v s
  | .recWinSel => mgmtWrite 0x0990 v s
  | .precSel => terpWrite 0x080 v s
  | .terpIrqStatus => terpWrite 0x00C v s
  | .ioCtrl => terpWrite 0x04C v s
  | .norAddr => terpWrite 0x200 v s
  | .norStatus => terpWrite 0x208 v s
  | .norBuf w => terpWrite (0x300 + 4 * w.val) v s
  | .sluiceState p l => sluiceStateWrite (sluiceIx p l) v s
  | .asqBaseLo p l => adminBaseWrite (sluiceIx p l) false false v s
  | .asqBaseHi p l => adminBaseWrite (sluiceIx p l) false true v s
  | .acqBaseLo p l => adminBaseWrite (sluiceIx p l) true false v s
  | .acqBaseHi p l => adminBaseWrite (sluiceIx p l) true true v s
  | .adminCfg p l => adminCfgWrite p l v s
  | .msixEntry p l k w => modSluice (sluiceIx p l) (fun sl => { sl with msixWords := tabPut sl.msixWords 0 (k.toNat * 4 + w.val) (b32 v) }) s
  | .msixControl p l k => msixControlWrite p l k.toNat v s
  | .ringWindow p l off => modSluice (sluiceIx p l) (windowWrite (4 * off.toNat) (toBytes 4 v)) s
  | .other off => if [0x0800, 0x0804, 0x0808, 0x080C, 0x0810, 0x0814].contains off.toNat then regWrite off.toNat v s else s

/-- `RC_REGISTER_READ`. -/
def rcReadOp (reg : RcReg) (s : State) : State :=
  let count := fun (p : Fin 17) (l : Fin 16) (off : Nat) (f : Sluice → Sluice) =>
    emit (.regRead (b32 (sluiceValue s (sluiceIx p l) off))) (modSluice (sluiceIx p l) f s)
  match reg with
  | .orphanCount p l => count p l 0x10 fun sl => { sl with orphanCount := 0 }
  | .staleCount p l => count p l 0x14 fun sl => { sl with staleCount := 0 }
  | .dbErrCount p l => count p l 0x18 fun sl => { sl with dbErrCount := 0 }
  | .cqHoldCount p l => count p l 0x1C fun sl => { sl with cqHoldCount := 0 }
  | .asyncDropCount p l => count p l 0x20 fun sl => { sl with asyncDropCount := 0 }
  | .thermStatus => readOne 0x0910 s
  | .supplyStatus => readOne 0x10008 s
  | .recFullDrops => readOne 0x0984 s
  | .recFrozenDrops => readOne 0x0988 s
  | .interlockCount => readOne 0x10044 s
  | .ilWritesRefused => readOne 0x10048 s
  | .glitchCount => readOne 0x10050 s
  | .norStatus => readOne 0x10208 s
  | .linkCounter n => readOne (0x08C4 + 4 * n.val) s

/-! ### The BMC bus (R485, R494, R497) -/

/-- A transfer whose offset and length fit the terp registers. [DEDUCED, log 51] -/
def transferOk (offset len : Nat) : Bool := decide (offset % 4 = 0 ∧ len % 4 = 0 ∧ offset + len ≤ 0x1000 ∧ offset < 0x1000)

/-- Writes registers from an offset on. -/
def writeTerps (offset : Nat) (data : List Byte) (s : State) : State :=
  (List.range (data.length / 4)).foldl (fun s k => terpWrite (offset + 4 * k) (ofBytes ((data.drop (4 * k)).take 4)) s) s

def readTerps (offset count : Nat) (s : State) : State :=
  let (values, s) := readRegs false count (0x10000 + offset) s
  emit (.bmc (values.flatMap (toBytes 4))) s

/-- `I3C_REGISTER_WRITE`. -/
def i3cWrite (offset : Nat) (data : List Byte) (s : State) : State :=
  if !s.pins.terpUp || s.pins.smbus || !transferOk offset data.length || decide (data.length > 256) then s
  else writeTerps offset data { s with regs := { s.regs with i3cOffset := offset } }

/-- `I3C_REGISTER_READ`: `count` registers from the offset of the last register transfer on. -/
def i3cRead (count : Nat) (s : State) : State :=
  let off := s.regs.i3cOffset
  if !s.pins.terpUp || s.pins.smbus || !transferOk off (4 * count) then s
  else readTerps off count { s with regs := { s.regs with i3cOffset := off + 4 * count } }

/-- `SMBUS_BLOCK_WRITE`. -/
def smbusWrite (offset : Nat) (data : List Byte) (pecOk : Bool) (s : State) : State :=
  if !s.pins.terpUp || !s.pins.smbus || !pecOk || !transferOk offset data.length || decide (data.length < 4 ∨ data.length > 252) then s
  else writeTerps offset data s

/-- `SMBUS_PROCESS_CALL`. -/
def smbusCall (offset len : Nat) (pecOk : Bool) (s : State) : State :=
  if !s.pins.terpUp || !s.pins.smbus || !pecOk || !transferOk offset len || decide (len < 4 ∨ len > 252) then s
  else readTerps offset (len / 4) s

/-- FM API commands with a row of their own (Table 20.3), and SPDM requests with one (Table 8.5). [PRESUMED, log 32] -/
def fmApiKnown (op : Nat) : Bool := [0x0001, 0x5400, 0x5401, 0x5402, 0x5405, 0xC960, 0xC961, 0xC962].contains op
def spdmKnown (code : Nat) : Bool := [0x84, 0xE1, 0xE3, 0x81, 0x82, 0x83, 0xE0, 0xE4, 0xE5, 0xE8, 0xE9, 0xEC, 0xFE].contains code

/-- `MCTP_PACKET`: what it carries beyond the commands that have rows of their own is answered as not supported, or dropped. [DEDUCED, log 51] -/
def mctpOp (payload : McptPayload) (s : State) : State :=
  if s.pins.smbus then s
  else match payload with
    | .fmApi op => if fmApiKnown op.toNat then s else fmCommand (fmReply 3 []) s
    | .spdm code => if spdmKnown code.toNat || !secAnswers s then s else spdmError .mctp 0x07 s
    | .other _ => s

/-- `BMC_BUS_TIMEOUT`: the transaction is abandoned; in SMBus mode the event is counted. [DEDUCED, log 51] -/
def busTimeoutOp (s : State) : State :=
  if s.pins.terpUp && s.pins.smbus then { s with regs := { s.regs with busTimeouts := s.regs.busTimeouts + 1 } } else s

/-- `I3C_TARGET_RESET`. -/
def i3cReset (s : State) : State :=
  if s.pins.terpUp && !s.pins.smbus then { s with regs := { s.regs with i3cAddress := none, ibiEnabled := false, ibi := none, i3cOffset := 0 } } else s

/-- `I3C_COMMON_COMMAND`. -/
def i3cCommand (ccc : I3cCcc) (s : State) : State :=
  if !s.pins.terpUp || s.pins.smbus then s
  else match ccc with
    | .setdasa a => { s with regs := { s.regs with i3cAddress := some a } }
    | .entdaa a => { s with regs := { s.regs with i3cAddress := some a } }
    | .enec => { s with regs := { s.regs with ibiEnabled := true } }

/-- `IBI_RETRY`: an interrupt that the controller refused is raised once more after 1 ms, and then dropped. -/
def ibiRetryOp (accepted : Bool) (s : State) : State :=
  match s.regs.ibi with
  | none => s
  | some (b, retried) =>
    if accepted || retried then { s with regs := { s.regs with ibi := none } }
    else emit (.ibi b) { s with regs := { s.regs with ibi := some (b, true) } }

/-! ### Latching reads with rows of their own -/

/-- `REC_WIN_LATCH`. -/
def recWinLatchOp (prec : Bool) (s : State) : State := readOne (if prec then 0x100A0 else 0x09A0) s

/-- `TIME_LO_READ` and `BEAT_LO_READ`. -/
def timeLoOp (s : State) : State := readOne 0x10018 s
def beatLoOp (s : State) : State := readOne 0x10020 s

end Sys2Proof.Machine
end

