-- ==== Sys2Proof/Machine/Firmware.lean ====
section
/-!
DEFINITION. Start-up, the calibration set, staging and activation of firmware (chapters 19 and 24), with the tray population
that start-up finds (R27, R28, R110) and the recorder's NOR slots (R457, R458).
-/

namespace Sys2Proof.Machine

/-! ### The calibration set (R465 to R470) -/

/-- Little-endian number of `n` bytes at an offset. -/
def leAt (l : List Byte) (off n : Nat) : Nat := ofBytes ((l.drop off).take n)

/-- A signed 16-bit field lies within plus and minus a bound. -/
def within16 (bound v : Nat) : Bool := decide (v ≤ bound ∨ 65536 - bound ≤ v)

/-- DIGEST of a set: SHA3-256 of all its bytes with its own 32 read as zero. -/
def calDigest (l : List Byte) : Nat := sha3 (l.take 0x20 ++ List.replicate 32 0 ++ l.drop 0x40)

/-- A set passes its check (R466). -/
def calOk (serial l : List Byte) : Bool :=
  decide (l.length = 8192 ∧ leAt l 0 4 = 0x42594341 ∧ leAt l 4 2 = 1 ∧ leAt l 6 2 = 0 ∧ leAt l 8 4 = 8192 ∧ leAt l 0x0C 4 = 0)
    && decide ((l.drop 0x10).take 16 = serial) && (l.drop 0x1D10).all (fun b => decide (b = 0))
    && ((List.range 72).all fun i => within16 1024 (leAt l (0x1BC0 + 2 * i) 2))
    && ((List.range 32).all fun i => within16 300 (leAt l (0x1C50 + 2 * i) 2))
    && decide (leAt l 0x20 32 = calDigest l)

/-- The set of R469: DEFAULTS = 1, nominal seeds and trims, zero offsets and supply trims, and a valid DIGEST. [DESIGN CHOICE, log 23] -/
def defaultSet (serial : List Byte) : List Byte :=
  let head := toBytes 4 0x42594341 ++ toBytes 2 1 ++ toBytes 2 1 ++ toBytes 4 8192 ++ toBytes 4 0 ++ serial
  let body := ((List.range 0x1B80).map fun i => Config.nominalSeed (0x40 + i)) ++ List.replicate 0xD0 0
    ++ ((List.range 0x80).map fun i => Config.nominalSeed (0x1C90 + i)) ++ List.replicate 0x2F0 0
  head ++ toBytes 32 (calDigest (head ++ List.replicate 32 0 ++ body)) ++ body

/-- Bytes as a sparse table without its zeros. -/
def sparseBytes (l : List Byte) : List Host.Cell := (l.mapIdx fun i b => (i, b)).filter fun e => decide (e.2 ≠ 0)

def shadowBytes (s : State) : List Byte := (List.range 8192).map fun i => tabGet s.ident.shadow 0 i

/-- A measurement block takes a value (Table 8.6). -/
def setMeasure (n : Nat) (v : BitVec 256) (s : State) : State :=
  { s with fw := { s.fw with measurements := tabPut s.fw.measurements 0 n v } }

/-- The shadow takes a set. -/
def setShadow (l : List Byte) (uncalibrated : Bool) (s : State) : State :=
  { s with ident := { s.ident with shadow := sparseBytes l, uncalibrated := uncalibrated } }

/-- NOR address of the calibration area (Table 19.2). -/
def calBase : Nat := 0x03000000

/-- Step 4 of Table 19.3: the set in the NOR, or the defaults (R467). -/
def loadCalibration (s : State) : State :=
  let l := (List.range 8192).map fun i => norByte s (calBase + i)
  if calOk s.ident.serial l then setShadow l false s else setShadow (defaultSet s.ident.serial) true s

/-- A NOR range reads as erased. -/
def norWipe (a n : Nat) (s : State) : State :=
  { s with ident := { s.ident with nor := tabFilter s.ident.nor fun k _ => !(decide (a ≤ k ∧ k < a + n)) } }

/-- Another command writes or reads the NOR (R470: one at a time); such a command is in phase 2 or 3. [DEDUCED, log 52] -/
def norTaken (s : State) (c : Cmd) : Bool :=
  s.q.cmds.any fun d => decide (d.serial ≠ c.serial ∧ 2 ≤ d.phase) && [0x30, 0x31, 0xE0].contains d.opcode

/-- LENGTH and HPA of R373. -/
def calFields (c : Cmd) : Bool := decide (4096 ≤ wordAt c.words 6 ∧ wordAt c.words 6 ≤ 65536 ∧ word64 c.words 4 % 4096 = 0)

/-- `CAL_EXPORT`; it waits while another command has the NOR. [DEDUCED, log 59] -/
def calExportBody (c : Cmd) (s : State) : State :=
  if !calFields c ∨ wordAt c.words 6 < 8192 then finishWith c .invalid 0 s
  else if norTaken s c then s
  else
    let s := modCmd c.serial (fun c => { c with phase := 2 }) s
    let data := shadowBytes s
    finishHpa c (word64 c.words 4) (if hpaCarried c.src (word64 c.words 4) then data.take 4096 else data) { value := 8192 } s

/-- The bytes that a `CAL_IMPORT` or `FW_STAGE` reads at its HPA. -/
def hpaBytes (s : State) (c : Cmd) : Option (List Byte) := hostBytes c.host (srcHid s c.src) (word64 c.words 4) (wordAt c.words 6)

/-- `CAL_IMPORT` up to the start of the erase of the NOR area (Table 24.3 steps 1 to 3). -/
def calImportBody (c : Cmd) (s : State) : State :=
  if !calFields c then finishWith c .invalid 0 s
  else if norTaken s c then s
  else if (hpaBytes s c).any (calOk s.ident.serial) then
    norWipe calBase 65536 (modCmd c.serial (fun c => { c with phase := 2, decided := true }) s)
  else finishWith c .invalid 0 s

/-- The end of a `CAL_IMPORT`'s programming and read-back; after a second mismatch the area is left erased. -/
def calProgrammed (c : Cmd) (ok : Bool) (s : State) : State :=
  let l := (hpaBytes s c).getD []
  if ok then
    let s := setShadow l false (norPut calBase l s)
    let s := setMeasure 7 (BitVec.ofNat 256 (sha3 l)) s
    finishWith c .ok 0 (writeEvent 0x09 0 0 64 0 (2 ^ 7) s)
  else if c.phase = 2 then modCmd c.serial (fun c => { c with phase := 3 }) s
  else finishWith c .invalid 0 s

/-! ### The terp's start-up (Table 19.3) -/

/-- Starts the erase of a record slot. [DEDUCED, log 52] -/
def eraseSlot (b : Bool) (s : State) : State := { s with recorder := { s.recorder with erasing := some b, norReady := false } }

/-- The valid slot with the higher SEQ: false A, true B. [DEDUCED, log 52] -/
def newestSlot (r : RecSt) : Option Bool :=
  match slotValid r.slotA, slotValid r.slotB with
  | false, false => none
  | true, false => some false
  | false, true => some true
  | true, true => some (decide (r.slotA.seq.toNat < r.slotB.seq.toNat))

/-- The newer slot is loaded into the empty ring and the other slot is erased (R458); with neither valid, slot A is erased. [DEDUCED, log 52] -/
def loadRecorder (s : State) : State :=
  match newestSlot s.recorder with
  | none => eraseSlot false s
  | some b =>
    let recs := (if b then s.recorder.slotB else s.recorder.slotA).records
    eraseSlot (!b) { s with recorder := { s.recorder with persistent := recs, recovered := recs.length } }

/-- `TERP_SUPPLY_VALID`: steps 1 to 5 of Table 19.3. -/
def terpStart (f : TerpInputs) (s : State) : State :=
  if s.pins.terpUp then s
  else
    let s := { s with
      ident := { s.ident with serial := (f.serial ++ List.replicate 16 0).take 16, dies := f.dies, minSvn := f.minSvn }
      port := resetPorts f.clkMode
      pins := { s.pins with terpUp := true, booting := true, smbus := f.smbus, clkMode := f.clkMode
                            sampleA := f.closedA, sampleB := f.closedB, closedA := f.closedA, closedB := f.closedB } }
    writeEvent 0x0D 0 0 64 0 0 (interlockState (loadRecorder (loadCalibration s)))

/-! ### Selection of the bundle (R383, R384) -/

/-- The minimum SVN of the fuses is met. -/
def svnOk (s : State) (svn : BitVec 16) : Bool := decide (s.ident.minSvn.toNat ≤ svn.toNat)

/-- A bundle as SEC reads it. [DEDUCED, log 53] -/
def readBundle (s : State) (r : BundleRead) : BundleCopy :=
  { manifest := { version := r.version, ifVersion := r.ifVersion, arith := r.arith, svn := r.svn
                  handoffMin := r.handoffMin.toNat, handoffMax := r.handoffMax.toNat, handoff := r.handoff.toNat }
    verifies := r.signed && svnOk s r.svn, consistent := r.consistent, known := true, digests := r.digests }

/-- A copy in the NOR: what the device wrote itself, or what SEC reads. -/
def copyRead (s : State) (c : BundleCopy) (r : BundleRead) : BundleCopy :=
  if c.known then c else { readBundle s r with markedInvalid := c.markedInvalid }

/-- The copies to try, in order: copy B is `true`. -/
def tryOrder (a b : BundleCopy) : List (Bool × BundleCopy) :=
  (if b.manifest.version.toNat > a.manifest.version.toNat then [(true, b), (false, a)] else [(false, a), (true, b)]).filter
    fun e => !e.2.markedInvalid

/-- The first copy of the order that verifies. -/
def firstGood (l : List (Bool × BundleCopy)) : Option (Bool × BundleCopy) := l.find? fun e => e.2.verifies

/-- COPY_A or COPY_B of BOOT_STATUS: the copies up to the first that verifies have been examined. -/
def copyMark (l : List (Bool × BundleCopy)) (b : Bool) (c : BundleCopy) : CopyMark :=
  let tried := l.take (l.findIdx (fun e => e.2.verifies) + 1)
  if c.markedInvalid then .invalid
  else if tried.all (fun e => e.1 ≠ b) then .notExamined
  else if c.verifies then .verified
  else .failed

/-- Measurement blocks 1 to 9 (Table 8.6). [DESIGN CHOICE, log 24] [DEDUCED, log 53] -/
def measureAll (bootRom : BitVec 256) (s : State) : State :=
  let s := setMeasure 1 bootRom s
  let s := (List.range 5).foldl (fun s i => setMeasure (i + 2) (s.fw.running.digests.getD i 0) s) s
  let s := setMeasure 7 (BitVec.ofNat 256 (sha3 (shadowBytes s))) s
  let s := setMeasure 8 (Config.lockDigest 0) s
  setMeasure 9 (BitVec.ofNat 256 (sha3 (s.ident.dies.flatMap wordsToBytes))) s

/-! ### The population of the tray (R27, R28, R110) -/

def noDdr : DdrFit := ⟨0, 0, 0, false, false⟩
def noNand : NandFit := ⟨0, 0, false, false, 0, false⟩

def ddrFit (t : TrayInputs) (n : Nat) : DdrFit := t.ddr.getD n noDdr
def nandFit (t : TrayInputs) (n : Nat) : NandFit := t.nand.getD n noNand

/-- The lowest-numbered populated DDR channel. -/
def ddrRef (t : TrayInputs) : Option DdrFit := (((List.range 24).map (ddrFit t)).find? fun f => f.dimms ≠ 0)

/-- The condition of R28 that a DDR channel fails, as EVENT 0x12 names it. [DEDUCED, log 53] -/
def ddrFailure (t : TrayInputs) (n : Nat) : Option Nat :=
  let f := ddrFit t n
  match ddrRef t with
  | none => some 0
  | some r =>
    if f.dimms ≠ r.dimms ∨ f.gib ≠ r.gib ∨ f.part ≠ r.part then some 0
    else if !f.spdOk then some 1
    else if !f.trained then some 2
    else none

def ddrPresent (t : TrayInputs) : List Nat := (List.range 24).filter fun n => (ddrFailure t n).isNone

/-- NAND channels that carry dies, and their reference part. -/
def nandPopulated (t : TrayInputs) : List Nat := (List.range 64).filter fun n => decide ((nandFit t n).dies ≠ 0)
def nandRef (t : TrayInputs) : Option NandFit := ((nandPopulated t).head?).map (nandFit t)

/-- The condition of R110 that a populated NAND channel fails. [DEDUCED, log 53] -/
def nandFailure (t : TrayInputs) (n : Nat) : Option Nat :=
  let f := nandFit t n
  if f.dies ≠ 16 then some 0
  else if !f.pageOk then some 1
  else if (nandRef t).any fun r => r.part ≠ f.part then some 2
  else if !f.limitsOk then some 3
  else none

/-- Homes of the map reserves: assigned so far, reserves per DDR channel, next place of each die's rotation. -/
structure MapPlan where
  homes : Tab Nat := []
  used : Tab Nat := []
  turn : Tab Nat := []

/-- The map reserve of one NAND channel is placed (R27). [DEDUCED, log 53] -/
def placeMap (share : Nat) (present : List Nat) (m : MapPlan) (n : Nat) : MapPlan :=
  let die := n / 16
  let own := present.filter fun c => c / 6 = die
  let k := tabGet m.turn 0 die % max 1 own.length
  let room := fun c => decide (tabGet m.used 0 c < share)
  let put := fun c => { m with homes := tabInsert m.homes n c, used := tabInsert m.used c (tabGet m.used 0 c + 1) }
  match (own.drop k ++ own.take k).find? room with
  | some c => { put c with turn := tabInsert m.turn die (own.findIdx (fun x => x = c) + 1) }
  | none => match (present.filter fun c => c / 6 ≠ die).find? room with
    | some c => put c
    | none => m

/-- The carve-out: S, M, P, capacities and the homes of the maps. -/
def trayOf (t : TrayInputs) : TraySt :=
  let present := ddrPresent t
  let m := (nandPopulated t).length
  let p := present.length
  let share := (m + 8 + p - 1) / max 1 p
  { ddrPresent := present.foldl (fun v n => v ||| BitVec.ofNat 24 (2 ^ n)) 0
    dimmGib := ((ddrRef t).map fun f => f.dimms.toNat * f.gib.toNat).getD 0
    share := share, reserve := m, present := p, nandGib := t.nandGib.toNat
    mapHome := ((nandPopulated t).foldl (placeMap share present) {}).homes
    fwFree := 4 }

/-- The tray DRAM can hold the carve-out on two dies (R28). -/
def trayHolds (t : TrayInputs) : Bool :=
  let x := trayOf t
  decide (2 ≤ ((ddrPresent t).map (· / 6)).dedup.length) && decide (2 * x.share ≤ x.dimmGib)

/-- A NAND channel that has passed the checks of R110 comes up; dies and channels are evaluated anew (R123), and erases that a
power loss abandoned are made again (R125). -/
def bringNand (f : NandFit) (ch : Nat) (s : State) : State :=
  let s := modNand ch (fun n => { n with
    present := true, health := if n.exhausted then .readOnly else .ok
    dies := tabMap n.dies {} fun _ x => { x with failed := false, writes := x.writes ++ x.reerase.map fun b => { id := 0, kind := .erase, block := b, issued := s.time } } }) s
  let s := (maskBits 16 f.badDies.toNat).foldl (fun s d => dieFail ch d s) s
  if f.coreOk then s else nandFail ch s

/-- Step 6 of Table 19.4 on one NAND channel. -/
def startNand (t : TrayInputs) (s : State) (ch : Nat) : State :=
  match nandFailure t ch with
  | some d => writeEvent 0x02 ch 0 64 0 d s
  | none => bringNand (nandFit t ch) ch s

/-- A channel whose last record is an entry into staged mode has lost its flush (R449). -/
def findIncomplete (s : State) : State :=
  let bad := ((List.range 64).filter fun n => s.flt.stagedRecord.getLsbD n && (nandOf s n).present).foldl
    (fun (m : BitVec 64) n => m ||| BitVec.ofNat 64 (2 ^ n)) 0
  { s with flt := { s.flt with incomplete := bad, flushIncomplete := s.flt.flushIncomplete || decide (bad ≠ 0), stagedRecord := s.flt.stagedRecord &&& ~~~bad } }

/-- The four notices after a power loss, one for each die, which also wait for FM_NOTIFY (R450). -/
def lossNotices (s : State) : State :=
  (List.range 4).foldl (fun s d =>
    let sub : Subject := { kind := 0x11, unit := d * 2 ^ 18 + bits s.flt.incomplete.toNat (16 * d + 15) (16 * d) }
    let words := noticeWords sub s.flt.noticeSeq.toNat s.recorder.recovered 0 s.time
    let s := writeNotice sub s.recorder.recovered 0 s.time s
    { s with flt := { s.flt with startNotices := s.flt.startNotices ++ [words] } }) s

/-- What a start-up after a power loss reports. [DEDUCED, log 56] -/
def reportLoss (s : State) : State :=
  if s.flt.lossPending then lossNotices { s with flt := { s.flt with powerLoss := true, lossPending := false } } else s

/-! ### The device's start-up (Table 19.4) -/

/-- The serial's CRC-32 checks (R471). -/
def serialOk (s : State) : Bool := decide (leAt s.ident.serial 12 4 = crc32 (s.ident.serial.take 12))

/-- Step 6: population, NAND checks, and the device accepts binds and `POLDER_CREATE`. [DEDUCED, log 53] -/
def startTray (t : TrayInputs) (s : State) : State :=
  let s := (List.range 24).foldl (fun s n => match ddrFailure t n with | none => s | some d => writeEvent 0x12 n 0 64 0 d s) s
  if !trayHolds t then enterTerpOnly 5 5 s
  else
    let s := { s with tray := trayOf t }
    let s := (nandPopulated t).foldl (startNand t) s
    let s := reportLoss (findIncomplete s)
    raiseIrq 4 { s with fw := { s.fw with started := true, step := 6 } }

/-- Steps 2 to 5: the selected copy runs, the measurements are formed, the ports train. -/
def startCopy (t : TrayInputs) (b : Bool) (c : BundleCopy) (s : State) : State :=
  let s := measureAll t.bootRom { s with fw := { s.fw with running := c, active := b, step := 5 }
                                         pins := { s.pins with booting := false } }
  startTray t ((List.range 17).foldl (fun s p => startPort p s) s)

/-- `SYS_RESET_RELEASE`: the start-up, unless a reset is still held or a NOR window command delays it (R387, R498). [DEDUCED, log 53] -/
def startDevice (t : TrayInputs) (s : State) : State :=
  if !s.pins.terpUp ∨ s.fw.started ∨ s.fw.terpOnly ∨ s.pwr.tripped ∨ s.flt.lossHeld then s
  else
    let s := { s with pins := { s.pins with sysResetHigh := true } }
    if s.regs.norBusy.isSome then s
    else
      let s := if s.recorder.norReady ∨ s.recorder.erasing.isSome then s else eraseSlot (!(newestSlot s.recorder).getD true) s
      if !t.secOk ∨ !serialOk s then enterTerpOnly 4 1 s
      else
        let a := copyRead s s.fw.copyA t.copyA
        let b := copyRead s s.fw.copyB t.copyB
        let l := tryOrder a b
        let s := { s with fw := { s.fw with copyA := a, copyB := b, copyMarkA := copyMark l false a, copyMarkB := copyMark l true b } }
        match firstGood l with
        | none => enterTerpOnly 1 1 s
        | some (which, c) => if c.consistent then startCopy t which c s else enterTerpOnly 2 1 s

/-- `START_UP_STEP_TIMEOUT`: a step overruns its bound by more than 100 ms. [DEDUCED, log 53] -/
def stepOverruns (step : BitVec 8) (s : State) : State :=
  let due := if step = 7 then s.fw.started && decide (s.fw.step = 6) else decide (1 ≤ step.toNat ∧ step.toNat ≤ 6) && !s.fw.started
  if !s.pins.terpUp ∨ s.fw.terpOnly ∨ s.pwr.tripped ∨ s.flt.lossHeld ∨ due = false then s
  else
    let s := enterTerpOnly 3 (step - 1) s
    { s with pins := { s.pins with sysResetHigh := true } }

/-- Every present NAND channel has loaded its map: step 7. -/
def mapsLoaded (s : State) : State :=
  if s.fw.step = 6 ∧ s.ftl.chans.all (fun e => !e.2.present || e.2.mapLoaded) then { s with fw := { s.fw with step := 7 } } else s

/-- `MAP_LOAD_COMPLETE`. -/
def mapLoadOp (ch : Nat) (reps : List SegmentReplicas) (s : State) : State := mapsLoaded (mapLoad ch reps s)

/-- `ZERO_FILL_COMPLETE`: a slice joins the free pool; a channel that carries a failed mark returns to use only when its
read-back passes (R140, R388). [DEDUCED, log 56] -/
def zeroFilled (slice : FillSlice) (readBackOk : Bool) (s : State) : State :=
  if !s.fw.started then s
  else match slice with
    | .ddr n =>
      if !s.tray.ddrPresent.getLsbD n.val ∨ s.fw.filledDdr.getLsbD n.val ∨ s.pins.ilOpen ∨ s.pins.ilFault then s
      else if s.res.failedDdr.getLsbD n.val && !readBackOk then writeEvent 0x12 n.val 0 64 0 3 s
      else { s with res := { s.res with failedDdr := s.res.failedDdr &&& ~~~BitVec.ofNat 24 (2 ^ n.val) }
                    fw := { s.fw with filledDdr := s.fw.filledDdr ||| BitVec.ofNat 24 (2 ^ n.val) } }
    | .hbm n =>
      if s.fw.filledHbm.getLsbD n.val then s
      else if s.res.failedHbm.getLsbD n.val && !readBackOk then writeEvent 0x12 (0x100 + n.val) 0 64 0 3 s
      else { s with res := { s.res with failedHbm := s.res.failedHbm &&& ~~~BitVec.ofNat 256 (2 ^ n.val) }
                    fw := { s.fw with filledHbm := s.fw.filledHbm ||| BitVec.ofNat 256 (2 ^ n.val) } }
    | .row n => { s with fw := { s.fw with filledRow := s.fw.filledRow ||| BitVec.ofNat 53 (2 ^ n.val) } }

/-! ### Staging (R391) -/

/-- The copy that does not run. -/
def inactiveCopy (s : State) : BundleCopy := if s.fw.active then s.fw.copyA else s.fw.copyB

def putInactive (c : BundleCopy) (s : State) : State :=
  if s.fw.active then { s with fw := { s.fw with copyA := c } } else { s with fw := { s.fw with copyB := c } }

/-- NOR address of the inactive copy. -/
def inactiveBase (s : State) : Nat := if s.fw.active then 0 else 0x01800000

/-- Step 3 of R391: the inactive copy is marked invalid and programming begins. -/
def stageProgram (c : Cmd) (s : State) : State :=
  let s := putInactive { markedInvalid := true, known := true } s
  let s := { s with fw := { s.fw with staged := false, staging := none } }
  norWipe (inactiveBase s) 0x01800000 (modCmd c.serial (fun c => { c with phase := 2, decided := true }) s)

/-- `FW_STAGE` up to the start of its programming, for which it waits while another command has the NOR. [DEDUCED, log 54] -/
def fwStageBody (r : BundleRead) (c : Cmd) (s : State) : State :=
  let b := readBundle s r
  let len := wordAt c.words 6
  let other := s.q.cmds.any fun d => decide (d.opcode = 0xE0 ∧ d.serial ≠ c.serial ∧ 1 ≤ d.phase)
  if len < 65536 ∨ 25165824 < len ∨ word64 c.words 4 % 4096 ≠ 0 then finishWith c .invalid 0 s
  else if other ∨ s.fw.activating.isSome then finishWith c .held 0 s
  else if (hpaBytes s c).isNone ∨ !b.verifies ∨ !b.consistent then finishWith c .imageRefused 0 s
  else
    let s := { s with fw := { s.fw with candidate := some b } }
    if norTaken s c then modCmd c.serial (fun c => { c with phase := 1 }) s else stageProgram c s

/-- The programming and read-back of `FW_STAGE` end. -/
def stageDone (c : Cmd) (ok : Bool) (s : State) : State :=
  match s.fw.candidate with
  | none => s
  | some b =>
    let s := { s with fw := { s.fw with candidate := none } }
    if ok then
      let s := norPut (inactiveBase s) ((hpaBytes s c).getD []) (putInactive b s)
      finishWith c .ok (b.manifest.version.toNat % 2 ^ 32) { s with fw := { s.fw with staged := true, staging := some b } }
    else finishWith c .imageRefused 0 s

/-- `DEVICE_NOR_WRITE_COMPLETE`. -/
def norWriteDone (w : NorWrite) (ok : Bool) (s : State) : State :=
  match w with
  | .slotErase =>
    match s.recorder.erasing with
    | none => s
    | some b =>
      if !ok then s
      else { s with recorder := { s.recorder with
        erasing := none, norReady := true
        slotA := if b then s.recorder.slotA else {}, slotB := if b then {} else s.recorder.slotB } }
  | .fwStage => match s.q.cmds.find? fun c => decide (c.opcode = 0xE0 ∧ c.phase = 2) && c.outcome.isNone with
    | none => s
    | some c => stageDone c ok s
  | .calImport => match s.q.cmds.find? fun c => decide (c.opcode = 0x31 ∧ 2 ≤ c.phase) && c.outcome.isNone with
    | none => s
    | some c => calProgrammed c ok s

/-! ### Activation (R392 to R394) -/

/-- Intake resumes: captured doorbells and waiting flash writes go on. -/
def resumeIntake (s : State) : State :=
  let s := { s with fw := { s.fw with activating := none }, q := { s.q with intakeHeld := false } }
  let s := releaseDoorbells s
  (s.ftl.chans.map (·.1)).foldl (fun s ch => admitAll ch s) s

/-- The activation rolls back: the old image runs on and the new copy is marked invalid (R393). [DEDUCED, log 54] -/
def rollBack (serial : Nat) (st : Status) (s : State) : State :=
  let s := putInactive { inactiveCopy s with markedInvalid := true } s
  finish serial { status := st } (resumeIntake { s with fw := { s.fw with staged := false, staging := none } })

/-- Blocks 2 to 6 that a bundle changes, as the DETAIL of EVENT 0x09. -/
def changedBlocks (s : State) (b : BundleCopy) : Nat :=
  ((List.range 5).map fun i => boolBit (decide (tabGet s.fw.measurements 0 (i + 2) ≠ b.digests.getD i 0)) (i + 2)).sum

/-- Sluices after an activation: their IF_VERSION, and UNMATCHED where a READY one sees a changed version. -/
def reversion (old new : BitVec 32) (sl : Sluice) : Sluice :=
  { sl with ifVersion := new, state := if old ≠ new ∧ sl.state = .ready then .unmatched else sl.state }

/-- Steps 3 to 5 of Table 19.6: the staged bundle runs. [DEDUCED, log 54] -/
def activated (c : Cmd) (b : BundleCopy) (s : State) : State :=
  let old := s.fw.running.manifest
  let mask := changedBlocks s b
  let older := decide (b.manifest.version.toNat < old.version.toNat)
  let s := { s with fw := { s.fw with
    running := b, active := !s.fw.active, staged := false, staging := none
    copyA := if older && !s.fw.active then { s.fw.copyA with markedInvalid := true } else s.fw.copyA
    copyB := if older && s.fw.active then { s.fw.copyB with markedInvalid := true } else s.fw.copyB } }
  let s := (List.range 5).foldl (fun s i => setMeasure (i + 2) (b.digests.getD i 0) s) s
  let s := if mask = 0 then s else writeEvent 0x09 0 0 64 0 mask s
  let s := { s with q := { s.q with sluices := s.q.sluices.map fun e => (e.1, reversion old.ifVersion b.manifest.ifVersion e.2) } }
  let s := finishWith c .ok b.manifest.ifVersion.toNat s
  postAsyncAll 0x07 0 64 0 (allSluices s) s

/-- `FW_ACTIVATE`; where a core does not resume, the hold lasts until the timeout of R393. [DEDUCED, log 54] -/
def fwActivateBody (digestsOk sectionsOk resumed : Bool) (c : Cmd) (s : State) : State :=
  match s.fw.staging with
  | none => finishWith c .invalid 0 s
  | some b =>
    let h := s.fw.running.manifest.handoff
    if !s.fw.staged ∨ h < b.manifest.handoffMin ∨ b.manifest.handoffMax < h then finishWith c .invalid 0 s
    else if !digestsOk ∨ !sectionsOk then rollBack c.serial .rolledBack s
    else if resumed then activated c b s
    else
      modCmd c.serial (fun c => { c with phase := 1, decided := true })
        { s with fw := { s.fw with activating := some c.serial }, q := { s.q with intakeHeld := true } }

/-- `ACTIVATION_RESUME_TIMEOUT`. [DEDUCED, log 54] -/
def activationTimeout (s : State) : State :=
  match s.fw.activating with
  | none => s
  | some k => rollBack k .rolledBack s

end Sys2Proof.Machine
end

