-- ==== Sys2Proof/Machine/Debug.lean ====
section
/-!
DEFINITION. The debug lock (R337, R459, R460), the debug opcodes and their address spaces (R461, R462), halts (R464), and
the JTAG port (R463, R472).
-/

namespace Sys2Proof.Machine

/-! ### The debug lock -/

def lockCode : LockState → Nat | .locked => 0 | .tenantSafe => 1 | .open_ => 2

/-- Every tenant key and stream key is destroyed, and the LIVE TCXs of encryption-ON polders become BOUND (R337). [DEDUCED, log 55] -/
def enterOpen (s : State) : State :=
  let s := (s.tcxs.map (·.1)).foldl (fun s t => destroyKeys t s) s
  let closed := (s.tcxs.filter fun e => decide (e.2.state = .live) && !isOpenMode (polderOf s e.2.polder).modes).map (·.1)
  let s := closed.foldl (fun s t => modTcx t (fun x => { x with state := .bound }) s) s
  { s with key := { s.key with streams := [] } }

/-- A change of the lock state: measurement block 8 and EVENT 0x0F. [DEDUCED, log 55] -/
def setLock (l : LockState) (s : State) : State :=
  let s := if l = .open_ then enterOpen s else s
  let s := setMeasure 8 (Config.lockDigest (lockCode l)) { s with dbg := { s.dbg with lock := l } }
  writeEvent 0x0F 0 0 64 0 (lockCode l) s

/-- `DBG_STATUS`. -/
def dbgStatusBody (c : Cmd) (s : State) : State := finishWith c .ok (lockCode s.dbg.lock + s.fw.halted.toNat * 4) s

/-- `DBG_CHALLENGE`: a fresh NONCE. -/
def dbgChallengeBody (c : Cmd) (s : State) : State :=
  let n := Config.nonce s.free
  finishWith c .ok n.toNat (drawFree { s with dbg := { s.dbg with nonce := some (n, s.time) } })

/-- The NONCE is outstanding and not older than 60 s. -/
def nonceFresh (s : State) : Bool := s.dbg.nonce.any fun n => decide (s.time - n.2 ≤ 1500000000)

/-- `DBG_UNLOCK`: to TENANT-SAFE or OPEN, with a token over the latest NONCE, which is used up. [DEDUCED, log 55] -/
def dbgUnlockBody (verifies : Bool) (c : Cmd) (s : State) : State :=
  let want := field c.words 3 1 0
  if want = 0 ∨ want = 3 ∨ want ≤ lockCode s.dbg.lock ∨ word64 c.words 7 % 8 ≠ 0 then finishWith c .invalid 0 s
  else
    let fresh := nonceFresh s
    let s := { s with dbg := { s.dbg with nonce := none } }
    if verifies && fresh then finishWith c .ok 0 (setLock (if want = 1 then .tenantSafe else .open_) s)
    else finishWith c .rightsFault 0 (writeEvent 0x0F 0 0 64 0 0xFF s)

/-- `DBG_LOCK`. [DEDUCED, log 55] -/
def dbgLockBody (c : Cmd) (s : State) : State :=
  match s.dbg.lock with
  | .open_ => finishWith c .invalid 0 s
  | .tenantSafe => finishWith c .ok 0 (setLock .locked s)
  | .locked => finishWith c .ok 0 s

/-! ### The debug address spaces (Table 23.7) -/

def lineStateCode : LineState → Nat | .invalid => 0 | .shared => 1 | .owned => 2

/-- A head slot as Table 4.2 lays it out. -/
def headWord (d : DirSlot) : Nat :=
  let ids := if d.coarse then [] else d.ids
  lineStateCode d.state * 2 ^ 62 + boolBit d.coarse 61 + d.tag * 2 ^ 37 + boolBit d.crown 36
    + ((List.range 4).map fun i => match ids[i]? with | none => 0 | some h => (256 + h) * 2 ^ (9 * i)).sum

/-- The 8 bytes of a way, by die × 2^24 + set × 16 + way; a coarse entry's vector lies in the way after its head. -/
def slotWord (s : State) (k : Nat) : Nat :=
  let l := tabGet s.coh.sets [] (k / 16)
  match l.find? fun d => d.way = k % 16 with
  | some d => headWord d
  | none => match l.find? fun d => d.coarse && decide (d.way + 1 = k % 16) with
    | some d => d.vec.toNat
    | none => 0

def mapStateCode : MapState → Nat | .unmapped => 0 | .qlc => 1 | .slc => 2 | .sram => 3 | .unreadable => 4

/-- A map entry as Table 6.3 lays it out. -/
def mapWord (e : MapEntry) : Nat :=
  mapStateCode e.state * 2 ^ 28 + e.die % 16 * 2 ^ 24 + e.plane % 4 * 2 ^ 22 + e.block % 1024 * 2 ^ 12 + e.page % 4096

/-- The key under which a tray byte is stored. -/
def storedKey (s : State) (tpa : Nat) : Nat := if regionOf tpa = .flash then tabGet s.mem.sealed 0 (cellOf s tpa / 64) else keyOf s tpa

/-- A tray byte as stored: ciphertext where a key seals it. [DESIGN CHOICE, log 14] -/
def storedByte (s : State) (tpa : Nat) : Byte :=
  let b := tabGet s.mem.bytes 0 (cellOf s tpa)
  if storedKey s tpa = 0 then b else Config.cipherByte (storedKey s tpa) tpa b

def trayAddress (tpa : Nat) : Bool := decide (regionOf tpa ≠ .host ∧ regionOf tpa ≠ .reserved)

/-- [DESIGN CHOICE, log 24] -/
def coreByteOf (s : State) (core off : Nat) : Byte :=
  match tabFind s.dbg.coreBytes (core * 2 ^ 24 + off) with
  | some b => BitVec.ofNat 8 b
  | none => Config.coreByte s.free core off

/-- A word of BAR0 of a sluice as the peek path reads it. [DEDUCED, log 37] -/
def barWord (s : State) (ix off : Nat) : Nat :=
  if ix = mgmtIx ∧ 0x800 ≤ off ∧ off < 0x1000 then regValue s off
  else if 0x200000 ≤ off then ofBytes ((List.range 4).map fun i => tabGet (sluiceOr s ix).window 0 (off - 0x200000 + i))
  else sluiceValue s ix off

/-- An address of the debug path: its space and the fields of Table 23.7, where every other bit is zero. -/
inductive DebugAddr where
  | regs (off : Nat)
  | bar (ix off : Nat)
  | dir (slot : Nat)
  | map (unit : Nat)
  | core (core off : Nat)
  | tray (tpa : Nat)
  | localStore (core off : Nat)
deriving DecidableEq, Repr

/-- The address of an access of `len` bytes; none outside its space's range. -/
def debugAddr (s : State) (a len : Nat) : Option DebugAddr :=
  match bits a 63 56 with
  | 0x00 => if bits a 55 24 = 0 ∧ a % 4 = 0 ∧ bits a 23 0 + len ≤ 0x11000 then some (.regs (bits a 23 0)) else none
  | 0x01 =>
    let ix := bits a 52 48 * 16 + bits a 47 44
    if bits a 55 53 = 0 ∧ bits a 43 22 = 0 ∧ a % 4 = 0 ∧ (findSluice s ix).isSome ∧ bits a 21 0 + len ≤ 0x240000 then
      some (.bar ix (bits a 21 0))
    else none
  | 0x02 =>
    let k := bits a 49 24
    if bits a 55 50 = 0 ∧ bits a 23 0 = 0 ∧ k + (len + 7) / 8 ≤ 2 ^ 26 then some (.dir k) else none
  | 0x03 =>
    if bits a 55 54 = 0 ∧ bits a 47 28 = 0 ∧ bits a 27 0 + len / 4 ≤ 2 ^ 28 then some (.map (bits a 53 48 * 2 ^ 30 + bits a 27 0)) else none
  | 0x04 =>
    if bits a 55 53 = 0 ∧ bits a 47 24 = 0 ∧ bits a 52 48 ≤ 27 ∧ bits a 23 0 + len ≤ 2 ^ 24 then some (.core (bits a 52 48) (bits a 23 0)) else none
  | 0x10 =>
    if bits a 55 50 = 0 ∧ trayAddress (bits a 49 0) ∧ trayAddress (bits a 49 0 + len - 1) then some (.tray (bits a 49 0)) else none
  | 0x11 =>
    if bits a 55 55 = 0 ∧ bits a 47 20 = 0 ∧ bits a 19 0 + len ≤ mib then some (.localStore (bits a 54 48) (bits a 19 0)) else none
  | _ => none

/-- Only OPEN allows the access (Table 23.5, Table 23.7). -/
def needsOpen (a : Nat) : Bool := decide (bits a 63 56 = 0x10 ∨ bits a 63 56 = 0x11 ∨ (bits a 63 56 = 0x04 ∧ bits a 52 48 = 1))

/-- What a peek reads (R462). [DEDUCED, log 55] -/
def peekBytes (d : DebugAddr) (len : Nat) (s : State) : List Byte × State :=
  match d with
  | .regs off =>
    let (l, s) := readRegs true (len / 4) off s
    (l.flatMap (toBytes 4), s)
  | .bar ix off => ((List.range (len / 4)).flatMap fun i => toBytes 4 (barWord s ix (off + 4 * i)), s)
  | .dir k => (((List.range ((len + 7) / 8)).flatMap fun i => toBytes 8 (slotWord s (k + i))).take len, s)
  | .map u => ((List.range (len / 4)).flatMap fun i => toBytes 4 (mapWord (tabGet s.ftl.map {} (u + i))), s)
  | .core n off => ((List.range len).map fun i => coreByteOf s n (off + i), drawFree s)
  | .tray tpa => ((List.range len).map fun i => storedByte s (tpa + i), s)
  | .localStore n off => ((List.range len).map fun i => tabGet (tabGet s.eng.stores {} n).localMem 0 (off + i), s)

/-- HPA of a debug opcode: 8 B aligned, and zero on the mailbox where the answer comes back through it (R463). -/
def debugHpa (c : Cmd) : Bool := decide (word64 c.words 7 % 8 = 0) && (decide (c.src ≠ .jtag) || decide (word64 c.words 7 = 0))

/-- `DBG_PEEK`. -/
def dbgPeekBody (c : Cmd) (s : State) : State :=
  let a := word64 c.words 4
  let len := wordAt c.words 6
  if s.dbg.lock = .locked ∨ (needsOpen a ∧ s.dbg.lock ≠ .open_) then finishWith c .rightsFault 0 s
  else if len < 4 ∨ 4096 < len ∨ len % 4 ≠ 0 ∨ debugHpa c = false then finishWith c .invalid 0 s
  else match debugAddr s a len with
    | none => finishWith c .invalid 0 s
    | some d =>
      let (l, s) := peekBytes d len s
      finishHpa c (word64 c.words 7) l { value := len } s

/-! ### Pokes -/

/-- An ordinary write of a word of a sluice's BAR0 (Tables 17.1 to 17.4). -/
def barWrite (ix off v : Nat) (s : State) : State :=
  let port := Fin.ofNat 17 (ix / 16)
  let ld := Fin.ofNat 16 (ix % 16)
  let low := bits v 15 0
  if off = 0x04 then sluiceStateWrite ix v s
  else if 0x800 ≤ off ∧ off < 0x1000 then (if ix = mgmtIx then regWrite off v s else s)
  else if off = 0x1000 then adminBaseWrite ix false false v s
  else if off = 0x1004 then adminBaseWrite ix false true v s
  else if off = 0x1008 then adminBaseWrite ix true false v s
  else if off = 0x100C then adminBaseWrite ix true true v s
  else if off = 0x1010 then adminCfgWrite port ld v s
  else if off = 0x1018 then doorbell ix none false low s
  else if off = 0x101C then doorbell ix none true low s
  else if 0x10000 ≤ off ∧ off < 0x20000 then
    let q := (off - 0x10000) / 0x100
    if off % 0x100 = 0 then doorbell ix (some q) false low s
    else if off % 0x100 = 4 then doorbell ix (some q) true low s
    else s
  else if 0x20000 ≤ off ∧ off < 0x28000 then
    let k := (off - 0x20000) / 16
    if off % 16 = 12 then msixControlWrite port ld k v s
    else modSluice ix (fun sl => { sl with msixWords := tabPut sl.msixWords 0 ((off - 0x20000) / 4) (b32 v) }) s
  else if 0x100000 ≤ off ∧ off < 0x200000 then pushWrite ix ((off - 0x100000) / 65536) (off % 65536) (toBytes 4 v) s
  else if 0x200000 ≤ off ∧ off < 0x240000 then modSluice ix (windowWrite (off - 0x200000) (toBytes 4 v)) s
  else s

/-- Words of a byte list. -/
def leWords (l : List Byte) : List Nat := (List.range (l.length / 4)).map fun i => leAt l (4 * i) 4

/-- A poke of stored tray bytes (Table 7.3): in an encryption-ON polder they are ciphertext. -/
def pokeTray (tpa : Nat) (l : List Byte) (s : State) : State × Status :=
  let plain := l.mapIdx fun i b => if keyOf s (tpa + i) = 0 then b else Config.plainByte (keyOf s (tpa + i)) (tpa + i) b
  if regionOf tpa = .flash ∧ (nandOf s (channelOf s tpa)).health ≠ .ok then (s, .mediaReadOnly)
  else if regionOf tpa = .flash ∧ !(nandOf s (channelOf s tpa)).mapLoaded then (s, .held)
  else if writesLocked s tpa then (countRefusal s, .mediaReadOnly)
  else (byLine tpa (plain.map fun b => (b, false))).foldl (fun (acc : State × Status) e =>
    let s := if regionOf tpa = .flash then openUnit acc.1 (e.1 * 64) else acc.1
    let (s, st) := homeWrite e.1 (e.2.map fun b => (b.1, b.2.1)) false s
    (if regionOf tpa = .flash then mapWritten s (e.1 * 64) else s, statusJoin acc.2 st)) (s, .ok)

/-- What a poke writes; slots of the directory and map entries are read-only (Tables 4.2, 6.3). [DEDUCED, log 55] -/
def pokeBytes (d : DebugAddr) (l : List Byte) (s : State) : State × Status :=
  match d with
  | .regs off => ((leWords l).zipIdx.foldl (fun s w => regWrite (off + 4 * w.2) w.1 s) s, .ok)
  | .bar ix off => ((leWords l).zipIdx.foldl (fun s w => barWrite ix (off + 4 * w.2) w.1 s) s, .ok)
  | .dir _ | .map _ => (s, .ok)
  | .core n off => ({ s with dbg := { s.dbg with
      coreBytes := l.zipIdx.foldl (fun m b => tabInsert m (n * 2 ^ 24 + off + b.2) b.1.toNat) s.dbg.coreBytes } }, .ok)
  | .tray tpa => pokeTray tpa l s
  | .localStore n off => (storeBytes n false (l.mapIdx fun i b => (off + i, b, false)) s, .ok)

/-- `DBG_POKE`: the bytes at its HPA are written, and EVENT 0x10 says so. -/
def dbgPokeBody (c : Cmd) (s : State) : State :=
  let a := word64 c.words 4
  let len := wordAt c.words 6
  if s.dbg.lock ≠ .open_ then finishWith c .rightsFault 0 s
  else if len < 4 ∨ 64 < len ∨ len % 4 ≠ 0 ∨ word64 c.words 7 % 8 ≠ 0 then finishWith c .invalid 0 s
  else match debugAddr s a len, hostBytes c.host (srcHid s c.src) (word64 c.words 7) len with
    | some d, some l =>
      let (s, st) := pokeBytes d l s
      finishWith c st len (writeEvent 0x10 0 0 64 a len s)
    | _, _ => finishWith c .invalid 0 s

/-! ### Halts (R464) -/

/-- The lock state allows halting and resuming a core (Table 23.5). -/
def haltAllowed (l : LockState) (core : Nat) : Bool :=
  match l with
  | .locked => false
  | .tenantSafe => decide (2 ≤ core)
  | .open_ => true

def haltCore (core : Nat) (s : State) : State := { s with fw := { s.fw with halted := s.fw.halted ||| BitVec.ofNat 28 (2 ^ core) } }

/-- The command that a locked sequence serves is still in progress. -/
def sequenceRuns (s : State) (serial : Nat) : Bool := s.q.cmds.any fun c => decide (c.serial = serial)

/-- `DBG_HALT`: at once, or deferred while the core is in a locked sequence. [DEDUCED, log 55] -/
def dbgHaltBody (lock : Option (Fin 28 × Nat)) (c : Cmd) (s : State) : State :=
  let core := field c.words 3 4 0
  if 27 < core then finishWith c .invalid 0 s
  else if !haltAllowed s.dbg.lock core then finishWith c .rightsFault 0 s
  else match lock.filter fun x => sequenceRuns s x.2 && decide (x.2 ≠ c.serial) with
    | none => finishWith c .ok 1 (haltCore core s)
    | some x =>
      let s := modCmd c.serial (fun c => { c with phase := 1, decided := true }) s
      { s with fw := { s.fw with deferred := tabInsert s.fw.deferred core (c.serial, flag c.words 3 8)
                                 locked := tabInsert s.fw.locked core (x.1.val, x.2) } }

/-- `DBG_RESUME`. -/
def dbgResumeBody (c : Cmd) (s : State) : State :=
  let core := field c.words 3 4 0
  if 27 < core then finishWith c .invalid 0 s
  else if !haltAllowed s.dbg.lock core then finishWith c .rightsFault 0 s
  else finishWith c .ok 0 { s with fw := { s.fw with halted := s.fw.halted &&& ~~~BitVec.ofNat 28 (2 ^ core) } }

def dropDeferral (core : Nat) (s : State) : State :=
  { s with fw := { s.fw with deferred := tabErase s.fw.deferred core, locked := tabErase s.fw.locked core } }

/-- The command that a broken sequence served ends `LOCK_BROKEN`; an activation returns to its old image. [DEDUCED, log 54] -/
def breakLock (serial : Nat) (s : State) : State :=
  if s.fw.activating = some serial then rollBack serial .lockBroken s else finish serial { status := .lockBroken } s

/-- `HALT_DEFER_TIMEOUT`: the sequence has not ended by 2 µs. -/
def haltTimeout (core : Nat) (s : State) : State :=
  match tabFind s.fw.deferred core with
  | none => s
  | some (k, force) =>
    let x := tabGet s.fw.locked (0, 0) core
    let s := dropDeferral core s
    if force then
      let s := haltCore core (breakLock x.2 s)
      finish k { value := 3 } (writeEvent 0x11 0 0 64 0 (x.1 * 256 + core) s)
    else finish k { status := .held } s

/-- A deferred halt takes effect when its sequence has ended. -/
def settleHalts (s : State) : State :=
  s.fw.deferred.foldl (fun s e =>
    if sequenceRuns s (tabGet s.fw.locked (0, 0) e.1).2 then s
    else finish e.2.1 { value := 1 } (haltCore e.1 (dropDeferral e.1 s))) s

/-! ### JTAG (R459, R463, R472) -/

/-- `JTAG_IDFUSE`: the serial and the twelve records, least significant bit first. -/
def idfuseOp (s : State) : State :=
  if !s.pins.terpUp then s
  else
    emit (.jtag (bytesToWords 4 s.ident.serial ++ (List.range 12).flatMap (dieRecord s))) { s with dbg := { s.dbg with jtagIr := 2 } }

/-- `JTAG_EXTEST`: loaded as BYPASS while `SYS_RESET_N` is high. -/
def extestOp (s : State) : State :=
  if !s.pins.terpUp then s else { s with dbg := { s.dbg with jtagIr := if s.pins.sysResetHigh then 4 else 3 } }

/-- `JTAG_TAP_RESET`. [DESIGN CHOICE, log 2] -/
def tapResetOp (s : State) : State := { s with dbg := { s.dbg with jtagIr := 0 } }

end Sys2Proof.Machine
end

