-- ==== Sys2Proof/Machine/Admin.lean ====
section
/-!
DEFINITION. The commands of the admin queue that chapters 17, 18 and 23 lay out: `IDENTIFY`, the version handshake, queue
pairs, `ABORT`, `FENCE`, the recorder commands, and the JTAG mailbox that runs some of them.
-/

namespace Sys2Proof.Machine

/-! ### IDENTIFY (R366) -/

/-- Bytes padded with zeros to a length. -/
def padTo (n : Nat) (l : List Byte) : List Byte := (l ++ List.replicate n 0).take n

/-- A mask of the numbers below `n` that satisfy a test. -/
def maskOf (n : Nat) (p : Nat → Bool) : Nat := ((List.range n).map fun i => boolBit (p i) i).sum

/-- A NAND channel is present and neither read-only nor failed. -/
def nandOk (s : State) (n : Nat) : Bool := (nandOf s n).present && decide ((nandOf s n).health = .ok)

/-- An HBM stack is usable: its die lives and not all of its pseudo-channels have failed. -/
def hbmOk (s : State) (k : Nat) : Bool :=
  !s.flt.dieFailed.getLsbD (k / 2) && (List.range 32).any fun i => !s.res.failedHbm.getLsbD (32 * k + i)

/-- The device block (Table 18.5). -/
def deviceBlock (s : State) : List Byte :=
  let m := s.fw.running.manifest
  toBytes 4 0x960 ++ toBytes 4 0x41 ++ toBytes 4 m.ifVersion.toNat ++ toBytes 2 m.arith.toNat ++ toBytes 2 0
    ++ toBytes 8 m.version.toNat ++ toBytes 4 (stateWord s) ++ toBytes 4 0 ++ padTo 16 s.ident.serial
    ++ toBytes 4 (maskOf 24 fun n => s.tray.ddrPresent.getLsbD n && !s.res.failedDdr.getLsbD n) ++ toBytes 4 s.tray.dimmGib
    ++ toBytes 8 (maskOf 64 (nandOk s)) ++ toBytes 1 (maskOf 8 (hbmOk s)) ++ toBytes 1 (maskOf 8 fun k => !s.flt.dieFailed.getLsbD (k / 2))
    ++ List.replicate 190 0 ++ (List.range 12).flatMap fun i => wordsToBytes (dieRecord s i)

/-- The sluice block. -/
def sluiceBlock (s : State) (src : Src) : List Byte :=
  let hid := srcHid s src
  toBytes 4 (sluiceValue s ((srcSluice s src).getD mgmtIx) 0) ++ toBytes 4 (wordAt (hitWords s hid) 0) ++ toBytes 8 (hitOf s hid).mask.toNat

def polderStateCode : PolderState → Nat | .absent => 0 | .live => 1 | .draining => 2 | .drained => 3 | .scrubbing => 4

/-- Words 3 to 31 of a polder's `POLDER_CREATE` as they stand, RANGES zero. -/
def polderWords (n : Nat) (p : Polder) : List Word :=
  [BitVec.ofNat 32 (p.promoPool * 2 ^ 16 + p.rowCacheUnits * 2 ^ 8 + n), p.modes, BitVec.ofNat 32 p.ddr.toNat]
    ++ toWords 4 p.cores.toNat ++ toWords 4 p.poolB.toNat ++ toWords 2 p.nand.toNat ++ toWords 8 p.hbm.toNat
    ++ toWords 2 p.rows.toNat ++ [p.crown] ++ toWords 3 p.quarters.toNat ++ [0, 0]

/-- The polder block. -/
def polderBlock (s : State) (n : Nat) : List Byte :=
  let p := polderOf s n
  padTo 0x80 (if p.state = .absent then [] else wordsToBytes (polderWords n p)) ++ rangeReport p ++ toBytes 8 (polderStateCode p.state)

/-- `IDENTIFY`. -/
def identifyBody (c : Cmd) (s : State) : State :=
  let cns := field c.words 3 7 0
  let n := field c.words 3 13 8
  let hpa := word64 c.words 4
  let zeroOk := if c.src = .jtag then decide (hpa = 0) else decide (hpa ≠ 0) || hpaCarried c.src hpa
  if hpa % 4096 ≠ 0 ∨ zeroOk = false ∨ 2 < cns ∨ (cns ≠ 2 ∧ n ≠ 0) then finishWith c .invalid 0 s
  else if cns = 2 ∧ !srcIsMgmt s c.src ∧ !polderBit (hitOf s (srcHid s c.src)) n then finishWith c .rightsFault 0 s
  else
    let block := if cns = 0 then deviceBlock s else if cns = 1 then sluiceBlock s c.src else polderBlock s n
    finishHpa c hpa (padTo 4096 block) { value := 4096 } s

/-! ### VERSION_HANDSHAKE (R367, R390) -/

/-- The firmware serves a driver. -/
def versionFits (fw driver lo hi : Nat) : Bool :=
  decide (driver / 65536 = fw / 65536 ∧ driver % 65536 ≤ fw % 65536 ∧ lo ≤ fw ∧ fw ≤ hi)

/-- `VERSION_HANDSHAKE`. -/
def versionHandshakeBody (c : Cmd) (s : State) : State :=
  let fw := s.fw.running.manifest.ifVersion.toNat
  let ix := (srcSluice s c.src).getD mgmtIx
  if wordAt c.words 4 > wordAt c.words 5 then finishWith c .invalid fw s
  else if versionFits fw (wordAt c.words 3) (wordAt c.words 4) (wordAt c.words 5) then
    finishWith c .ok fw (modSluice ix (fun sl => { sl with state := .ready }) s)
  else finishWith c .versionRefused fw (modSluice ix (fun sl => { sl with state := .held }) s)

/-! ### Queue pairs (R344, R345, R354) -/

/-- The ring pair of a `QP_CREATE` request (Table 17.6). -/
def ringReq (ws : List Word) : Ring :=
  { sqLog2 := field ws 4 12 8, cqLog2 := field ws 4 4 0, sqBase := word64 ws 5, cqBase := word64 ws 7
    sqDev := flag ws 3 7, cqDev := flag ws 3 6, weight := field ws 3 11 8 + 1
    irqEn := flag ws 9 31, vector := field ws 9 10 0, aggTime := field ws 10 31 16, aggCount := field ws 10 15 0 }

def sqBytes (r : Ring) : Nat := 64 * 2 ^ r.sqLog2
def cqBytes (r : Ring) : Nat := 32 * 2 ^ r.cqLog2

/-- Extents of a pair's rings in the device-SRAM ring window. -/
def deviceExtents (r : Ring) : List (Nat × Nat) :=
  (if r.sqDev then [(r.sqBase, sqBytes r)] else []) ++ (if r.cqDev then [(r.cqBase, cqBytes r)] else [])

/-- Bytes of the ring pool that a pair takes. -/
def poolNeed (r : Ring) : Nat := ((deviceExtents r).map (·.2)).sum

def disjointExtents : List (Nat × Nat) → Bool
  | [] => true
  | e :: l => (l.all fun f => decide (e.1 + e.2 ≤ f.1 ∨ f.1 + f.2 ≤ e.1)) && disjointExtents l

/-- Bytes of a die's ring pool in use (R345). -/
def poolInUse (s : State) (die : Nat) : Nat := ((s.q.sluices.filter fun e => portDie (e.1 / 16) = die).map (·.2.poolUsed)).sum

/-- The request's ranges, alignment, window and pool allow the pair. -/
def ringOk (s : State) (ix : Nat) (sl : Sluice) (r : Ring) : Bool :=
  decide (4 ≤ r.sqLog2 ∧ r.sqLog2 ≤ 16 ∧ 4 ≤ r.cqLog2 ∧ r.cqLog2 ≤ 16 ∧ r.sqBase % 4096 = 0 ∧ r.cqBase % 4096 = 0)
    && ((deviceExtents r).all fun e => decide (e.1 + e.2 ≤ 0x40000))
    && disjointExtents (deviceExtents r ++ sl.qps.flatMap fun e => deviceExtents e.2)
    && decide (poolInUse s (portDie (ix / 16)) + poolNeed r ≤ mib)

/-- `QP_CREATE`. -/
def qpCreateBody (c : Cmd) (s : State) : State :=
  let ix := (srcSluice s c.src).getD mgmtIx
  let qp := field c.words 3 23 16
  let r := ringReq c.words
  match findSluice s ix with
  | none => finishWith c .invalid 0 s
  | some sl =>
    if (tabFind sl.qps qp).isSome ∨ ringOk s ix sl r = false then finishWith c .invalid 0 s
    else finishWith c .ok 0 (modSluice ix (fun sl => { putRing (some qp) r sl with poolUsed := sl.poolUsed + poolNeed r }) s)

/-- The source that a queue pair of a sluice stands for. -/
def pairSrc (ix qp : Nat) : Src := .data (Fin.ofNat 17 (ix / 16)) (Fin.ofNat 16 (ix % 16)) (BitVec.ofNat 8 qp)

/-- Commands that R356 answers `INVALID` for (Table 18.3): `DESTROY` is operation 1 of `TABLE_DEFINE`. -/
def unabortable (c : Cmd) : Bool :=
  [0x05, 0x06, 0x43, 0x12, 0x19, 0xE1, 0xF6, 0xF7].contains c.opcode || (decide (c.opcode = 0x50) && decide (field c.words 3 31 28 = 1))

/-- A command past its decision point. -/
def pastDecision (c : Cmd) : Bool := c.decided || c.outcome.isSome

/-- Aborts a command; with a crown run go the commands it has submitted (R314). [DEDUCED, log 39] -/
def abortOne (c : Cmd) (s : State) : State :=
  let mine := (s.q.cmds.filter fun d => (match d.src with | .crown run _ => decide (run = c.serial) | _ => false) && !pastDecision d && !unabortable d).map (·.serial)
  abortCommand c.serial (mine.foldl (fun s k => abortCommand k (spoilOutputs k s)) (spoilOutputs c.serial s))

/-- Steps 1 to 5 of `QP_FLUSH`: the state, and how many commands completed `ABORTED`. [DEDUCED, log 39] -/
def flushPair (ix qp : Nat) (run : Bool) (host : List HostByte) (s : State) : Nat × State :=
  let src := pairSrc ix qp
  let s := fetchToTail src ix (some qp) host s
  let part := if ((getRing s ix (some qp)).bind (·.partialAt)).isSome then 1 else 0
  let s := endPartial src ix (some qp) .aborted s
  let idle := s.q.cmds.filter fun c => decide (c.src = src) && c.waiting
  let s := idle.foldl (fun s c => abortOne c s) s
  let busy := if run then s.q.cmds.filter fun c => decide (c.src = src) && !pastDecision c && !unabortable c else []
  let s := busy.foldl (fun s c => abortOne c s) s
  (idle.length + busy.length + part, s)

/-- `QP_FLUSH`. -/
def qpFlushBody (c : Cmd) (s : State) : State :=
  let ix := (srcSluice s c.src).getD mgmtIx
  let qp := field c.words 3 7 0
  if (getRing s ix (some qp)).isNone then finishWith c .invalid 0 s
  else
    let (n, s) := flushPair ix qp (flag c.words 3 31) c.host s
    finishWith c .ok n s

/-- A deleted pair goes once its last command has completed: held entries are discarded and counted, the rings are freed. [DEDUCED, log 39] -/
def deletePair (c : Cmd) (s : State) : State :=
  let ix := (srcSluice s c.src).getD mgmtIx
  let qp := field c.words 3 7 0
  if s.q.cmds.any fun d => decide (d.src = pairSrc ix qp) then s
  else match getRing s ix (some qp) with
    | none => finishWith c .ok c.value s
    | some r =>
      let s := modSluice ix (fun sl => { sl with qps := tabErase sl.qps qp, poolUsed := sl.poolUsed - poolNeed r }) s
      finishWith c .ok c.value { s with q := { s.q with discarded := s.q.discarded + r.held.length } }

/-- `QP_DELETE`. -/
def qpDeleteBody (c : Cmd) (s : State) : State :=
  let ix := (srcSluice s c.src).getD mgmtIx
  let qp := field c.words 3 7 0
  match getRing s ix (some qp) with
  | none => finishWith c .invalid 0 s
  | some r =>
    if r.deleting.isSome then finishWith c .invalid 0 s
    else
      let (n, s) := flushPair ix qp (flag c.words 3 31) c.host s
      let s := modRing ix (some qp) (fun r => { r with deleting := some c.serial }) s
      let s := modCmd c.serial (fun c => { c with phase := 1, decided := true, value := n }) s
      deletePair { c with phase := 1, decided := true, value := n } s

/-- Pairs whose deletion waits. -/
def settleDeletes (s : State) : State :=
  (s.q.cmds.filter fun c => decide (c.opcode = 0x05 ∧ c.phase = 1) && c.outcome.isNone).foldl (fun s c => deletePair c s) s

/-! ### ABORT (R355, R356) and FENCE (R374) -/

/-- `ABORT`. -/
def abortBody (c : Cmd) (s : State) : State :=
  let admin := flag c.words 3 31
  let qp := field c.words 3 23 16
  let ix := (srcSluice s c.src).getD mgmtIx
  if admin ∧ qp ≠ 0 then finishWith c .invalid 0 s
  else
    let src : Src := if admin then .admin (Fin.ofNat 17 (ix / 16)) (Fin.ofNat 16 (ix % 16)) else pairSrc ix qp
    let s := fetchToTail src ix (if admin then none else some qp) c.host s
    match s.q.cmds.find? fun d => decide (d.src = src ∧ d.cid = field c.words 3 15 0) with
    | none => finishWith c .alreadyDone 0 s
    | some d =>
      if unabortable d then finishWith c .invalid 0 s
      else if pastDecision d then finishWith c .alreadyDone 0 s
      else finishWith c .ok 0 (abortOne d s)

/-- Commands that a `FENCE` waits for: the earlier ones of its queue pair, or the dispatched ones of its TCX. -/
def fenceCovers (s : State) (c : Cmd) : List Nat :=
  (s.q.cmds.filter fun d => decide (d.serial ≠ c.serial) &&
    (if flag c.words 3 0 then !d.waiting && decide (d.tcx = c.tcx) && (opRow d.opcode).any (·.names)
     else decide (d.src = c.src ∧ d.serial < c.serial))).map (·.serial)

/-- `FENCE`. -/
def fenceBody (c : Cmd) (s : State) : State :=
  match fenceCovers s c with
  | [] => finishWith c .ok 0 s
  | l => modCmd c.serial (fun c => { c with phase := 1, after := l }) s

/-- Fences whose commands have all completed. -/
def settleFences (s : State) : State :=
  (s.q.cmds.filter fun c => decide (c.opcode = 0x41 ∧ c.phase = 1) && c.outcome.isNone).foldl (fun s c =>
    if c.after.any fun k => s.q.cmds.any fun d => d.serial = k then s else finishWith c .ok 0 s) s

/-! ### The recorder commands (R376, R455) -/

/-- `REC_FREEZE`. -/
def recFreezeBody (c : Cmd) (s : State) : State :=
  finishWith c .ok s.recorder.entries.length { s with recorder := { s.recorder with frozen := true } }

/-- `REC_THAW`: the part is cleared and index 0 receives a LOST record. -/
def recThawBody (c : Cmd) (s : State) : State :=
  let r := s.recorder
  if !r.frozen then finishWith c .invalid 0 s
  else
    let lost := recordOf [b32 r.fullSince, b32 r.frozenSince] 0x05 false s.time
    finishWith c .ok r.frozenSince { s with recorder := { r with entries := [lost], frozen := false, fullSince := 0, frozenSince := 0 } }

/-- `REC_READ`. -/
def recReadBody (c : Cmd) (s : State) : State :=
  let part := flag c.words 3 0
  let first := wordAt c.words 4
  let count := wordAt c.words 5
  let hpa := word64 c.words 6
  if count < 1 ∨ 65536 < count ∨ first + count > (if part then 4096 else 65536) ∨ hpa % 32 ≠ 0 then finishWith c .invalid 0 s
  else
    let data := (List.range count).flatMap fun i => padTo 32 (eventBytes (recordAt s part (first + i)))
    finishHpa c hpa (if hpaCarried c.src hpa then data.take 4096 else data) { value := count } s

/-! ### The JTAG mailbox (R463) -/

/-- `JTAG_DBGMBOX`: the capture that is due shifts out, and the item shifted in is executed. [DEDUCED, log 55] -/
def mailboxOp (ws : List Word) (host : List HostByte) (verifies : Bool) (lock : Option (Fin 28 × Nat)) (s : State) : State :=
  if !s.pins.terpUp then s
  else
    let s := emit (.jtag (s.dbg.mailbox.headD (List.replicate 16 0))) { s with dbg := { s.dbg with jtagIr := 1, mailbox := s.dbg.mailbox.tail } }
    let it : Item := ⟨.jtag, ws, host⟩
    if ws.length ≠ 16 then s
    else match hdrOpcode ws with
      | 0x01 => runItem 0x01 it identifyBody s
      | 0xF0 => runItem 0xF0 it dbgStatusBody s
      | 0xF1 => runItem 0xF1 it dbgChallengeBody s
      | 0xF2 => runItem 0xF2 it (dbgUnlockBody verifies) s
      | 0xF3 => runItem 0xF3 it dbgLockBody s
      | 0xF4 => runItem 0xF4 it dbgPeekBody s
      | 0xF5 => runItem 0xF5 it dbgPokeBody s
      | 0xF6 => runItem 0xF6 it (dbgHaltBody lock) s
      | 0xF7 => runItem 0xF7 it dbgResumeBody s
      | _ => takeIn it s

end Sys2Proof.Machine
end

