-- ==== Sys2Proof/Machine/Settle.lean ====
section
/-!
DEFINITION. What follows a command's own effect at once: flows whose snoops have ended, commands whose lines, granules or
serials have come, groups that are complete, and the meaning that `COMMAND_DISPATCH` runs for each opcode (Table 18.1).
-/

namespace Sys2Proof.Machine

/-- The meaning of an opcode of Table 18.1 whose findings come with no operand of its own; the others start with their own
row (`ownRow`). -/
def runOpcode (c : Cmd) (s : State) : State :=
  match c.opcode with
  | 0x01 => identifyBody c s
  | 0x02 => versionHandshakeBody c s
  | 0x04 => qpCreateBody c s
  | 0x05 => qpDeleteBody c s
  | 0x06 => qpFlushBody c s
  | 0x10 => polderCreateBody c s
  | 0x11 => polderModeSetBody c s
  | 0x12 => polderDrainBody c s
  | 0x14 => hitWriteBody c s
  | 0x15 => hitReadBody c s
  | 0x18 => tenantCreateBody c s
  | 0x19 => tenantResetBody c s
  | 0x1C => policerSetBody c s
  | 0x20 => segWriteBody c s
  | 0x21 => segSyncBody c s
  | 0x28 => keyLoadBody c s
  | 0x30 => calExportBody c s
  | 0x31 => calImportBody c s
  | 0x40 => copyBody c s
  | 0x41 => fenceBody c s
  | 0x42 => counterWaitBody c s
  | 0x43 => abortBody c s
  | 0x44 => atomicBody c s
  | 0x45 => resilStatsBody c s
  | 0x46 => weirStatsBody c s
  | 0x47 => copyStatsBody c s
  | 0x48 => refreshBeginBody c s
  | 0x49 => refreshCommitBody c s
  | 0x4A => tierPromoteBody c s
  | 0x4B => tierDemoteBody c s
  | 0x4C => tierStatsBody c s
  | 0x4D => htwWriteBody c s
  | 0x4E => htwReadBody c s
  | 0x4F => flashManageBody c s
  | 0x50 => tableDefineBody c s
  | 0x51 => tableWriteBody c s
  | 0x52 => lookupStatsBody c s
  | 0x80 => lookupPooledBody c s
  | 0x81 => gatherRowsBody c s
  | 0x84 => seqPoolBody c s
  | 0x86 => decodeAttnBody c s
  | 0x88 => searchBody 0x88 c s
  | 0x89 => searchBody 0x89 c s
  | 0xA0 => kernelLaunchBody c s
  | 0xA8 => crownRunBody c s
  | 0xAC => digestSetupBody c s
  | 0xC0 => collectiveBody 0xC0 c s
  | 0xC1 => collectiveBody 0xC1 c s
  | 0xC2 => collectiveBody 0xC2 c s
  | 0xE8 => recFreezeBody c s
  | 0xE9 => recReadBody c s
  | 0xEA => recThawBody c s
  | 0xF0 => dbgStatusBody c s
  | 0xF1 => dbgChallengeBody c s
  | 0xF3 => dbgLockBody c s
  | 0xF4 => dbgPeekBody c s
  | 0xF5 => dbgPokeBody c s
  | 0xF6 => dbgHaltBody none c s
  | 0xF7 => dbgResumeBody c s
  | _ => s

/-! ### Commands that go on -/

/-- Opcodes whose command goes on by events of its own, not by running again. -/
def stepwise (op : Nat) : Bool := [0x05, 0x12, 0x19, 0x40, 0x41, 0x42, 0xC0, 0xC1, 0xC2, 0xE0, 0xE1, 0xF6].contains op

/-- A command that was kept from its data runs again from the start once the lines it waited for have come; what it asks of
flash and of other commands it finds itself. -/
def runsAgain (c : Cmd) : Bool :=
  !c.waiting && !c.decided && c.outcome.isNone && decide (c.lines = [])
    && (if c.phase = 0 then [0x19, 0x30, 0x31].contains c.opcode
        else !stepwise c.opcode && !(decide (c.phase = 2) && [0xA0, 0xA8].contains c.opcode))

/-- Everything a decided command waited for has come. -/
def mayEnd (s : State) (c : Cmd) : Bool :=
  c.outcome.isSome && decide (c.lines = []) && decide (c.zeroReads = []) && !postingHeld s c.opcode
    && !(c.after.any fun k => s.q.cmds.any fun d => d.serial = k)

/-- One command goes on, if it can. -/
def settleCmd (serial : Nat) (s : State) : State :=
  match s.q.cmds.find? fun c => c.serial = serial with
  | none => s
  | some c =>
    if mayEnd s c then finish serial (c.outcome.getD {}) s
    else if decide (c.opcode = 0x42 ∧ c.phase ≠ 0 ∧ c.lines = []) && c.outcome.isNone then waitAgain c s
    else if decide (c.opcode = 0xE0 ∧ c.phase = 1) && c.outcome.isNone && !norTaken s c then stageProgram c s
    else if runsAgain c then runOpcode c s
    else s

def settleCmds (s : State) : State := (s.q.cmds.map (·.serial)).foldl (fun s k => settleCmd k s) s

/-! ### One pass, and all of them -/

/-- Everything that can go on does, once. [DESIGN CHOICE, log 11] -/
def settlePass (s : State) : State :=
  settleCmds (settleFences (settleDeletes (settleHalts (settleRuns (settleKernels (stepGroups (settleMembers (settleTiles
    (settleReopens (settleRemaps (settleTables (settleFlows s))))))))))))

/-- Nothing is in progress that could go on. [DESIGN CHOICE, log 11] -/
def quiet (s : State) : Bool :=
  s.q.cmds.isEmpty && s.coh.flows.isEmpty && s.eng.tiles.isEmpty && s.eng.placements.isEmpty && s.eng.runs.isEmpty
    && s.copy.groups.isEmpty && s.tbl.tables.isEmpty && s.fw.deferred.isEmpty

/-- A pass has changed what the next one goes by. [DESIGN CHOICE, log 11] -/
def progressed (s s' : State) : Bool :=
  !(decide (s'.q.cmds = s.q.cmds) && decide (s'.coh.flows = s.coh.flows) && decide (s'.eng.tiles = s.eng.tiles)
    && decide (s'.eng.placements = s.eng.placements) && decide (s'.eng.runs = s.eng.runs))

/-- Passes until one makes no progress. [DESIGN CHOICE, log 11] -/
def settlePasses : Nat → State → State
  | 0, s => s
  | fuel + 1, s =>
    let s' := settlePass s
    if progressed s s' then settlePasses fuel s' else s'

/-- What follows an effect at once: everything that can go on does, clusters with work wake, and `PWR_WARN_N` follows. [DESIGN CHOICE, log 10] [DESIGN CHOICE, log 11] -/
def settle (s : State) : State :=
  settlePins (settleClusters (if quiet s then s else settlePasses (4 * s.q.cmds.length + 8) s))

/-! ### Dispatch by SCH -/

/-- Runs a waiting command, dispatching it. -/
def startWaiting (c : Cmd) (s : State) : State :=
  let s := dispatchCmd c.serial s
  match s.q.cmds.find? fun d => d.serial = c.serial with
  | some d => runOpcode d s
  | none => s

/-- `COMMAND_DISPATCH`: SCH dispatches the ready command of the highest PRIO, the earliest fetched among equals (R347). -/
def dispatchOp (s : State) : State :=
  match nextDispatch s with
  | some c => startWaiting c s
  | none => s

/-- `WORK_POOL_SPACE_FREE`: the oldest command that waits for the pool and fits in it now is dispatched (R146). -/
def poolSpaceFree (p : Nat) (s : State) : State :=
  let tries := s.res.poolWaiters.findSome? fun k =>
    match s.q.cmds.find? fun c => decide (c.serial = k ∧ c.polder = p) with
    | none => none
    | some c =>
      let free := { s with res := { s.res with poolWaiters := s.res.poolWaiters.filter (· ≠ k) } }
      if !dispatchable free c then none
      else
        let after := startWaiting c free
        if after.res.poolWaiters.contains k then none else some after
  tries.getD s

/-! ### Decisions that an absent firmware core takes later (R394, R464) -/

/-- An activation holds the device, or SCH is halted: its decisions are taken later. [DEDUCED, log 13] -/
def schAway (s : State) : Bool := s.fw.activating.isSome || s.fw.halted.getLsbD 2

/-- The PMC's decisions are taken later. [DEDUCED, log 13] -/
def pmcAway (s : State) : Bool := s.fw.activating.isSome || s.fw.halted.getLsbD 0

/-- The decisions of the control core of a channel's cluster are taken later. [DEDUCED, log 13] -/
def channelCoreAway (s : State) (ch : Nat) : Bool := s.fw.activating.isSome || s.fw.halted.getLsbD (20 + ch / 16)

/-- The crown services of a core's cluster are not served now. [DEDUCED, log 13] -/
def crownCoreAway (s : State) (core : Nat) : Bool := s.fw.activating.isSome || s.fw.halted.getLsbD (24 + core / 8)

/-- An event whose decision waits for a firmware core changes nothing until the core is back. [DESIGN CHOICE, log 5] [DEDUCED, log 13] -/
def whenHere (away : Bool) (f : State → State) (s : State) : State := if away then s else f s

end Sys2Proof.Machine
end

