-- ==== Sys2Proof/Machine/BoardRows.lean ====
section
/-!
DEFINITION. One meaning per row of spec/opcode_table.json: the BMC bus and the registers (chapters 25 and 26).
-/

namespace Sys2Proof.Machine

/-- `I3C_REGISTER_WRITE` (R494). -/
def execI3cRegisterWrite (offset : BitVec 16) (data : List Byte) (s : State) : Host.Outcome State Fault Refusal :=
  .next (settle (i3cWrite offset.toNat data s))

/-- `I3C_REGISTER_READ` (R494). -/
def execI3cRegisterRead (count : BitVec 8) (s : State) : Host.Outcome State Fault Refusal :=
  .next (settle (i3cRead count.toNat s))

/-- `SMBUS_BLOCK_WRITE` (R494). -/
def execSmbusBlockWrite (offset : BitVec 16) (data : List Byte) (pecOk : Bool) (s : State) : Host.Outcome State Fault Refusal :=
  .next (settle (smbusWrite offset.toNat data pecOk s))

/-- `SMBUS_PROCESS_CALL` (R494). -/
def execSmbusProcessCall (offset : BitVec 16) (length : BitVec 8) (pecOk : Bool) (s : State) : Host.Outcome State Fault Refusal :=
  .next (settle (smbusCall offset.toNat length.toNat pecOk s))

/-- `MCTP_PACKET` (R494). -/
def execMctpPacket (payload : McptPayload) (s : State) : Host.Outcome State Fault Refusal :=
  .next (settle (mctpOp payload s))

/-- `BMC_BUS_TIMEOUT` (R485). -/
def execBmcBusTimeout (s : State) : Host.Outcome State Fault Refusal :=
  .next (settle (busTimeoutOp s))

/-- `I3C_TARGET_RESET` (R485). -/
def execI3cTargetReset (s : State) : Host.Outcome State Fault Refusal :=
  .next (settle (i3cReset s))

/-- `IBI_RETRY` (R497). -/
def execIbiRetry (accepted : Bool) (s : State) : Host.Outcome State Fault Refusal :=
  .next (settle (ibiRetryOp accepted s))

/-- `BMC_RESET` (R496). -/
def execBmcReset (value : Word) (s : State) : Host.Outcome State Fault Refusal :=
  .next (settle (bmcResetOp value s))

/-- `INTERLOCK_CLEAR` (R488). -/
def execInterlockClear (s : State) : Host.Outcome State Fault Refusal :=
  .next (settle (interlockClearOp s))

/-- `NOR_READ` (R498). -/
def execNorRead (s : State) : Host.Outcome State Fault Refusal :=
  .next (settle (norCommand 1 s))

/-- `NOR_PROGRAM` (R498). -/
def execNorProgram (s : State) : Host.Outcome State Fault Refusal :=
  .next (settle (norCommand 2 s))

/-- `NOR_ERASE` (R498). -/
def execNorErase (s : State) : Host.Outcome State Fault Refusal :=
  .next (settle (norCommand 3 s))

/-- `NOR_COMMAND_COMPLETE` (R498). -/
def execNorCommandComplete (ok : Bool) (s : State) : Host.Outcome State Fault Refusal :=
  .next (settle (norComplete ok s))

/-- `REC_WIN_LATCH` (R495). -/
def execRecWinLatch (persistentWin : Bool) (s : State) : Host.Outcome State Fault Refusal :=
  .next (settle (recWinLatchOp persistentWin s))

/-- `TIME_LO_READ` (R496). -/
def execTimeLoRead (s : State) : Host.Outcome State Fault Refusal :=
  .next (settle (timeLoOp s))

/-- `BEAT_LO_READ` (R496). -/
def execBeatLoRead (s : State) : Host.Outcome State Fault Refusal :=
  .next (settle (beatLoOp s))

/-- `RC_REGISTER_READ` (R491). -/
def execRcRegisterRead (reg : RcReg) (s : State) : Host.Outcome State Fault Refusal :=
  .next (settle (rcReadOp reg s))

/-- `WARN_STICKY_CLEAR` (R435). -/
def execWarnStickyClear (s : State) : Host.Outcome State Fault Refusal :=
  .next (settle (warnStickyClearOp s))

/-- `TERP_IRQ_ENABLE_WRITE` (R497). -/
def execTerpIrqEnableWrite (value : Word) (s : State) : Host.Outcome State Fault Refusal :=
  .next (settle (irqEnableOp value.toNat s))

/-- `REGISTER_WRITE` (R491). -/
def execRegisterWrite (reg : RwReg) (value : Word) (s : State) : Host.Outcome State Fault Refusal :=
  .next (settle (registerWriteOp reg value s))

/-- `INTERLOCK_SAMPLE` (R486). -/
def execInterlockSample (a b : Bool) (s : State) : Host.Outcome State Fault Refusal :=
  .next (settle (interlockSampleOp a b s))

/-- `INTERLOCK_CHANNEL_DEBOUNCED` (R486). -/
def execInterlockChannelDebounced (b : Bool) (s : State) : Host.Outcome State Fault Refusal :=
  .next (settle (interlockDebounced b s))

/-- `INTERLOCK_DISAGREE_TIMEOUT` (R486). -/
def execInterlockDisagreeTimeout (s : State) : Host.Outcome State Fault Refusal :=
  .next (settle (interlockDisagrees s))

/-- `I3C_COMMON_COMMAND` (R494). -/
def execI3cCommonCommand (ccc : I3cCcc) (s : State) : Host.Outcome State Fault Refusal :=
  .next (settle (i3cCommand ccc s))

end Sys2Proof.Machine
end

