-- ==== Sys2Proof/Machine/CrownRows.lean ====
section
/-!
DEFINITION. One meaning per row of spec/opcode_table.json: crown services (Table 15.6) and the events of kernels (R309, R323).
-/

namespace Sys2Proof.Machine

/-- `CROWN_SUBMIT` (R313). -/
def execCrownSubmit (run : Nat) (core : Fin 32) (words : List Word) (s : State) : Host.Outcome State Fault Refusal :=
  .next (settle (whenHere (crownCoreAway s core.val) (crownSubmitOp run core.val core words) s))

/-- `CROWN_WAIT` (R313). -/
def execCrownWait (run : Nat) (core : Fin 32) (cid : BitVec 16) (s : State) : Host.Outcome State Fault Refusal :=
  .next (settle (whenHere (crownCoreAway s core.val) (crownWaitOp run core.val cid.toNat) s))

/-- `CROWN_COUNTER` (R313). -/
def execCrownCounter (run : Nat) (core : Fin 32) (cnt : Fin 16) (threshold : BitVec 64) (s : State) : Host.Outcome State Fault Refusal :=
  .next (settle (whenHere (crownCoreAway s core.val) (crownCounterOp run core.val cnt.val threshold.toNat) s))

/-- `CROWN_FENCE` (R313). -/
def execCrownFence (run : Nat) (core : Fin 32) (s : State) : Host.Outcome State Fault Refusal :=
  .next (settle (whenHere (crownCoreAway s core.val) (crownFenceOp run core.val) s))

/-- `CROWN_POLL` (R313). -/
def execCrownPoll (run : Nat) (core : Fin 32) (cid : BitVec 16) (s : State) : Host.Outcome State Fault Refusal :=
  .next (settle (whenHere (crownCoreAway s core.val) (crownPollOp run core.val cid.toNat) s))

/-- `CROWN_TIME` (R313). -/
def execCrownTime (run : Nat) (core : Fin 32) (s : State) : Host.Outcome State Fault Refusal :=
  .next (settle (whenHere (crownCoreAway s core.val) (crownTimeOp run core.val) s))

/-- `CROWN_TDC_READ` (R313). -/
def execCrownTdcRead (run : Nat) (core : Fin 32) (s : State) : Host.Outcome State Fault Refusal :=
  .next (settle (whenHere (crownCoreAway s core.val) (crownTdcOp run core.val) s))

/-- `CROWN_LOG` (R313). -/
def execCrownLog (run : Nat) (core : Fin 32) (data : BitVec 128) (s : State) : Host.Outcome State Fault Refusal :=
  .next (settle (whenHere (crownCoreAway s core.val) (crownLogOp run core.val data.toNat) s))

/-- `CROWN_EXIT` (R314). -/
def execCrownExit (run : Nat) (core : Fin 32) (value : Word) (s : State) : Host.Outcome State Fault Refusal :=
  .next (settle (whenHere (crownCoreAway s core.val) (crownExitOp run core.val value) s))

/-- `CROWN_TRAP` (R314). -/
def execCrownTrap (run : Nat) (core : Fin 32) (s : State) : Host.Outcome State Fault Refusal :=
  .next (settle (whenHere (crownCoreAway s core.val) (crownTrapOp run core.val) s))

/-- `CROWN_TIME_LIMIT` (R314). -/
def execCrownTimeLimit (run : Nat) (s : State) : Host.Outcome State Fault Refusal :=
  .next (settle (whenHere (schAway s) (crownLimitOp run) s))

/-- `CROWN_POISON_EXCEPTION` (R315). -/
def execCrownPoisonException (run : Nat) (core : Fin 32) (dva : BitVec 52) (s : State) : Host.Outcome State Fault Refusal :=
  .next (settle (crownPoisonOp run core.val dva.toNat s))

/-- `CROWN_ATOMIC` (R80). -/
def execCrownAtomic (run : Nat) (core : Fin 32) (dva : BitVec 52) (op : AtomicKind) (wide : Bool) (operand new : BitVec 64) (s : State) : Host.Outcome State Fault Refusal :=
  .next (settle (crownAtomicOp run core.val dva.toNat op wide operand.toNat new.toNat s))

/-- `MIGRATION_CUTOVER` (R323). -/
def execMigrationCutover (serial : Nat) (s : State) : Host.Outcome State Fault Refusal :=
  .next (settle (whenHere (schAway s) (cutover serial) s))

/-- `ITEM_RESULT_LANDED` (R323). -/
def execItemResultLanded (serial : Nat) (item : BitVec 24) (core : Fin 128) (out : List DvaByte) (overflow : Bool) (s : State) : Host.Outcome State Fault Refusal :=
  .next (settle (itemLanded serial item.toNat core.val out overflow s))

/-- `KERNEL_PHASE_START` (R309). -/
def execKernelPhaseStart (serial : Nat) (s : State) : Host.Outcome State Fault Refusal :=
  .next (settle (whenHere (schAway s) (phaseStart serial) s))

end Sys2Proof.Machine
end

