-- ==== Sys2Proof/Machine/FaultRows.lean ====
section
/-!
DEFINITION. One meaning per row of spec/opcode_table.json: faults of cores, stacks and dies (chapter 22).
-/

namespace Sys2Proof.Machine

/-- `DIE_PLL_LOCK_LOSS` (R439). -/
def execDiePllLockLoss (die : Fin 4) (s : State) : Host.Outcome State Fault Refusal :=
  .next (settle (dieLost die.val s))

/-- `COMPUTE_CORE_FAULT` (R437). -/
def execComputeCoreFault (core : CoreRef) (s : State) : Host.Outcome State Fault Refusal :=
  .next (settle (coreFault core s))

/-- `TILE_PROGRESS_TIMEOUT` (R437). -/
def execTileProgressTimeout (core : Fin 128) (s : State) : Host.Outcome State Fault Refusal :=
  .next (settle (tileStuck core.val s))

/-- `HBM_STACK_FAULT` (R437). -/
def execHbmStackFault (stack : Fin 8) (s : State) : Host.Outcome State Fault Refusal :=
  .next (settle (hbmStackFails stack.val s))

/-- `WATCHDOG_EXPIRY` (R381). -/
def execWatchdogExpiry (core : Fin 28) (s : State) : Host.Outcome State Fault Refusal :=
  .next (settle (watchdog core.val s))

/-- `SCH_HEARTBEAT_MISS` (R381). -/
def execSchHeartbeatMiss (s : State) : Host.Outcome State Fault Refusal :=
  .next (settle (heartbeatMiss s))

/-- `NOTICE_WINDOW_END` (R441). -/
def execNoticeWindowEnd (kind : BitVec 8) (polder : BitVec 7) (port : BitVec 5) (hid : BitVec 8) (unit : BitVec 20) (tcx : BitVec 12) (s : State) : Host.Outcome State Fault Refusal :=
  .next (settle (endWindow ⟨kind.toNat, polder.toNat, port.toNat, hid.toNat, unit.toNat, tcx.toNat⟩ s))

/-- `CHANNEL_CORE_FAULT` (R437). -/
def execChannelCoreFault (channel : Fin 64) (s : State) : Host.Outcome State Fault Refusal :=
  .next (settle (channelCoreFails channel.val s))

/-- `SRAM_STACK_FAILURE` (R439). -/
def execSramStackFailure (stack : Fin 8) (s : State) : Host.Outcome State Fault Refusal :=
  .next (settle (dieLost (stack.val / 2) s))

/-- `SHADOW_HEARTBEAT_MISS` (R437). -/
def execShadowHeartbeatMiss (s : State) : Host.Outcome State Fault Refusal :=
  .next (settle (shadowMiss s))

end Sys2Proof.Machine
end

