-- ==== Sys2Proof/Machine/FlashRows.lean ====
section
/-!
DEFINITION. One meaning per row of spec/opcode_table.json: searches on flash and the events of the flash translation layer (chapters 6 and 13).
-/

namespace Sys2Proof.Machine

/-- `TAU_EXCHANGE` (R260). -/
def execTauExchange (serial : Nat) (channel : Fin 64) (s : State) : Host.Outcome State Fault Refusal :=
  .next (settle (tauExchangeOp serial channel.val s))

/-- `SEARCH_STAGE3_START` (R261). -/
def execSearchStage3Start (serial : Nat) (s : State) : Host.Outcome State Fault Refusal :=
  .next (settle (whenHere (schAway s) (stage3Start serial) s))

/-- `SCAN_START` (R268). -/
def execScanStart (channel : Fin 64) (s : State) : Host.Outcome State Fault Refusal :=
  .next (settle (whenHere (channelCoreAway s channel.val) (scanStart channel.val) s))

/-- `FLASH_READ_REQUEST` (R116). -/
def execFlashReadRequest (serial : Nat) (tpa : BitVec 50) (s : State) : Host.Outcome State Fault Refusal :=
  .next (settle (readRequest serial tpa.toNat s))

/-- `FLASH_DIE_OPERATION_START` (R116). -/
def execFlashDieOperationStart (channel : Fin 64) (die : Fin 16) (remaining : Nat) (s : State) : Host.Outcome State Fault Refusal :=
  .next (settle (dieStart channel.val die.val remaining s))

/-- `FLASH_SENSE_COMPLETE` (R114). -/
def execFlashSenseComplete (channel : Fin 64) (die : Fin 16) (res : SenseResult) (s : State) : Host.Outcome State Fault Refusal :=
  .next (settle (senseDone channel.val die.val res s))

/-- `FLASH_READ_DELIVER` (R115). -/
def execFlashReadDeliver (serial : Nat) (tpa : BitVec 50) (s : State) : Host.Outcome State Fault Refusal :=
  .next (settle (readDeliver serial tpa.toNat s))

/-- `FLASH_WRITE_ARRIVAL` (R117). -/
def execFlashWriteArrival (tile : Nat) (tpa : BitVec 50) (data : List Byte) (poison : Bool) (s : State) : Host.Outcome State Fault Refusal :=
  .next (settle (writeArrival tile tpa.toNat data poison s))

/-- `FLASH_PROGRAM_COMPLETE` (R117). -/
def execFlashProgramComplete (channel : Fin 64) (die : Fin 16) (ok : Bool) (s : State) : Host.Outcome State Fault Refusal :=
  .next (settle (programDone channel.val die.val ok s))

/-- `FLASH_ERASE_COMPLETE` (R122). -/
def execFlashEraseComplete (channel : Fin 64) (die : Fin 16) (ok : Bool) (s : State) : Host.Outcome State Fault Refusal :=
  .next (settle (eraseDone channel.val die.val ok s))

/-- `PROGRAM_STARVATION_TIMEOUT` (R116). -/
def execProgramStarvationTimeout (channel : Fin 64) (die : Fin 16) (s : State) : Host.Outcome State Fault Refusal :=
  .next (settle (starvation channel.val die.val s))

/-- `GARBAGE_COLLECTION_START` (R122). -/
def execGarbageCollectionStart (channel : Fin 64) (die : Fin 16) (s : State) : Host.Outcome State Fault Refusal :=
  .next (settle (whenHere (channelCoreAway s channel.val) (collectStart channel.val die.val) s))

/-- `FLASH_PATROL` (R122). -/
def execFlashPatrol (channel : Fin 64) (die : Fin 16) (block : BitVec 10) (level : Fin 9) (s : State) : Host.Outcome State Fault Refusal :=
  .next (settle (whenHere (channelCoreAway s channel.val) (patrolFlash channel.val die.val block.toNat level.val) s))

/-- `NAND_DIE_TIMEOUT` (R123). -/
def execNandDieTimeout (channel : Fin 64) (die : Fin 16) (s : State) : Host.Outcome State Fault Refusal :=
  .next (settle (dieTimeout channel.val die.val s))

/-- `MAP_CHECKPOINT` (R124). -/
def execMapCheckpoint (channel : Fin 64) (segment : Nat) (s : State) : Host.Outcome State Fault Refusal :=
  .next (settle (checkpoint channel.val segment s))

/-- `MAP_LOAD_COMPLETE` (R124). -/
def execMapLoadComplete (channel : Fin 64) (replicas : List SegmentReplicas) (s : State) : Host.Outcome State Fault Refusal :=
  .next (settle (mapLoadOp channel.val replicas s))

end Sys2Proof.Machine
end

