-- ==== Sys2Proof/Machine/HostRows.lean ====
section
/-!
DEFINITION. One meaning per row of spec/opcode_table.json: CXL.mem and CXL.io messages of hosts (chapter 4, R33, R38).
-/

namespace Sys2Proof.Machine

/-- `MEM_RD` (R69). -/
def execMemRd (q : MemReq) (mv : MetaValue) (lost : List (Fin 16)) (s : State) : Host.Outcome State Fault Refusal :=
  .next (settle (hostRead q (readOp mv) (loseSlots (lineOf q.tpa.toNat) lost s)))

/-- `MEM_RD_DATA` (R69). [DEDUCED, log 58] -/
def execMemRdData (q : MemReq) (s : State) : Host.Outcome State Fault Refusal :=
  .next (settle (hostRead q .readShared s))

/-- `MEM_INV` (R69). -/
def execMemInv (q : MemReq) (s : State) : Host.Outcome State Fault Refusal :=
  .next (settle (hostInvalidate q s))

/-- `MEM_CLN_EVCT` (R67). -/
def execMemClnEvct (q : MemReq) (s : State) : Host.Outcome State Fault Refusal :=
  .next (settle (hostEvict q s))

/-- `MEM_SPEC_RD` (R69). -/
def execMemSpecRd (q : MemReq) (s : State) : Host.Outcome State Fault Refusal :=
  .next (settle (hostSpecRead q s))

/-- `BI_CONFLICT` (R69). -/
def execBiConflict (q : MemReq) (s : State) : Host.Outcome State Fault Refusal :=
  .next (settle (hostConflict q s))

/-- `MEM_WR` (R71). -/
def execMemWr (q : MemReq) (mv : MetaValue) (data : LineData) (poison : Bool) (s : State) : Host.Outcome State Fault Refusal :=
  .next (settle (hostWriteMem q mv (BitVec.allOnes 64) data poison s))

/-- `MEM_WR_PTL` (R136). -/
def execMemWrPtl (q : MemReq) (mv : MetaValue) (mask : BitVec 64) (data : LineData) (poison : Bool) (s : State) : Host.Outcome State Fault Refusal :=
  .next (settle (hostWriteMem q mv mask data poison s))

/-- `BI_RSP_I` (R69). -/
def execBiRspI (q : MemReq) (s : State) : Host.Outcome State Fault Refusal :=
  .next (settle (hostResponse q false s))

/-- `BI_RSP_S` (R69). -/
def execBiRspS (q : MemReq) (s : State) : Host.Outcome State Fault Refusal :=
  .next (settle (hostResponse q true s))

/-- `BI_RSP_E` (R69). -/
def execBiRspE (q : MemReq) (s : State) : Host.Outcome State Fault Refusal :=
  .next (settle (hostResponseE q s))

/-- `ATOMIC_OP` (R77). -/
def execAtomicOp (q : MemReq) (op : HostAtomic) (size : AtomicSize) (operand new : BitVec 64) (s : State) : Host.Outcome State Fault Refusal :=
  .next (settle (hostAtomicReq q op size operand new s))

/-- `MALFORMED_TLP` (R418). -/
def execMalformedTlp (port : Fin 17) (ld : Fin 16) (s : State) : Host.Outcome State Fault Refusal :=
  .next (settle (countMalformed port.val ld.val s))

/-- `UNBOUND_LD_REQUEST` (R33). -/
def execUnboundLdRequest (q : MemReq) (kind : UnboundKind) (s : State) : Host.Outcome State Fault Refusal :=
  .next (settle (unboundRequest q kind s))

/-- `SNOOP_TIMEOUT` (R82). -/
def execSnoopTimeout (hid : BitVec 8) (tpa : BitVec 50) (s : State) : Host.Outcome State Fault Refusal :=
  .next (settle (snoopExpired hid.toNat tpa.toNat s))

/-- `DEAD_HOST_SWEEP_END` (R82). -/
def execDeadHostSweepEnd (hid : BitVec 8) (s : State) : Host.Outcome State Fault Refusal :=
  .next (settle (sweepEnd hid.toNat s))

end Sys2Proof.Machine
end

