-- ==== Sys2Proof/Machine/Items.lean ====
section
/-!
DEFINITION. One meaning per row of spec/opcode_table.json: the items of the submission queues (Table 18.1): each passes the intake or is the command already waiting, and then has its meaning.
-/

namespace Sys2Proof.Machine

/-- `IDENTIFY` (R366). -/
def execIdentify (it : Item) (s : State) : Host.Outcome State Fault Refusal :=
  .next (settle (runItem 0x01 it identifyBody s))

/-- `VERSION_HANDSHAKE` (R390). -/
def execVersionHandshake (it : Item) (s : State) : Host.Outcome State Fault Refusal :=
  .next (settle (runItem 0x02 it versionHandshakeBody s))

/-- `QP_CREATE` (R344). -/
def execQpCreate (it : Item) (s : State) : Host.Outcome State Fault Refusal :=
  .next (settle (runItem 0x04 it qpCreateBody s))

/-- `QP_DELETE` (R354). -/
def execQpDelete (it : Item) (s : State) : Host.Outcome State Fault Refusal :=
  .next (settle (runItem 0x05 it qpDeleteBody s))

/-- `QP_FLUSH` (R354). -/
def execQpFlush (it : Item) (s : State) : Host.Outcome State Fault Refusal :=
  .next (settle (runItem 0x06 it qpFlushBody s))

/-- `POLDER_CREATE` (R369). -/
def execPolderCreate (it : Item) (s : State) : Host.Outcome State Fault Refusal :=
  .next (settle (runItem 0x10 it polderCreateBody s))

/-- `POLDER_MODE_SET` (R335). -/
def execPolderModeSet (it : Item) (s : State) : Host.Outcome State Fault Refusal :=
  .next (settle (runItem 0x11 it polderModeSetBody s))

/-- `POLDER_DRAIN` (R370). -/
def execPolderDrain (it : Item) (s : State) : Host.Outcome State Fault Refusal :=
  .next (settle (runItem 0x12 it polderDrainBody s))

/-- `HIT_WRITE` (R36). -/
def execHitWrite (it : Item) (s : State) : Host.Outcome State Fault Refusal :=
  .next (settle (runItem 0x14 it hitWriteBody s))

/-- `HIT_READ` (R371). -/
def execHitRead (it : Item) (s : State) : Host.Outcome State Fault Refusal :=
  .next (settle (runItem 0x15 it hitReadBody s))

/-- `TENANT_CREATE` (R372). -/
def execTenantCreate (it : Item) (s : State) : Host.Outcome State Fault Refusal :=
  .next (settle (runItem 0x18 it tenantCreateBody s))

/-- `TENANT_RESET` (R42). -/
def execTenantReset (it : Item) (s : State) : Host.Outcome State Fault Refusal :=
  .next (settle (runItem 0x19 it tenantResetBody s))

/-- `POLICER_SET` (R180). -/
def execPolicerSet (it : Item) (s : State) : Host.Outcome State Fault Refusal :=
  .next (settle (runItem 0x1C it policerSetBody s))

/-- `SEG_WRITE` (R52). -/
def execSegWrite (it : Item) (s : State) : Host.Outcome State Fault Refusal :=
  .next (settle (runItem 0x20 it segWriteBody s))

/-- `SEG_SYNC` (R54). -/
def execSegSync (it : Item) (s : State) : Host.Outcome State Fault Refusal :=
  .next (settle (runItem 0x21 it segSyncBody s))

/-- `KEY_LOAD` (R156). -/
def execKeyLoad (it : Item) (s : State) : Host.Outcome State Fault Refusal :=
  .next (settle (runItem 0x28 it keyLoadBody s))

/-- `CAL_EXPORT` (R470). -/
def execCalExport (it : Item) (s : State) : Host.Outcome State Fault Refusal :=
  .next (settle (runItem 0x30 it calExportBody s))

/-- `CAL_IMPORT` (R470). -/
def execCalImport (it : Item) (s : State) : Host.Outcome State Fault Refusal :=
  .next (settle (runItem 0x31 it calImportBody s))

/-- `COPY_ASYNC` (R192). -/
def execCopyAsync (it : Item) (s : State) : Host.Outcome State Fault Refusal :=
  .next (settle (runItem 0x40 it copyBody s))

/-- `FENCE` (R374). -/
def execFence (it : Item) (s : State) : Host.Outcome State Fault Refusal :=
  .next (settle (runItem 0x41 it fenceBody s))

/-- `COUNTER_WAIT` (R196). -/
def execCounterWait (it : Item) (s : State) : Host.Outcome State Fault Refusal :=
  .next (settle (runItem 0x42 it counterWaitBody s))

/-- `ABORT` (R356). -/
def execAbort (it : Item) (s : State) : Host.Outcome State Fault Refusal :=
  .next (settle (runItem 0x43 it abortBody s))

/-- `ATOMIC` (R78). -/
def execAtomic (it : Item) (s : State) : Host.Outcome State Fault Refusal :=
  .next (settle (runItem 0x44 it atomicBody s))

/-- `RESIL_STATS` (R148). -/
def execResilStats (it : Item) (s : State) : Host.Outcome State Fault Refusal :=
  .next (settle (runItem 0x45 it resilStatsBody s))

/-- `WEIR_STATS` (R184). -/
def execWeirStats (it : Item) (s : State) : Host.Outcome State Fault Refusal :=
  .next (settle (runItem 0x46 it weirStatsBody s))

/-- `COPY_STATS` (R208). -/
def execCopyStats (it : Item) (s : State) : Host.Outcome State Fault Refusal :=
  .next (settle (runItem 0x47 it copyStatsBody s))

/-- `TABLE_REFRESH_BEGIN` (R229). -/
def execTableRefreshBegin (it : Item) (s : State) : Host.Outcome State Fault Refusal :=
  .next (settle (runItem 0x48 it refreshBeginBody s))

/-- `TABLE_REFRESH_COMMIT` (R231). -/
def execTableRefreshCommit (it : Item) (s : State) : Host.Outcome State Fault Refusal :=
  .next (settle (runItem 0x49 it refreshCommitBody s))

/-- `TIER_PROMOTE` (R97). -/
def execTierPromote (it : Item) (s : State) : Host.Outcome State Fault Refusal :=
  .next (settle (runItem 0x4A it tierPromoteBody s))

/-- `TIER_DEMOTE` (R97). -/
def execTierDemote (it : Item) (s : State) : Host.Outcome State Fault Refusal :=
  .next (settle (runItem 0x4B it tierDemoteBody s))

/-- `TIER_STATS` (R108). -/
def execTierStats (it : Item) (s : State) : Host.Outcome State Fault Refusal :=
  .next (settle (runItem 0x4C it tierStatsBody s))

/-- `HTW_WRITE` (R99). -/
def execHtwWrite (it : Item) (s : State) : Host.Outcome State Fault Refusal :=
  .next (settle (runItem 0x4D it htwWriteBody s))

/-- `HTW_READ` (R377). -/
def execHtwRead (it : Item) (s : State) : Host.Outcome State Fault Refusal :=
  .next (settle (runItem 0x4E it htwReadBody s))

/-- `FLASH_MANAGE` (R126). -/
def execFlashManage (it : Item) (s : State) : Host.Outcome State Fault Refusal :=
  .next (settle (runItem 0x4F it flashManageBody s))

/-- `TABLE_DEFINE` (R212). -/
def execTableDefine (it : Item) (s : State) : Host.Outcome State Fault Refusal :=
  .next (settle (runItem 0x50 it tableDefineBody s))

/-- `TABLE_WRITE` (R230). -/
def execTableWrite (it : Item) (s : State) : Host.Outcome State Fault Refusal :=
  .next (settle (runItem 0x51 it tableWriteBody s))

/-- `LOOKUP_STATS` (R234). -/
def execLookupStats (it : Item) (s : State) : Host.Outcome State Fault Refusal :=
  .next (settle (runItem 0x52 it lookupStatsBody s))

/-- `LOOKUP_POOLED` (R219). -/
def execLookupPooled (it : Item) (s : State) : Host.Outcome State Fault Refusal :=
  .next (settle (runItem 0x80 it lookupPooledBody s))

/-- `GATHER_ROWS` (R221). -/
def execGatherRows (it : Item) (s : State) : Host.Outcome State Fault Refusal :=
  .next (settle (runItem 0x81 it gatherRowsBody s))

/-- `SEQ_POOL` (R240). -/
def execSeqPool (it : Item) (s : State) : Host.Outcome State Fault Refusal :=
  .next (settle (runItem 0x84 it seqPoolBody s))

/-- `DECODE_ATTN` (R248). -/
def execDecodeAttn (it : Item) (s : State) : Host.Outcome State Fault Refusal :=
  .next (settle (runItem 0x86 it decodeAttnBody s))

/-- `SEARCH` (R261). -/
def execSearch (it : Item) (s : State) : Host.Outcome State Fault Refusal :=
  .next (settle (runItem 0x88 it (searchBody 0x88) s))

/-- `SEARCH_COMPAT` (R275). -/
def execSearchCompat (it : Item) (s : State) : Host.Outcome State Fault Refusal :=
  .next (settle (runItem 0x89 it (searchBody 0x89) s))

/-- `KERNEL_LAUNCH` (R309). -/
def execKernelLaunch (it : Item) (s : State) : Host.Outcome State Fault Refusal :=
  .next (settle (runItem 0xA0 it kernelLaunchBody s))

/-- `CROWN_RUN` (R312). -/
def execCrownRun (it : Item) (s : State) : Host.Outcome State Fault Refusal :=
  .next (settle (runItem 0xA8 it crownRunBody s))

/-- `DIGEST_SETUP` (R316). -/
def execDigestSetup (it : Item) (s : State) : Host.Outcome State Fault Refusal :=
  .next (settle (runItem 0xAC it digestSetupBody s))

/-- `REDUCE` (R202). -/
def execReduce (it : Item) (s : State) : Host.Outcome State Fault Refusal :=
  .next (settle (runItem 0xC0 it (collectiveBody 0xC0) s))

/-- `GATHER_HOSTS` (R203). -/
def execGatherHosts (it : Item) (s : State) : Host.Outcome State Fault Refusal :=
  .next (settle (runItem 0xC1 it (collectiveBody 0xC1) s))

/-- `FILTER_STREAM` (R203). -/
def execFilterStream (it : Item) (s : State) : Host.Outcome State Fault Refusal :=
  .next (settle (runItem 0xC2 it (collectiveBody 0xC2) s))

/-- `FW_STAGE` (R391). -/
def execFwStage (it : Item) (bundle : BundleRead) (s : State) : Host.Outcome State Fault Refusal :=
  .next (settle (runItem 0xE0 it (fwStageBody bundle) s))

/-- `FW_ACTIVATE` (R392). -/
def execFwActivate (it : Item) (digestsOk sectionsOk resumed : Bool) (s : State) : Host.Outcome State Fault Refusal :=
  .next (settle (runItem 0xE1 it (fwActivateBody digestsOk sectionsOk resumed) s))

/-- `REC_FREEZE` (R455). -/
def execRecFreeze (it : Item) (s : State) : Host.Outcome State Fault Refusal :=
  .next (settle (runItem 0xE8 it recFreezeBody s))

/-- `REC_READ` (R376). -/
def execRecRead (it : Item) (s : State) : Host.Outcome State Fault Refusal :=
  .next (settle (runItem 0xE9 it recReadBody s))

/-- `REC_THAW` (R455). -/
def execRecThaw (it : Item) (s : State) : Host.Outcome State Fault Refusal :=
  .next (settle (runItem 0xEA it recThawBody s))

/-- `DBG_STATUS` (R461). -/
def execDbgStatus (it : Item) (s : State) : Host.Outcome State Fault Refusal :=
  .next (settle (runItem 0xF0 it dbgStatusBody s))

/-- `DBG_CHALLENGE` (R460). -/
def execDbgChallenge (it : Item) (s : State) : Host.Outcome State Fault Refusal :=
  .next (settle (runItem 0xF1 it dbgChallengeBody s))

/-- `DBG_UNLOCK` (R460). -/
def execDbgUnlock (it : Item) (verifies : Bool) (s : State) : Host.Outcome State Fault Refusal :=
  .next (settle (runItem 0xF2 it (dbgUnlockBody verifies) s))

/-- `DBG_LOCK` (R460). -/
def execDbgLock (it : Item) (s : State) : Host.Outcome State Fault Refusal :=
  .next (settle (runItem 0xF3 it dbgLockBody s))

/-- `DBG_PEEK` (R462). -/
def execDbgPeek (it : Item) (s : State) : Host.Outcome State Fault Refusal :=
  .next (settle (runItem 0xF4 it dbgPeekBody s))

/-- `DBG_POKE` (R461). -/
def execDbgPoke (it : Item) (s : State) : Host.Outcome State Fault Refusal :=
  .next (settle (runItem 0xF5 it dbgPokeBody s))

/-- `DBG_HALT` (R464). -/
def execDbgHalt (it : Item) (lock : Option (Fin 28 × Nat)) (s : State) : Host.Outcome State Fault Refusal :=
  .next (settle (runItem 0xF6 it (dbgHaltBody lock) s))

/-- `DBG_RESUME` (R464). -/
def execDbgResume (it : Item) (s : State) : Host.Outcome State Fault Refusal :=
  .next (settle (runItem 0xF7 it dbgResumeBody s))

end Sys2Proof.Machine
end

