-- ==== Sys2Proof/Machine/LinkRows.lean ====
section
/-!
DEFINITION. One meaning per row of spec/opcode_table.json: host ports and links (chapter 20).
-/

namespace Sys2Proof.Machine

/-- `PORT_ENABLE` (R404). -/
def execPortEnable (port : Fin 17) (s : State) : Host.Outcome State Fault Refusal :=
  .next (settle (portEnableOp port.val s))

/-- `PORT_DISABLE` (R404). -/
def execPortDisable (port : Fin 17) (s : State) : Host.Outcome State Fault Refusal :=
  .next (settle (portDisableOp port.val s))

/-- `PORT_WIDTH_WRITE` (R404). -/
def execPortWidthWrite (port : Fin 17) (width : BitVec 2) (s : State) : Host.Outcome State Fault Refusal :=
  .next (settle (portWidthOp port.val width.toNat s))

/-- `LOSS_OF_SIGNAL` (R403). -/
def execLossOfSignal (port : Fin 17) (lane : Fin 16) (s : State) : Host.Outcome State Fault Refusal :=
  .next (settle (lightLost port.val lane.val 2 s))

/-- `LASER_LOW` (R403). -/
def execLaserLow (port : Fin 17) (lane : Fin 16) (s : State) : Host.Outcome State Fault Refusal :=
  .next (settle (lightLost port.val lane.val 3 s))

/-- `LINK_UP` (R407). -/
def execLinkUp (port : Fin 17) (link : Fin 4) (fast : Bool) (width : BitVec 5) (ptm : Bool) (s : State) : Host.Outcome State Fault Refusal :=
  .next (settle (linkComesUp port.val link.val fast width.toNat ptm s))

/-- `TRAINING_TIMEOUT` (R407). -/
def execTrainingTimeout (port : Fin 17) (link : Fin 4) (s : State) : Host.Outcome State Fault Refusal :=
  .next (settle (trainingEnds port.val link.val s))

/-- `TRAINING_SET_RECEIVED` (R409). -/
def execTrainingSetReceived (port : Fin 17) (link : Fin 4) (s : State) : Host.Outcome State Fault Refusal :=
  .next (settle (detachedAttempt port.val link.val s))

/-- `DETACHED_RETRY` (R408). -/
def execDetachedRetry (port : Fin 17) (link : Fin 4) (s : State) : Host.Outcome State Fault Refusal :=
  .next (settle (detachedAttempt port.val link.val s))

/-- `HOST_GRACE_EXPIRY` (R411). -/
def execHostGraceExpiry (port : Fin 17) (link : Fin 4) (s : State) : Host.Outcome State Fault Refusal :=
  .next (settle (graceExpired port.val link.val s))

/-- `L0P_NARROW` (R413). -/
def execL0pNarrow (port : Fin 17) (link : Fin 4) (s : State) : Host.Outcome State Fault Refusal :=
  .next (settle (l0pNarrowOp port.val link.val s))

/-- `L0P_WIDEN` (R413). -/
def execL0pWiden (port : Fin 17) (link : Fin 4) (s : State) : Host.Outcome State Fault Refusal :=
  .next (settle (l0pWidenOp port.val link.val s))

/-- `L1_IDLE_TIMEOUT` (R414). -/
def execL1IdleTimeout (port : Fin 17) (link : Fin 4) (origin : BitVec 64) (s : State) : Host.Outcome State Fault Refusal :=
  .next (settle (l1IdleOp port.val link.val origin s))

/-- `RDV_ACCEPT` (R415). -/
def execRdvAccept (port : Fin 17) (link : Fin 4) (payload : BitVec 128) (s : State) : Host.Outcome State Fault Refusal :=
  .next (settle (rdvAcceptOp port.val link.val payload s))

/-- `RDV_OFFER_TIMEOUT` (R414). -/
def execRdvOfferTimeout (port : Fin 17) (link : Fin 4) (s : State) : Host.Outcome State Fault Refusal :=
  .next (settle (rdvOfferOp port.val link.val s))

/-- `RDV_GRID_ACK` (R415). -/
def execRdvGridAck (port : Fin 17) (link : Fin 4) (payload : BitVec 128) (s : State) : Host.Outcome State Fault Refusal :=
  .next (settle (rdvGridAckOp port.val link.val payload s))

/-- `RDV_GRID_TIMEOUT` (R415). -/
def execRdvGridTimeout (port : Fin 17) (link : Fin 4) (s : State) : Host.Outcome State Fault Refusal :=
  .next (settle (rdvGridTimeoutOp port.val link.val s))

/-- `L1_WAKE` (R414). -/
def execL1Wake (port : Fin 17) (link : Fin 4) (withinGuard : Bool) (s : State) : Host.Outcome State Fault Refusal :=
  .next (settle (l1WakeOp port.val link.val withinGuard s))

/-- `L1_RESYNC` (R416). -/
def execL1Resync (port : Fin 17) (link : Fin 4) (withinGuard : Bool) (s : State) : Host.Outcome State Fault Refusal :=
  .next (settle (l1ResyncOp port.val link.val withinGuard s))

/-- `CREDIT_STALL_TIMEOUT` (R418). -/
def execCreditStallTimeout (port : Fin 17) (link : Fin 4) (s : State) : Host.Outcome State Fault Refusal :=
  .next (settle (recoveryOp port.val link.val (fun x => { x with creditStall := true }) s))

/-- `CREDIT_RECOVERY_TIMEOUT` (R418). -/
def execCreditRecoveryTimeout (port : Fin 17) (link : Fin 4) (s : State) : Host.Outcome State Fault Refusal :=
  .next (settle (creditFails port.val link.val s))

/-- `REPLAY_FAILURE` (R417). -/
def execReplayFailure (port : Fin 17) (link : Fin 4) (s : State) : Host.Outcome State Fault Refusal :=
  .next (settle (linkFails port.val link.val 7 s))

/-- `FLIT_ERROR` (R417). -/
def execFlitError (port : Fin 17) (link : Fin 4) (corrected : Bool) (newEpisode : Bool) (s : State) : Host.Outcome State Fault Refusal :=
  .next (settle (flitErrorOp port.val link.val corrected newEpisode s))

/-- `RECEIVER_OVERFLOW` (R418). -/
def execReceiverOverflow (port : Fin 17) (link : Fin 4) (s : State) : Host.Outcome State Fault Refusal :=
  .next (settle (recoveryOp port.val link.val (fun x => { x with overflows := x.overflows + 1 }) s))

/-- `FUNCTION_LEVEL_RESET` (R418). -/
def execFunctionLevelReset (port : Fin 17) (ld : Fin 16) (s : State) : Host.Outcome State Fault Refusal :=
  .next (settle (flrOp (sluiceIx port ld) s))

/-- `HOT_RESET` (R418). -/
def execHotReset (port : Fin 17) (link : Fin 4) (s : State) : Host.Outcome State Fault Refusal :=
  .next (settle (linkFails port.val link.val 4 s))

/-- `PTM_NO_RESPONSE` (R418). -/
def execPtmNoResponse (port : Fin 17) (link : Fin 4) (s : State) : Host.Outcome State Fault Refusal :=
  .next (settle (ptmLost port.val link.val s))

/-- `PARTNER_L0P_CHANGE` (R413). -/
def execPartnerL0pChange (port : Fin 17) (link : Fin 4) (width : BitVec 5) (s : State) : Host.Outcome State Fault Refusal :=
  .next (settle (partnerL0pOp port.val link.val width.toNat s))

end Sys2Proof.Machine
end

