-- ==== Sys2Proof/Machine/MemoryRows.lean ====
section
/-!
DEFINITION. One meaning per row of spec/opcode_table.json: accesses of engines, the events of the media, and the bounded steps of SCH (chapters 2 to 7).
-/

namespace Sys2Proof.Machine

/-- The ways that the read of a tile's first line finds lost (R438). -/
def loseFirst (e : EngineRef) (dva : Nat) (ways : List (Fin 16)) (s : State) : State :=
  match checkByte s e.tcx.toNat dva .read with
  | .at _ tpa => if lineDb s (lineOf tpa) then loseSlots (lineOf tpa) ways s else s
  | _ => s

/-- `ENGINE_READ` (R74). -/
def execEngineRead (e : EngineRef) (dva : BitVec 52) (length : BitVec 17) (dest : BitVec 32) (lost : List (Fin 16)) (s : State) : Host.Outcome State Fault Refusal :=
  .next (settle (engineReadOp e dva.toNat length.toNat dest.toNat (loseFirst e dva.toNat lost s)))

/-- `ENGINE_WRITE` (R73). -/
def execEngineWrite (e : EngineRef) (dva : BitVec 52) (data : List Byte) (poison : Bool) (s : State) : Host.Outcome State Fault Refusal :=
  .next (settle (engineWriteOp e dva.toNat data poison s))

/-- `ENGINE_ATOMIC` (R79). -/
def execEngineAtomic (e : EngineRef) (dva : BitVec 52) (op : AtomicKind) (wide : Bool) (operand new : BitVec 64) (s : State) : Host.Outcome State Fault Refusal :=
  .next (settle (engineAtomicOp e dva.toNat op wide operand.toNat new.toNat s))

/-- `SEGMENT_FILL_ARRIVAL` (R57). -/
def execSegmentFillArrival (unit : BitVec 8) (engine : BitVec 4) (stream : Fin 8) (entry : BitVec 16) (s : State) : Host.Outcome State Fault Refusal :=
  .next (settle (fillArrival unit.toNat engine.toNat stream.val entry.toNat s))

/-- `FETCH_ADD_BATCH_SEND` (R188). -/
def execFetchAddBatchSend (tpa : BitVec 50) (key : BitVec 13) (s : State) : Host.Outcome State Fault Refusal :=
  .next (settle (batchSend tpa.toNat key.toNat s))

/-- `ATOMIC_RESULT_RETURN` (R188). -/
def execAtomicResultReturn (tpa : BitVec 50) (key : BitVec 13) (s : State) : Host.Outcome State Fault Refusal :=
  .next (settle (resultReturn tpa.toNat key.toNat s))

/-- `MEDIUM_READ_COMPLETE` (R70). -/
def execMediumReadComplete (tpa : BitVec 50) (ecc : Ecc) (s : State) : Host.Outcome State Fault Refusal :=
  .next (settle (mediumDone tpa.toNat ecc s))

/-- `MEDIUM_WRITE_COMPLETE` (R72). -/
def execMediumWriteComplete (tpa : BitVec 50) (s : State) : Host.Outcome State Fault Refusal :=
  .next (settle (mediumWritten tpa.toNat s))

/-- `CHANNEL_FAILURE_DECLARED` (R140). -/
def execChannelFailureDeclared (ch : MemChannel) (s : State) : Host.Outcome State Fault Refusal :=
  .next (settle (channelFailed ch s))

/-- `PARITY_REBUILD_COMPLETE` (R141). -/
def execParityRebuildComplete (polder : BitVec 6) (s : State) : Host.Outcome State Fault Refusal :=
  .next (settle (rebuildDone polder.toNat s))

/-- `PATROL_READ` (R130). -/
def execPatrolRead (tpa : BitVec 50) (ecc : Ecc) (differ : Bool) (s : State) : Host.Outcome State Fault Refusal :=
  .next (settle (patrolOp tpa.toNat ecc differ s))

/-- `RESET_ENGINE_CUTOFF` (R42). -/
def execResetEngineCutoff (tcx : BitVec 12) (s : State) : Host.Outcome State Fault Refusal :=
  .next (settle (whenHere (schAway s) (resetCutoff tcx.toNat) s))

/-- `REMAP_ENGINE_CUTOFF` (R52). -/
def execRemapEngineCutoff (tcx : BitVec 12) (seg : Fin 16) (s : State) : Host.Outcome State Fault Refusal :=
  .next (settle (whenHere (schAway s) (remapCutoff tcx.toNat seg.val) s))

/-- `DRAIN_COMPLETE` (R31). -/
def execDrainComplete (polder : BitVec 6) (s : State) : Host.Outcome State Fault Refusal :=
  .next (settle (whenHere (schAway s) (drainComplete polder.toNat) s))

/-- `SCRUB_COMPLETE` (R32). -/
def execScrubComplete (polder : BitVec 6) (s : State) : Host.Outcome State Fault Refusal :=
  .next (settle (whenHere (schAway s) (scrubComplete polder.toNat) s))

/-- `GRANULE_FILL_COMPLETE` (R152). -/
def execGranuleFillComplete (tpa : BitVec 50) (s : State) : Host.Outcome State Fault Refusal :=
  .next (settle (granuleFilled tpa.toNat s))

/-- `OVERLAY_MERGE_END` (R232). -/
def execOverlayMergeEnd (tcx : BitVec 12) (table : BitVec 6) (s : State) : Host.Outcome State Fault Refusal :=
  .next (settle (mergeEnd (64 * tcx.toNat + table.toNat) s))

/-- `PROMOTION_SAMPLE_PERIOD` (R94). -/
def execPromotionSamplePeriod (polder : BitVec 6) (s : State) : Host.Outcome State Fault Refusal :=
  .next (settle (samplePeriod polder.toNat s))

/-- `PROMOTION_COPY_COMPLETE` (R95). -/
def execPromotionCopyComplete (tpa : BitVec 50) (s : State) : Host.Outcome State Fault Refusal :=
  .next (settle (promotionDone tpa.toNat s))

/-- `SKETCH_HALVING` (R225). -/
def execSketchHalving (polder : BitVec 6) (s : State) : Host.Outcome State Fault Refusal :=
  .next (settle (sketchHalve polder.toNat s))

/-- `ZERO_LENGTH_READ_RETURN` (R89). -/
def execZeroLengthReadReturn (serial : Nat) (hid : BitVec 8) (s : State) : Host.Outcome State Fault Refusal :=
  .next (settle (zeroReadReturn serial hid.toNat s))

/-- `TH_READ_COMPLETION` (R100). -/
def execThReadCompletion (tile : Nat) (res : ThResult) (s : State) : Host.Outcome State Fault Refusal :=
  .next (settle (thCompletion tile res s))

/-- `TH_READ_TIMEOUT` (R100). -/
def execThReadTimeout (tile : Nat) (s : State) : Host.Outcome State Fault Refusal :=
  .next (settle (thTimeout tile s))

/-- `SPILL_CUTOFF` (R103). -/
def execSpillCutoff (serial : Nat) (s : State) : Host.Outcome State Fault Refusal :=
  .next (settle (whenHere (schAway s) (spillCutoff serial) s))

end Sys2Proof.Machine
end

