-- ==== Sys2Proof/Machine/PowerRows.lean ====
section
/-!
DEFINITION. One meaning per row of spec/opcode_table.json: temperature, supply, governor, clusters and the start beat (chapter 21).
-/

namespace Sys2Proof.Machine

/-- An HBM stack's catastrophic-temperature output trips the device, whichever stack it is (R431). -/
def stackTrip (_stack : Fin 8) (s : State) : State := thermalTrip s

/-- A core rail of any die at or below the reset level (R434). -/
def dieSupplyReset (_die : Fin 4) (pct : BitVec 8) (s : State) : State := supplyResetCrossing pct s

/-- Any monitored rail outside its window (R477). -/
def railReset (_monitor : Fin 16) (s : State) : State := supplyReset s

/-- `THERMAL_SAMPLE` (R430). -/
def execThermalSample (readings : List Reading) (s : State) : Host.Outcome State Fault Refusal :=
  .next (settle (thermalSampleOp readings s))

/-- `THROTTLE_STEP` (R430). -/
def execThrottleStep (s : State) : Host.Outcome State Fault Refusal :=
  .next (settle (throttleStepOp s))

/-- `HBM_CATASTROPHIC_TEMP` (R431). -/
def execHbmCatastrophicTemp (stack : Fin 8) (s : State) : Host.Outcome State Fault Refusal :=
  .next (settle (stackTrip stack s))

/-- `SUPPLY_WARNING_CROSSING` (R433). -/
def execSupplyWarningCrossing (die : Fin 4) (pct : BitVec 8) (s : State) : Host.Outcome State Fault Refusal :=
  .next (settle (supplyWarning die.val pct s))

/-- `SUPPLY_ABOVE_WARNING` (R433). -/
def execSupplyAboveWarning (pct : BitVec 8) (s : State) : Host.Outcome State Fault Refusal :=
  .next (settle (supplyAbove pct s))

/-- `RESTORE_WINDOW_EXPIRY` (R433). -/
def execRestoreWindowExpiry (s : State) : Host.Outcome State Fault Refusal :=
  .next (settle (restoreEnds s))

/-- `SUPPLY_RESET_CROSSING` (R434). -/
def execSupplyResetCrossing (die : Fin 4) (pct : BitVec 8) (s : State) : Host.Outcome State Fault Refusal :=
  .next (settle (dieSupplyReset die pct s))

/-- `RAIL_OUT_OF_WINDOW` (R477). -/
def execRailOutOfWindow (monitor : Fin 16) (s : State) : Host.Outcome State Fault Refusal :=
  .next (settle (railReset monitor s))

/-- `GOVERNOR_SAMPLE` (R428). -/
def execGovernorSample (watts : BitVec 16) (s : State) : Host.Outcome State Fault Refusal :=
  .next (settle (governorSampleOp watts s))

/-- `GOVERNOR_STEP_DOWN` (R428). -/
def execGovernorStepDown (s : State) : Host.Outcome State Fault Refusal :=
  .next (settle (whenHere (pmcAway s) governorDown s))

/-- `GOVERNOR_STEP_UP` (R428). -/
def execGovernorStepUp (s : State) : Host.Outcome State Fault Refusal :=
  .next (settle (whenHere (pmcAway s) governorUp s))

/-- `GOVERNOR_EVACUATION` (R428). -/
def execGovernorEvacuation (cluster : Fin 16) (s : State) : Host.Outcome State Fault Refusal :=
  .next (settle (whenHere (pmcAway s) (governorEvacuate cluster.val) s))

/-- `EVACUATION_RELEASE` (R428). -/
def execEvacuationRelease (s : State) : Host.Outcome State Fault Refusal :=
  .next (settle (whenHere (pmcAway s) evacuationEnds s))

/-- `CLUSTER_IDLE_TIMEOUT` (R425). -/
def execClusterIdleTimeout (cluster : Fin 24) (long : Bool) (s : State) : Host.Outcome State Fault Refusal :=
  .next (settle (clusterIdle cluster.val long s))

/-- `CROWN_L2_FLUSH_COMPLETE` (R424). -/
def execCrownL2FlushComplete (cluster : Fin 4) (s : State) : Host.Outcome State Fault Refusal :=
  .next (settle (l2Flushed cluster.val s))

/-- `CLUSTER_WAKE_COMPLETE` (R424). -/
def execClusterWakeComplete (cluster : Fin 24) (s : State) : Host.Outcome State Fault Refusal :=
  .next (settle (wakeEnds cluster.val s))

/-- `START_BEAT` (R324). -/
def execStartBeat (s : State) : Host.Outcome State Fault Refusal :=
  .next (settle (startBeatOp s))

/-- `CONTROL_DOMAIN_DOZE` (R426). -/
def execControlDomainDoze (s : State) : Host.Outcome State Fault Refusal :=
  .next (settle (controlDozes s))

/-- `CLUSTER_SLEEP_ENTRY_END` (R424). -/
def execClusterSleepEntryEnd (cluster : Fin 24) (s : State) : Host.Outcome State Fault Refusal :=
  .next (settle (sleepEntered cluster.val s))

end Sys2Proof.Machine
end

