-- ==== Sys2Proof/Machine/QueueRows.lean ====
section
/-!
DEFINITION. One meaning per row of spec/opcode_table.json: doorbells, fetches, dispatch and the timers of queues (chapter 17).
-/

namespace Sys2Proof.Machine

/-- `ACTIVATION_RESUME_TIMEOUT` (R393). -/
def execActivationResumeTimeout (s : State) : Host.Outcome State Fault Refusal :=
  .next (settle (activationTimeout s))

/-- `HALT_DEFER_TIMEOUT` (R464). -/
def execHaltDeferTimeout (core : Fin 28) (s : State) : Host.Outcome State Fault Refusal :=
  .next (settle (haltTimeout core.val s))

/-- `ASQ_TAIL` (R346). -/
def execAsqTail (port : Fin 17) (ld : Fin 16) (tail : BitVec 16) (s : State) : Host.Outcome State Fault Refusal :=
  .next (settle (doorbell (sluiceIx port ld) none false tail.toNat s))

/-- `ACQ_HEAD` (R351). -/
def execAcqHead (port : Fin 17) (ld : Fin 16) (head : BitVec 16) (s : State) : Host.Outcome State Fault Refusal :=
  .next (settle (doorbell (sluiceIx port ld) none true head.toNat s))

/-- `SQ_TAIL` (R346). -/
def execSqTail (port : Fin 17) (ld : Fin 16) (qp : BitVec 8) (tail : BitVec 16) (s : State) : Host.Outcome State Fault Refusal :=
  .next (settle (doorbell (sluiceIx port ld) (some qp.toNat) false tail.toNat s))

/-- `CQ_HEAD` (R351). -/
def execCqHead (port : Fin 17) (ld : Fin 16) (qp : BitVec 8) (head : BitVec 16) (s : State) : Host.Outcome State Fault Refusal :=
  .next (settle (doorbell (sluiceIx port ld) (some qp.toNat) true head.toNat s))

/-- `ADMIN_ENABLE` (R342). -/
def execAdminEnable (port : Fin 17) (ld : Fin 16) (s : State) : Host.Outcome State Fault Refusal :=
  .next (settle (adminEnableOp port ld s))

/-- `ADMIN_DISABLE` (R342). -/
def execAdminDisable (port : Fin 17) (ld : Fin 16) (s : State) : Host.Outcome State Fault Refusal :=
  .next (settle (adminDisableOp port ld s))

/-- `ENTRY_FETCH` (R348). -/
def execEntryFetch (port : Fin 17) (ld : Fin 16) (qp : Option (BitVec 8)) (words : List Word) (host : List HostByte) (s : State) : Host.Outcome State Fault Refusal :=
  .next (settle (entryFetch port ld qp words host s))

/-- `PARTIAL_ITEM_EXPIRY` (R349). -/
def execPartialItemExpiry (port : Fin 17) (ld : Fin 16) (qp : Option (BitVec 8)) (s : State) : Host.Outcome State Fault Refusal :=
  .next (settle (partialExpiry port ld qp s))

/-- `COMMAND_DISPATCH` (R347). -/
def execCommandDispatch (s : State) : Host.Outcome State Fault Refusal :=
  .next (settle (dispatchOp s))

/-- `CQ_COALESCE_TIMEOUT` (R352). -/
def execCqCoalesceTimeout (port : Fin 17) (ld : Fin 16) (qp : BitVec 8) (s : State) : Host.Outcome State Fault Refusal :=
  .next (settle (coalesceTimeout port ld qp.toNat s))

/-- `MSIX_UNMASK` (R352). -/
def execMsixUnmask (port : Fin 17) (ld : Fin 16) (vector : BitVec 11) (s : State) : Host.Outcome State Fault Refusal :=
  .next (settle (unmaskVector port ld vector.toNat s))

/-- `WORK_POOL_SPACE_FREE` (R146). -/
def execWorkPoolSpaceFree (polder : BitVec 6) (s : State) : Host.Outcome State Fault Refusal :=
  .next (settle (poolSpaceFree polder.toNat s))

end Sys2Proof.Machine
end

