-- ==== Sys2Proof/Machine/SecurityRows.lean ====
section
/-!
DEFINITION. One meaning per row of spec/opcode_table.json: SPDM, IDE, the fabric manager and JTAG (chapters 8, 20 and 23).
-/

namespace Sys2Proof.Machine

/-- The FM API has one meaning through CXL.io and through MCTP (R399). -/
def fmAs (_mctp : Bool) (f : State → State) (s : State) : State := f s

/-- `GET_LD_INFO` names a port; every port has 16 LDs. -/
def ldInfoAt (_port : Fin 17) (s : State) : State := ldInfoOp s

/-- `GET_VERSION` (R162). -/
def execGetVersion (ep : SpdmEnd) (s : State) : Host.Outcome State Fault Refusal :=
  .next (settle (spdmVersion ep s))

/-- `GET_CAPABILITIES` (R162). -/
def execGetCapabilities (ep : SpdmEnd) (s : State) : Host.Outcome State Fault Refusal :=
  .next (settle (spdmCapabilities ep s))

/-- `NEGOTIATE_ALGORITHMS` (R162). -/
def execNegotiateAlgorithms (ep : SpdmEnd) (supported : Bool) (s : State) : Host.Outcome State Fault Refusal :=
  .next (settle (spdmNegotiate ep supported s))

/-- `GET_DIGESTS` (R162). -/
def execGetDigests (ep : SpdmEnd) (s : State) : Host.Outcome State Fault Refusal :=
  .next (settle (spdmDigests ep s))

/-- `GET_CERTIFICATE` (R162). -/
def execGetCertificate (ep : SpdmEnd) (slot : BitVec 4) (offset length : BitVec 16) (s : State) : Host.Outcome State Fault Refusal :=
  .next (settle (spdmCertificate ep slot.toNat offset.toNat length.toNat s))

/-- `CHALLENGE` (R162). -/
def execChallenge (ep : SpdmEnd) (slot : BitVec 4) (nonce : BitVec 256) (s : State) : Host.Outcome State Fault Refusal :=
  .next (settle (spdmChallenge ep slot.toNat nonce s))

/-- `GET_MEASUREMENTS` (R166). -/
def execGetMeasurements (ep : SpdmEnd) (index : BitVec 8) (s : State) : Host.Outcome State Fault Refusal :=
  .next (settle (spdmMeasurements ep index.toNat s))

/-- `KEY_EXCHANGE` (R162). -/
def execKeyExchange (ep : SpdmEnd) (session : BitVec 32) (mutualAuth : Bool) (s : State) : Host.Outcome State Fault Refusal :=
  .next (settle (spdmKeyExchange ep session.toNat mutualAuth s))

/-- `FINISH` (R162). -/
def execFinish (ep : SpdmEnd) (session : BitVec 32) (verifies : Bool) (s : State) : Host.Outcome State Fault Refusal :=
  .next (settle (spdmFinish ep session.toNat verifies s))

/-- `HEARTBEAT` (R162). -/
def execHeartbeat (ep : SpdmEnd) (session : BitVec 32) (s : State) : Host.Outcome State Fault Refusal :=
  .next (settle (spdmHeartbeat ep session.toNat s))

/-- `KEY_UPDATE` (R162). -/
def execKeyUpdate (ep : SpdmEnd) (session : BitVec 32) (s : State) : Host.Outcome State Fault Refusal :=
  .next (settle (spdmKeyUpdate ep session.toNat s))

/-- `END_SESSION` (R165). -/
def execEndSession (ep : SpdmEnd) (session : BitVec 32) (s : State) : Host.Outcome State Fault Refusal :=
  .next (settle (spdmEndSession ep session.toNat s))

/-- `SPDM_SESSION_TIMEOUT` (R162). -/
def execSpdmSessionTimeout (ep : SpdmEnd) (session : BitVec 32) (s : State) : Host.Outcome State Fault Refusal :=
  .next (settle (spdmTimeout ep session.toNat s))

/-- `KEY_PROG` (R163). -/
def execKeyProg (port : Fin 17) (ld : Fin 16) (stream : BitVec 8) (transmit : Bool) (session : BitVec 32) (s : State) : Host.Outcome State Fault Refusal :=
  .next (settle (keyProgOp port ld stream transmit session.toNat s))

/-- `K_SET_GO` (R163). -/
def execKSetGo (port : Fin 17) (ld : Fin 16) (stream : BitVec 8) (transmit : Bool) (session : BitVec 32) (s : State) : Host.Outcome State Fault Refusal :=
  .next (settle (kSetGoOp port ld stream transmit session.toNat s))

/-- `K_SET_STOP` (R163). -/
def execKSetStop (port : Fin 17) (ld : Fin 16) (stream : BitVec 8) (session : BitVec 32) (s : State) : Host.Outcome State Fault Refusal :=
  .next (settle (kSetStopOp port ld stream session.toNat s))

/-- `IDE_INTEGRITY_FAILURE` (R163). -/
def execIdeIntegrityFailure (port : Fin 17) (ld : Fin 16) (stream : BitVec 8) (s : State) : Host.Outcome State Fault Refusal :=
  .next (settle (ideFails port ld stream s))

/-- `FM_IDENTIFY` (R399). -/
def execFmIdentify (mctp : Bool) (s : State) : Host.Outcome State Fault Refusal :=
  .next (settle (fmAs mctp fmIdentifyOp s))

/-- `GET_LD_INFO` (R399). -/
def execGetLdInfo (mctp : Bool) (port : Fin 17) (s : State) : Host.Outcome State Fault Refusal :=
  .next (settle (fmAs mctp (ldInfoAt port) s))

/-- `GET_LD_ALLOCATIONS` (R399). -/
def execGetLdAllocations (mctp : Bool) (port : Fin 17) (s : State) : Host.Outcome State Fault Refusal :=
  .next (settle (fmAs mctp (ldAllocationsOp port.val) s))

/-- `SET_LD_ALLOCATIONS` (R399). -/
def execSetLdAllocations (mctp : Bool) (port : Fin 17) (division : List (BitVec 8)) (s : State) : Host.Outcome State Fault Refusal :=
  .next (settle (fmAs mctp (setLdAllocationsOp port.val division) s))

/-- `GET_QOS_STATUS` (R399). -/
def execGetQosStatus (mctp : Bool) (port : Fin 17) (ld : Fin 16) (s : State) : Host.Outcome State Fault Refusal :=
  .next (settle (fmAs mctp (qosStatusOp port.val ld.val) s))

/-- `FM_TUNNEL_ITEM` (R364). -/
def execFmTunnelItem (words : List Word) (s : State) : Host.Outcome State Fault Refusal :=
  .next (settle (tunnelItemOp words s))

/-- `BIND_HID` (R399). -/
def execBindHid (mctp : Bool) (b0 b1 b2 b3 : Byte) (s : State) : Host.Outcome State Fault Refusal :=
  .next (settle (fmAs mctp (bindOp b0 b1 b2 b3) s))

/-- `UNBIND_HID` (R399). -/
def execUnbindHid (mctp : Bool) (b0 b1 b2 b3 : Byte) (s : State) : Host.Outcome State Fault Refusal :=
  .next (settle (fmAs mctp (unbindOp b0 b1 b2 b3) s))

/-- `JTAG_DBGMBOX` (R463). -/
def execJtagDbgmbox (words : List Word) (host : List HostByte) (verifies : Bool) (lock : Option (Fin 28 × Nat)) (s : State) : Host.Outcome State Fault Refusal :=
  .next (settle (mailboxOp words host verifies lock s))

/-- `JTAG_IDFUSE` (R472). -/
def execJtagIdfuse (s : State) : Host.Outcome State Fault Refusal :=
  .next (settle (idfuseOp s))

/-- `JTAG_EXTEST` (R459). -/
def execJtagExtest (s : State) : Host.Outcome State Fault Refusal :=
  .next (settle (extestOp s))

/-- `JTAG_TAP_RESET` (R463). -/
def execJtagTapReset (s : State) : Host.Outcome State Fault Refusal :=
  .next (settle (tapResetOp s))

end Sys2Proof.Machine
end

