-- ==== Sys2Proof/Machine/StartRows.lean ====
section
/-!
DEFINITION. One meaning per row of spec/opcode_table.json: supplies, resets, start-up and the NOR (chapters 19 and 22).
-/

namespace Sys2Proof.Machine

/-- `HOLDUP_OK_ASSERT` (R117). -/
def execHoldupOkAssert (s : State) : Host.Outcome State Fault Refusal :=
  .next (settle (holdupAssert s))

/-- `STAGED_MODE_ENTRY` (R117). -/
def execStagedModeEntry (s : State) : Host.Outcome State Fault Refusal :=
  .next (settle (stagedEntry s))

/-- `HOLDUP_OK_DEASSERT` (R118). -/
def execHoldupOkDeassert (s : State) : Host.Outcome State Fault Refusal :=
  .next (settle (holdupDeassert s))

/-- `POWER_LOSS_DETECT` (R447). -/
def execPowerLossDetect (s : State) : Host.Outcome State Fault Refusal :=
  .next (settle (powerLoss s))

/-- `POWER_RESTORE_TIMEOUT` (R447). -/
def execPowerRestoreTimeout (s : State) : Host.Outcome State Fault Refusal :=
  .next (settle (powerRestored s))

/-- `TERP_SUPPLY_VALID` (R386). -/
def execTerpSupplyValid (f : TerpInputs) (s : State) : Host.Outcome State Fault Refusal :=
  .next (settle (terpStart f s))

/-- `TERP_RESET` (R395). -/
def execTerpReset (s : State) : Host.Outcome State Fault Refusal :=
  .next (settle (terpResetOp s))

/-- `SYS_RESET_ASSERT` (R395). -/
def execSysResetAssert (short : Bool) (s : State) : Host.Outcome State Fault Refusal :=
  .next (settle (sysResetLow short s))

/-- `SYS_RESET_RELEASE` (R387). -/
def execSysResetRelease (t : TrayInputs) (s : State) : Host.Outcome State Fault Refusal :=
  .next (settle (startDevice t s))

/-- `START_UP_STEP_TIMEOUT` (R387). -/
def execStartUpStepTimeout (step : BitVec 8) (s : State) : Host.Outcome State Fault Refusal :=
  .next (settle (stepOverruns step s))

/-- `ZERO_FILL_COMPLETE` (R388). -/
def execZeroFillComplete (slice : FillSlice) (readBackOk : Bool) (s : State) : Host.Outcome State Fault Refusal :=
  .next (settle (zeroFilled slice readBackOk s))

/-- `DEVICE_NOR_WRITE_COMPLETE` (R457). -/
def execDeviceNorWriteComplete (write : NorWrite) (ok : Bool) (s : State) : Host.Outcome State Fault Refusal :=
  .next (settle (norWriteDone write ok s))

end Sys2Proof.Machine
end

