-- ==== Sys2Proof/Machine/WeirRows.lean ====
section
/-!
DEFINITION. One meaning per row of spec/opcode_table.json: frames, levees and the events of copies and collectives (chapters 1, 9 and 10).
-/

namespace Sys2Proof.Machine

/-- `WEIR_FRAME_ARRIVAL` (R171). -/
def execWeirFrameArrival (die : Fin 4) (att : Fin 33) (frame : Frame) (crcOk : Bool) (received : BitVec 7) (s : State) : Host.Outcome State Fault Refusal :=
  .next (settle (weirArrival die.val att.val frame crcOk received.toNat s))

/-- `FRAME_ADMIT_RETRY` (R178). -/
def execFrameAdmitRetry (die : Fin 4) (att : Fin 33) (s : State) : Host.Outcome State Fault Refusal :=
  .next (settle (weirRetry die.val att.val s))

/-- `WEIR_FRAME_DELIVER` (R179). -/
def execWeirFrameDeliver (die : Fin 4) (att : Fin 33) (err : FrameError) (s : State) : Host.Outcome State Fault Refusal :=
  .next (settle (weirDeliver die.val att.val err s))

/-- `DROP_NOTICE` (R192). -/
def execDropNotice (serial : Nat) (frame : Frame) (s : State) : Host.Outcome State Fault Refusal :=
  .next (settle (dropNoticeOp serial frame s))

/-- `BEST_EFFORT_RESEND` (R192). -/
def execBestEffortResend (serial : Nat) (tag : BitVec 18) (s : State) : Host.Outcome State Fault Refusal :=
  .next (settle (resendOp serial tag s))

/-- `WEIR_STATS_PERIOD` (R184). -/
def execWeirStatsPeriod (tcx : BitVec 12) (s : State) : Host.Outcome State Fault Refusal :=
  .next (settle (weirPeriod tcx.toNat s))

/-- `LEVEE_FRAME_RECEIVED` (R16). -/
def execLeveeFrameReceived (link : Fin 6) (up : Bool) (seq : BitVec 16) (crcOk : Bool) (s : State) : Host.Outcome State Fault Refusal :=
  .next (settle (leveeFrame link.val up seq.toNat crcOk s))

/-- `LEVEE_LANE_FAILURE` (R16). -/
def execLeveeLaneFailure (link : Fin 6) (up : Bool) (group : Fin 8) (s : State) : Host.Outcome State Fault Refusal :=
  .next (settle (leveeLane link.val up group.val s))

/-- `LEVEE_RETRAIN_END` (R16). -/
def execLeveeRetrainEnd (link : Fin 6) (ok : Bool) (s : State) : Host.Outcome State Fault Refusal :=
  .next (settle (leveeRetrained link.val ok s))

/-- `CHUNK_LANDED` (R194). -/
def execChunkLanded (serial : Nat) (host : List HostByte) (s : State) : Host.Outcome State Fault Refusal :=
  .next (settle (chunkLand serial host s))

/-- `WAIT_TIMEOUT` (R196). -/
def execWaitTimeout (serial : Nat) (s : State) : Host.Outcome State Fault Refusal :=
  .next (settle (waitTimeoutOp serial s))

/-- `PUSH_SLOT_WRITE` (R197). -/
def execPushSlotWrite (port : Fin 17) (ld : Fin 16) (slot : Fin 16) (offset : BitVec 16) (data : List Byte) (s : State) : Host.Outcome State Fault Refusal :=
  .next (settle (pushWrite (sluiceIx port ld) slot.val offset.toNat data s))

/-- `PUSH_BURST_EXPIRY` (R198). -/
def execPushBurstExpiry (port : Fin 17) (ld : Fin 16) (slot : Fin 16) (s : State) : Host.Outcome State Fault Refusal :=
  .next (settle (burstExpiry (sluiceIx port ld) slot.val s))

/-- `JOIN_TIMEOUT` (R201). -/
def execJoinTimeout (polder : BitVec 6) (group : Word) (s : State) : Host.Outcome State Fault Refusal :=
  .next (settle (joinTimeoutOp polder.toNat group.toNat s))

end Sys2Proof.Machine
end

