-- ==== Sys2Proof/Machine/Dispatch.lean ====
section
/-!
DEFINITION. One arm per command: a direct call of its meaning.
-/

namespace Sys2Proof.Machine

def exec (i : Instr) (s : State) : Host.Outcome State Fault Refusal :=
  match i with
  | .identify it => Sys2Proof.Machine.execIdentify it s
  | .versionHandshake it => Sys2Proof.Machine.execVersionHandshake it s
  | .qpCreate it => Sys2Proof.Machine.execQpCreate it s
  | .qpDelete it => Sys2Proof.Machine.execQpDelete it s
  | .qpFlush it => Sys2Proof.Machine.execQpFlush it s
  | .polderCreate it => Sys2Proof.Machine.execPolderCreate it s
  | .polderModeSet it => Sys2Proof.Machine.execPolderModeSet it s
  | .polderDrain it => Sys2Proof.Machine.execPolderDrain it s
  | .hitWrite it => Sys2Proof.Machine.execHitWrite it s
  | .hitRead it => Sys2Proof.Machine.execHitRead it s
  | .tenantCreate it => Sys2Proof.Machine.execTenantCreate it s
  | .tenantReset it => Sys2Proof.Machine.execTenantReset it s
  | .policerSet it => Sys2Proof.Machine.execPolicerSet it s
  | .segWrite it => Sys2Proof.Machine.execSegWrite it s
  | .segSync it => Sys2Proof.Machine.execSegSync it s
  | .keyLoad it => Sys2Proof.Machine.execKeyLoad it s
  | .calExport it => Sys2Proof.Machine.execCalExport it s
  | .calImport it => Sys2Proof.Machine.execCalImport it s
  | .copyAsync it => Sys2Proof.Machine.execCopyAsync it s
  | .fence it => Sys2Proof.Machine.execFence it s
  | .counterWait it => Sys2Proof.Machine.execCounterWait it s
  | .abort it => Sys2Proof.Machine.execAbort it s
  | .atomic it => Sys2Proof.Machine.execAtomic it s
  | .resilStats it => Sys2Proof.Machine.execResilStats it s
  | .weirStats it => Sys2Proof.Machine.execWeirStats it s
  | .copyStats it => Sys2Proof.Machine.execCopyStats it s
  | .tableRefreshBegin it => Sys2Proof.Machine.execTableRefreshBegin it s
  | .tableRefreshCommit it => Sys2Proof.Machine.execTableRefreshCommit it s
  | .tierPromote it => Sys2Proof.Machine.execTierPromote it s
  | .tierDemote it => Sys2Proof.Machine.execTierDemote it s
  | .tierStats it => Sys2Proof.Machine.execTierStats it s
  | .htwWrite it => Sys2Proof.Machine.execHtwWrite it s
  | .htwRead it => Sys2Proof.Machine.execHtwRead it s
  | .flashManage it => Sys2Proof.Machine.execFlashManage it s
  | .tableDefine it => Sys2Proof.Machine.execTableDefine it s
  | .tableWrite it => Sys2Proof.Machine.execTableWrite it s
  | .lookupStats it => Sys2Proof.Machine.execLookupStats it s
  | .lookupPooled it => Sys2Proof.Machine.execLookupPooled it s
  | .gatherRows it => Sys2Proof.Machine.execGatherRows it s
  | .seqPool it => Sys2Proof.Machine.execSeqPool it s
  | .decodeAttn it => Sys2Proof.Machine.execDecodeAttn it s
  | .search it => Sys2Proof.Machine.execSearch it s
  | .searchCompat it => Sys2Proof.Machine.execSearchCompat it s
  | .kernelLaunch it => Sys2Proof.Machine.execKernelLaunch it s
  | .crownRun it => Sys2Proof.Machine.execCrownRun it s
  | .digestSetup it => Sys2Proof.Machine.execDigestSetup it s
  | .reduce it => Sys2Proof.Machine.execReduce it s
  | .gatherHosts it => Sys2Proof.Machine.execGatherHosts it s
  | .filterStream it => Sys2Proof.Machine.execFilterStream it s
  | .fwStage it bundle => Sys2Proof.Machine.execFwStage it bundle s
  | .fwActivate it digestsOk sectionsOk resumed => Sys2Proof.Machine.execFwActivate it digestsOk sectionsOk resumed s
  | .activationResumeTimeout => Sys2Proof.Machine.execActivationResumeTimeout s
  | .recFreeze it => Sys2Proof.Machine.execRecFreeze it s
  | .recRead it => Sys2Proof.Machine.execRecRead it s
  | .recThaw it => Sys2Proof.Machine.execRecThaw it s
  | .dbgStatus it => Sys2Proof.Machine.execDbgStatus it s
  | .dbgChallenge it => Sys2Proof.Machine.execDbgChallenge it s
  | .dbgUnlock it verifies => Sys2Proof.Machine.execDbgUnlock it verifies s
  | .dbgLock it => Sys2Proof.Machine.execDbgLock it s
  | .dbgPeek it => Sys2Proof.Machine.execDbgPeek it s
  | .dbgPoke it => Sys2Proof.Machine.execDbgPoke it s
  | .dbgHalt it lock => Sys2Proof.Machine.execDbgHalt it lock s
  | .dbgResume it => Sys2Proof.Machine.execDbgResume it s
  | .haltDeferTimeout core => Sys2Proof.Machine.execHaltDeferTimeout core s
  | .asqTail port ld tail => Sys2Proof.Machine.execAsqTail port ld tail s
  | .acqHead port ld head => Sys2Proof.Machine.execAcqHead port ld head s
  | .sqTail port ld qp tail => Sys2Proof.Machine.execSqTail port ld qp tail s
  | .cqHead port ld qp head => Sys2Proof.Machine.execCqHead port ld qp head s
  | .adminEnable port ld => Sys2Proof.Machine.execAdminEnable port ld s
  | .adminDisable port ld => Sys2Proof.Machine.execAdminDisable port ld s
  | .entryFetch port ld qp words host => Sys2Proof.Machine.execEntryFetch port ld qp words host s
  | .partialItemExpiry port ld qp => Sys2Proof.Machine.execPartialItemExpiry port ld qp s
  | .commandDispatch => Sys2Proof.Machine.execCommandDispatch s
  | .cqCoalesceTimeout port ld qp => Sys2Proof.Machine.execCqCoalesceTimeout port ld qp s
  | .msixUnmask port ld vector => Sys2Proof.Machine.execMsixUnmask port ld vector s
  | .crownSubmit run core words => Sys2Proof.Machine.execCrownSubmit run core words s
  | .crownWait run core cid => Sys2Proof.Machine.execCrownWait run core cid s
  | .crownCounter run core cnt threshold => Sys2Proof.Machine.execCrownCounter run core cnt threshold s
  | .crownFence run core => Sys2Proof.Machine.execCrownFence run core s
  | .crownPoll run core cid => Sys2Proof.Machine.execCrownPoll run core cid s
  | .crownTime run core => Sys2Proof.Machine.execCrownTime run core s
  | .crownTdcRead run core => Sys2Proof.Machine.execCrownTdcRead run core s
  | .crownLog run core data => Sys2Proof.Machine.execCrownLog run core data s
  | .crownExit run core value => Sys2Proof.Machine.execCrownExit run core value s
  | .crownTrap run core => Sys2Proof.Machine.execCrownTrap run core s
  | .crownTimeLimit run => Sys2Proof.Machine.execCrownTimeLimit run s
  | .crownPoisonException run core dva => Sys2Proof.Machine.execCrownPoisonException run core dva s
  | .crownAtomic run core dva op wide operand new => Sys2Proof.Machine.execCrownAtomic run core dva op wide operand new s
  | .memRd q mv lost => Sys2Proof.Machine.execMemRd q mv lost s
  | .memRdData q => Sys2Proof.Machine.execMemRdData q s
  | .memInv q => Sys2Proof.Machine.execMemInv q s
  | .memClnEvct q => Sys2Proof.Machine.execMemClnEvct q s
  | .memSpecRd q => Sys2Proof.Machine.execMemSpecRd q s
  | .biConflict q => Sys2Proof.Machine.execBiConflict q s
  | .memWr q mv data poison => Sys2Proof.Machine.execMemWr q mv data poison s
  | .memWrPtl q mv mask data poison => Sys2Proof.Machine.execMemWrPtl q mv mask data poison s
  | .biRspI q => Sys2Proof.Machine.execBiRspI q s
  | .biRspS q => Sys2Proof.Machine.execBiRspS q s
  | .biRspE q => Sys2Proof.Machine.execBiRspE q s
  | .atomicOp q op size operand new => Sys2Proof.Machine.execAtomicOp q op size operand new s
  | .malformedTlp port ld => Sys2Proof.Machine.execMalformedTlp port ld s
  | .unboundLdRequest q kind => Sys2Proof.Machine.execUnboundLdRequest q kind s
  | .engineRead e dva length dest lost => Sys2Proof.Machine.execEngineRead e dva length dest lost s
  | .engineWrite e dva data poison => Sys2Proof.Machine.execEngineWrite e dva data poison s
  | .engineAtomic e dva op wide operand new => Sys2Proof.Machine.execEngineAtomic e dva op wide operand new s
  | .segmentFillArrival unit engine stream entry => Sys2Proof.Machine.execSegmentFillArrival unit engine stream entry s
  | .fetchAddBatchSend tpa key => Sys2Proof.Machine.execFetchAddBatchSend tpa key s
  | .atomicResultReturn tpa key => Sys2Proof.Machine.execAtomicResultReturn tpa key s
  | .mediumReadComplete tpa ecc => Sys2Proof.Machine.execMediumReadComplete tpa ecc s
  | .mediumWriteComplete tpa => Sys2Proof.Machine.execMediumWriteComplete tpa s
  | .channelFailureDeclared ch => Sys2Proof.Machine.execChannelFailureDeclared ch s
  | .parityRebuildComplete polder => Sys2Proof.Machine.execParityRebuildComplete polder s
  | .patrolRead tpa ecc differ => Sys2Proof.Machine.execPatrolRead tpa ecc differ s
  | .snoopTimeout hid tpa => Sys2Proof.Machine.execSnoopTimeout hid tpa s
  | .deadHostSweepEnd hid => Sys2Proof.Machine.execDeadHostSweepEnd hid s
  | .weirFrameArrival die att frame crcOk received => Sys2Proof.Machine.execWeirFrameArrival die att frame crcOk received s
  | .frameAdmitRetry die att => Sys2Proof.Machine.execFrameAdmitRetry die att s
  | .weirFrameDeliver die att err => Sys2Proof.Machine.execWeirFrameDeliver die att err s
  | .dropNotice serial frame => Sys2Proof.Machine.execDropNotice serial frame s
  | .bestEffortResend serial tag => Sys2Proof.Machine.execBestEffortResend serial tag s
  | .weirStatsPeriod tcx => Sys2Proof.Machine.execWeirStatsPeriod tcx s
  | .leveeFrameReceived link up seq crcOk => Sys2Proof.Machine.execLeveeFrameReceived link up seq crcOk s
  | .leveeLaneFailure link up group => Sys2Proof.Machine.execLeveeLaneFailure link up group s
  | .leveeRetrainEnd link ok => Sys2Proof.Machine.execLeveeRetrainEnd link ok s
  | .diePllLockLoss die => Sys2Proof.Machine.execDiePllLockLoss die s
  | .computeCoreFault core => Sys2Proof.Machine.execComputeCoreFault core s
  | .tileProgressTimeout core => Sys2Proof.Machine.execTileProgressTimeout core s
  | .hbmStackFault stack => Sys2Proof.Machine.execHbmStackFault stack s
  | .watchdogExpiry core => Sys2Proof.Machine.execWatchdogExpiry core s
  | .schHeartbeatMiss => Sys2Proof.Machine.execSchHeartbeatMiss s
  | .noticeWindowEnd kind polder port hid unit tcx => Sys2Proof.Machine.execNoticeWindowEnd kind polder port hid unit tcx s
  | .migrationCutover serial => Sys2Proof.Machine.execMigrationCutover serial s
  | .itemResultLanded serial item core out overflow => Sys2Proof.Machine.execItemResultLanded serial item core out overflow s
  | .resetEngineCutoff tcx => Sys2Proof.Machine.execResetEngineCutoff tcx s
  | .remapEngineCutoff tcx seg => Sys2Proof.Machine.execRemapEngineCutoff tcx seg s
  | .drainComplete polder => Sys2Proof.Machine.execDrainComplete polder s
  | .scrubComplete polder => Sys2Proof.Machine.execScrubComplete polder s
  | .granuleFillComplete tpa => Sys2Proof.Machine.execGranuleFillComplete tpa s
  | .overlayMergeEnd tcx table => Sys2Proof.Machine.execOverlayMergeEnd tcx table s
  | .promotionSamplePeriod polder => Sys2Proof.Machine.execPromotionSamplePeriod polder s
  | .promotionCopyComplete tpa => Sys2Proof.Machine.execPromotionCopyComplete tpa s
  | .sketchHalving polder => Sys2Proof.Machine.execSketchHalving polder s
  | .workPoolSpaceFree polder => Sys2Proof.Machine.execWorkPoolSpaceFree polder s
  | .chunkLanded serial host => Sys2Proof.Machine.execChunkLanded serial host s
  | .waitTimeout serial => Sys2Proof.Machine.execWaitTimeout serial s
  | .pushSlotWrite port ld slot offset data => Sys2Proof.Machine.execPushSlotWrite port ld slot offset data s
  | .pushBurstExpiry port ld slot => Sys2Proof.Machine.execPushBurstExpiry port ld slot s
  | .joinTimeout polder group => Sys2Proof.Machine.execJoinTimeout polder group s
  | .zeroLengthReadReturn serial hid => Sys2Proof.Machine.execZeroLengthReadReturn serial hid s
  | .thReadCompletion tile res => Sys2Proof.Machine.execThReadCompletion tile res s
  | .thReadTimeout tile => Sys2Proof.Machine.execThReadTimeout tile s
  | .spillCutoff serial => Sys2Proof.Machine.execSpillCutoff serial s
  | .tauExchange serial channel => Sys2Proof.Machine.execTauExchange serial channel s
  | .searchStage3Start serial => Sys2Proof.Machine.execSearchStage3Start serial s
  | .scanStart channel => Sys2Proof.Machine.execScanStart channel s
  | .kernelPhaseStart serial => Sys2Proof.Machine.execKernelPhaseStart serial s
  | .flashReadRequest serial tpa => Sys2Proof.Machine.execFlashReadRequest serial tpa s
  | .flashDieOperationStart channel die remaining => Sys2Proof.Machine.execFlashDieOperationStart channel die remaining s
  | .flashSenseComplete channel die res => Sys2Proof.Machine.execFlashSenseComplete channel die res s
  | .flashReadDeliver serial tpa => Sys2Proof.Machine.execFlashReadDeliver serial tpa s
  | .flashWriteArrival tile tpa data poison => Sys2Proof.Machine.execFlashWriteArrival tile tpa data poison s
  | .flashProgramComplete channel die ok => Sys2Proof.Machine.execFlashProgramComplete channel die ok s
  | .flashEraseComplete channel die ok => Sys2Proof.Machine.execFlashEraseComplete channel die ok s
  | .programStarvationTimeout channel die => Sys2Proof.Machine.execProgramStarvationTimeout channel die s
  | .garbageCollectionStart channel die => Sys2Proof.Machine.execGarbageCollectionStart channel die s
  | .flashPatrol channel die block level => Sys2Proof.Machine.execFlashPatrol channel die block level s
  | .nandDieTimeout channel die => Sys2Proof.Machine.execNandDieTimeout channel die s
  | .mapCheckpoint channel segment => Sys2Proof.Machine.execMapCheckpoint channel segment s
  | .mapLoadComplete channel replicas => Sys2Proof.Machine.execMapLoadComplete channel replicas s
  | .holdupOkAssert => Sys2Proof.Machine.execHoldupOkAssert s
  | .stagedModeEntry => Sys2Proof.Machine.execStagedModeEntry s
  | .holdupOkDeassert => Sys2Proof.Machine.execHoldupOkDeassert s
  | .powerLossDetect => Sys2Proof.Machine.execPowerLossDetect s
  | .powerRestoreTimeout => Sys2Proof.Machine.execPowerRestoreTimeout s
  | .terpSupplyValid f => Sys2Proof.Machine.execTerpSupplyValid f s
  | .terpReset => Sys2Proof.Machine.execTerpReset s
  | .sysResetAssert short => Sys2Proof.Machine.execSysResetAssert short s
  | .sysResetRelease t => Sys2Proof.Machine.execSysResetRelease t s
  | .startUpStepTimeout step => Sys2Proof.Machine.execStartUpStepTimeout step s
  | .zeroFillComplete slice readBackOk => Sys2Proof.Machine.execZeroFillComplete slice readBackOk s
  | .thermalSample readings => Sys2Proof.Machine.execThermalSample readings s
  | .throttleStep => Sys2Proof.Machine.execThrottleStep s
  | .hbmCatastrophicTemp stack => Sys2Proof.Machine.execHbmCatastrophicTemp stack s
  | .supplyWarningCrossing die pct => Sys2Proof.Machine.execSupplyWarningCrossing die pct s
  | .supplyAboveWarning pct => Sys2Proof.Machine.execSupplyAboveWarning pct s
  | .restoreWindowExpiry => Sys2Proof.Machine.execRestoreWindowExpiry s
  | .supplyResetCrossing die pct => Sys2Proof.Machine.execSupplyResetCrossing die pct s
  | .railOutOfWindow monitor => Sys2Proof.Machine.execRailOutOfWindow monitor s
  | .governorSample watts => Sys2Proof.Machine.execGovernorSample watts s
  | .governorStepDown => Sys2Proof.Machine.execGovernorStepDown s
  | .governorStepUp => Sys2Proof.Machine.execGovernorStepUp s
  | .governorEvacuation cluster => Sys2Proof.Machine.execGovernorEvacuation cluster s
  | .evacuationRelease => Sys2Proof.Machine.execEvacuationRelease s
  | .clusterIdleTimeout cluster long => Sys2Proof.Machine.execClusterIdleTimeout cluster long s
  | .crownL2FlushComplete cluster => Sys2Proof.Machine.execCrownL2FlushComplete cluster s
  | .clusterWakeComplete cluster => Sys2Proof.Machine.execClusterWakeComplete cluster s
  | .startBeat => Sys2Proof.Machine.execStartBeat s
  | .controlDomainDoze => Sys2Proof.Machine.execControlDomainDoze s
  | .portEnable port => Sys2Proof.Machine.execPortEnable port s
  | .portDisable port => Sys2Proof.Machine.execPortDisable port s
  | .portWidthWrite port width => Sys2Proof.Machine.execPortWidthWrite port width s
  | .lossOfSignal port lane => Sys2Proof.Machine.execLossOfSignal port lane s
  | .laserLow port lane => Sys2Proof.Machine.execLaserLow port lane s
  | .linkUp port link fast width ptm => Sys2Proof.Machine.execLinkUp port link fast width ptm s
  | .trainingTimeout port link => Sys2Proof.Machine.execTrainingTimeout port link s
  | .trainingSetReceived port link => Sys2Proof.Machine.execTrainingSetReceived port link s
  | .detachedRetry port link => Sys2Proof.Machine.execDetachedRetry port link s
  | .hostGraceExpiry port link => Sys2Proof.Machine.execHostGraceExpiry port link s
  | .l0pNarrow port link => Sys2Proof.Machine.execL0pNarrow port link s
  | .l0pWiden port link => Sys2Proof.Machine.execL0pWiden port link s
  | .l1IdleTimeout port link origin => Sys2Proof.Machine.execL1IdleTimeout port link origin s
  | .rdvAccept port link payload => Sys2Proof.Machine.execRdvAccept port link payload s
  | .rdvOfferTimeout port link => Sys2Proof.Machine.execRdvOfferTimeout port link s
  | .rdvGridAck port link payload => Sys2Proof.Machine.execRdvGridAck port link payload s
  | .rdvGridTimeout port link => Sys2Proof.Machine.execRdvGridTimeout port link s
  | .l1Wake port link withinGuard => Sys2Proof.Machine.execL1Wake port link withinGuard s
  | .l1Resync port link withinGuard => Sys2Proof.Machine.execL1Resync port link withinGuard s
  | .creditStallTimeout port link => Sys2Proof.Machine.execCreditStallTimeout port link s
  | .creditRecoveryTimeout port link => Sys2Proof.Machine.execCreditRecoveryTimeout port link s
  | .replayFailure port link => Sys2Proof.Machine.execReplayFailure port link s
  | .flitError port link corrected newEpisode => Sys2Proof.Machine.execFlitError port link corrected newEpisode s
  | .receiverOverflow port link => Sys2Proof.Machine.execReceiverOverflow port link s
  | .functionLevelReset port ld => Sys2Proof.Machine.execFunctionLevelReset port ld s
  | .hotReset port link => Sys2Proof.Machine.execHotReset port link s
  | .ptmNoResponse port link => Sys2Proof.Machine.execPtmNoResponse port link s
  | .getVersion ep => Sys2Proof.Machine.execGetVersion ep s
  | .getCapabilities ep => Sys2Proof.Machine.execGetCapabilities ep s
  | .negotiateAlgorithms ep supported => Sys2Proof.Machine.execNegotiateAlgorithms ep supported s
  | .getDigests ep => Sys2Proof.Machine.execGetDigests ep s
  | .getCertificate ep slot offset length => Sys2Proof.Machine.execGetCertificate ep slot offset length s
  | .challenge ep slot nonce => Sys2Proof.Machine.execChallenge ep slot nonce s
  | .getMeasurements ep index => Sys2Proof.Machine.execGetMeasurements ep index s
  | .keyExchange ep session mutualAuth => Sys2Proof.Machine.execKeyExchange ep session mutualAuth s
  | .finish ep session verifies => Sys2Proof.Machine.execFinish ep session verifies s
  | .heartbeat ep session => Sys2Proof.Machine.execHeartbeat ep session s
  | .keyUpdate ep session => Sys2Proof.Machine.execKeyUpdate ep session s
  | .endSession ep session => Sys2Proof.Machine.execEndSession ep session s
  | .spdmSessionTimeout ep session => Sys2Proof.Machine.execSpdmSessionTimeout ep session s
  | .keyProg port ld stream transmit session => Sys2Proof.Machine.execKeyProg port ld stream transmit session s
  | .kSetGo port ld stream transmit session => Sys2Proof.Machine.execKSetGo port ld stream transmit session s
  | .kSetStop port ld stream session => Sys2Proof.Machine.execKSetStop port ld stream session s
  | .ideIntegrityFailure port ld stream => Sys2Proof.Machine.execIdeIntegrityFailure port ld stream s
  | .fmIdentify mctp => Sys2Proof.Machine.execFmIdentify mctp s
  | .getLdInfo mctp port => Sys2Proof.Machine.execGetLdInfo mctp port s
  | .getLdAllocations mctp port => Sys2Proof.Machine.execGetLdAllocations mctp port s
  | .setLdAllocations mctp port division => Sys2Proof.Machine.execSetLdAllocations mctp port division s
  | .getQosStatus mctp port ld => Sys2Proof.Machine.execGetQosStatus mctp port ld s
  | .fmTunnelItem words => Sys2Proof.Machine.execFmTunnelItem words s
  | .bindHid mctp b0 b1 b2 b3 => Sys2Proof.Machine.execBindHid mctp b0 b1 b2 b3 s
  | .unbindHid mctp b0 b1 b2 b3 => Sys2Proof.Machine.execUnbindHid mctp b0 b1 b2 b3 s
  | .i3cRegisterWrite offset data => Sys2Proof.Machine.execI3cRegisterWrite offset data s
  | .i3cRegisterRead count => Sys2Proof.Machine.execI3cRegisterRead count s
  | .smbusBlockWrite offset data pecOk => Sys2Proof.Machine.execSmbusBlockWrite offset data pecOk s
  | .smbusProcessCall offset length pecOk => Sys2Proof.Machine.execSmbusProcessCall offset length pecOk s
  | .mctpPacket payload => Sys2Proof.Machine.execMctpPacket payload s
  | .bmcBusTimeout => Sys2Proof.Machine.execBmcBusTimeout s
  | .i3cTargetReset => Sys2Proof.Machine.execI3cTargetReset s
  | .ibiRetry accepted => Sys2Proof.Machine.execIbiRetry accepted s
  | .jtagDbgmbox words host verifies lock => Sys2Proof.Machine.execJtagDbgmbox words host verifies lock s
  | .jtagIdfuse => Sys2Proof.Machine.execJtagIdfuse s
  | .jtagExtest => Sys2Proof.Machine.execJtagExtest s
  | .jtagTapReset => Sys2Proof.Machine.execJtagTapReset s
  | .bmcReset value => Sys2Proof.Machine.execBmcReset value s
  | .interlockClear => Sys2Proof.Machine.execInterlockClear s
  | .norRead => Sys2Proof.Machine.execNorRead s
  | .norProgram => Sys2Proof.Machine.execNorProgram s
  | .norErase => Sys2Proof.Machine.execNorErase s
  | .norCommandComplete ok => Sys2Proof.Machine.execNorCommandComplete ok s
  | .recWinLatch persistentWin => Sys2Proof.Machine.execRecWinLatch persistentWin s
  | .timeLoRead => Sys2Proof.Machine.execTimeLoRead s
  | .beatLoRead => Sys2Proof.Machine.execBeatLoRead s
  | .rcRegisterRead reg => Sys2Proof.Machine.execRcRegisterRead reg s
  | .warnStickyClear => Sys2Proof.Machine.execWarnStickyClear s
  | .terpIrqEnableWrite value => Sys2Proof.Machine.execTerpIrqEnableWrite value s
  | .registerWrite reg value => Sys2Proof.Machine.execRegisterWrite reg value s
  | .interlockSample a b => Sys2Proof.Machine.execInterlockSample a b s
  | .interlockChannelDebounced b => Sys2Proof.Machine.execInterlockChannelDebounced b s
  | .interlockDisagreeTimeout => Sys2Proof.Machine.execInterlockDisagreeTimeout s
  | .channelCoreFault channel => Sys2Proof.Machine.execChannelCoreFault channel s
  | .sramStackFailure stack => Sys2Proof.Machine.execSramStackFailure stack s
  | .clusterSleepEntryEnd cluster => Sys2Proof.Machine.execClusterSleepEntryEnd cluster s
  | .deviceNorWriteComplete write ok => Sys2Proof.Machine.execDeviceNorWriteComplete write ok s
  | .i3cCommonCommand ccc => Sys2Proof.Machine.execI3cCommonCommand ccc s
  | .shadowHeartbeatMiss => Sys2Proof.Machine.execShadowHeartbeatMiss s
  | .partnerL0pChange port link width => Sys2Proof.Machine.execPartnerL0pChange port link width s

end Sys2Proof.Machine
end

