-- ==== Sys2Proof/Machine/Step.lean ====
section
/-!
DEFINITION. One step of the block: the command at the front of the queue, or, on an empty queue, one tick of the terp's
time base (R420), the start beat being every 64th tick (R324).
-/

namespace Sys2Proof.Machine

/-- What an idle step does: 40 ns pass (R420); every 64 ticks the start-beat number rises (R324). DESIGN CHOICE 3. [DESIGN CHOICE, log 3] -/
def tick (s : State) : State :=
  { s with time := (s.time + 1) % 2 ^ 64
           beat := if (s.time + 1) % 64 = 0 then (s.beat + 1) % 2 ^ 48 else s.beat }

/-- [DESIGN CHOICE, log 3] [DESIGN CHOICE, log 26] -/
def step (s : State) : Host.Outcome State Fault Refusal :=
  match s.pending with
  | [] => .next (tick s)
  | c :: rest => exec c { s with pending := rest }

/-- The command that a word of the opcode table spells, in front of the queue; the table gives no bits to any row. -/
def State.withFetchWord (s : State) (nbits w : Nat) : State :=
  match decodeTableWord nbits w with
  | some c => { s with pending := c :: s.pending }
  | none => s

end Sys2Proof.Machine
end

