-- ==== Sys2Proof/Safety.lean ====
section
/-!
DEFINITION. What a sound state of the device is, in the terms claims use: the canonical form of memory, and the states in
which nothing but the command at hand is in progress.
-/

namespace Sys2Proof.Machine

/-- The bytes of the tray are in canonical form: addresses strictly rising, no entry equal to what an unlisted address reads. -/
abbrev Memory.wf (m : MemSt) : Bool := tabWf m.bytes (0 : BitVec 8)

/-- The device runs its firmware and nothing is in progress but what a command brings. -/
def Running (s : State) : Prop := s.pins.terpUp = true ∧ s.fw.started = true ∧ s.fw.terpOnly = false ∧ quiet s = true

/-- The command of an item has been fetched, waits, and may be dispatched (R347, R348). -/
def Waits (op : Nat) (it : Item) (s : State) (c : Cmd) : Prop :=
  srcExists s it.src = true ∧ hdrOpcode it.words = op ∧ pendingCmd s it = some c ∧ c.host = it.host ∧ c.waiting = true
    ∧ dispatchable s c = true ∧ ∀ d ∈ s.q.cmds, d.serial = c.serial → d = c

/-- A dispatched command: it takes the mode word of its polder and the arithmetic level in force (R332, R394). -/
def started (s : State) (c : Cmd) : Cmd :=
  { c with waiting := false, modes := (polderOf s c.polder).modes, arith := s.fw.running.manifest.arith }

/-- A core of a crown run is running code and its service call is served now (R313, R464). -/
def Serves (run core : Nat) (s : State) (r : CrownRun) (c : Cmd) : Prop :=
  tabFind s.eng.runs run = some r ∧ (s.q.cmds.find? fun d => decide (d.serial = run)) = some c ∧ coreRuns r core = true
    ∧ crownCoreAway s core = false

/-- Nothing concerns a line: no request is in service on it, no slot records a holder, and no directory way is LOST (R70, R438). -/
def LineIdle (line : Nat) (s : State) : Prop :=
  tabFind s.coh.flows line = none ∧ slotOf s line = none ∧ s.coh.lost = []

/-- A launch that has read a legal image and all it is launched with, no host holding a line it needs (R304 to R309). -/
def launchReady (kernel : Bool) (c : Cmd) (s : State) : Option (Launch × Run) :=
  match readLaunch kernel c s with
  | .ok (some l, r) => if runBlocked r then none else some (l, r)
  | _ => none

/-- A search that has read its request and index and may go on to its scans (R261 to R267). -/
def searchReady (op : Nat) (c : Cmd) (s : State) : Option (SearchRead × Run) := (searchPrepare op c s).toOption

/-- `PWR_WARN_N` follows the conditions of R481. -/
def warnFollows (s : State) : Prop :=
  s.pins.pwrWarn = (s.pins.terpUp && (s.pins.booting || s.fw.terpOnly || s.pwr.warnNow || s.flt.lossHeld))

/-- A cluster with work is active or waking, and one without work is not active (R424). -/
def clusterFollows (s : State) (cl : Nat) : Prop :=
  let x := clusterOf s cl
  if clusterBusy s cl then (x.state = .active ∧ x.entering = none ∧ x.flushing = none) ∨ x.waking = true else x.state ≠ .active

/-- What holds after every command: the warning pin and the clusters follow the rest of the state. -/
def Inv (s : State) : Prop := warnFollows s ∧ ∀ cl < 24, clusterFollows s cl

end Sys2Proof.Machine
end

