-- ==== Sys2Proof/Certificates/Slice0/Obligations.lean ====
section
/-!
DEFINITION. The statements about the BY-960 for the provers.
-/

open Sys2Proof Sys2Proof.Machine

/-- A step takes the command at the front of the queue and runs it on the state with the queue's rest.
* where the queue is not empty, a step is `exec` of its first command. -/
def Obligations.StepRunsFront : Prop :=
  (∀ (c : Instr) (rest : List Instr) (s : State),
    (s.pending = c :: rest) →
    step s = exec c { s with pending := rest })

/-- The tick on an empty queue is the model's choice, log entry 3; the beat of 64 ticks is R324's, the time base R421's.
* on an empty queue only the time and the beat change. -/
def Obligations.IdleStep : Prop :=
  (∀ (s : State),
    (s.pending = []) →
    step s = .next { s with time := (s.time + 1) % 2 ^ 64, beat := if (s.time + 1) % 64 = 0 then (s.beat + 1) % 2 ^ 48 else s.beat })

/-- The command table gives no row any bits. -/
def Obligations.TableWords : Prop :=

  ∀ (nbits w : Nat) (s : State), decodeTableWord nbits w = none ∧ s.withFetchWord nbits w = s

/-- No command ends in a fault or a refusal of the model. -/
def Obligations.EveryCommandAnswers : Prop :=

  ∀ (c : Instr) (s : State), ∃ t, exec c s = .next t

/-- The values that the spec gives for reset (R8, R30, R36, R40, R47, R71, R157, R386, R454, R459); that the model's reset lies before the supplies are valid is its choice, log entry 2. -/
def Obligations.ResetValues : Prop :=

  State.reset.pending = [] ∧ State.reset.q.cmds = [] ∧ (∀ p, (polderOf State.reset p).state = .absent) ∧
  (∀ t, (tcxOf State.reset t).state = .free ∧ (tcxOf State.reset t).epoch = 0 ∧ (tcxOf State.reset t).keys = []) ∧
  (∀ t n, (segOf State.reset t n).valid = false) ∧ (∀ h, (hitOf State.reset h).valid = false) ∧
  (∀ a, bindingOf State.reset a = .unbound) ∧ (∀ l, slotOf State.reset l = none) ∧
  State.reset.dbg.lock = .locked ∧ State.reset.recorder.entries = [] ∧ State.reset.recorder.frozen = false ∧
  State.reset.pins.terpUp = false

/-- `Inv` holds at reset (R424, R481). -/
def Obligations.ResetInv : Prop :=

  Inv State.reset

/-- Every step keeps `Inv`: `PWR_WARN_N` is what R481 makes it, and each of the 24 clusters is ACTIVE or waking when it has work and not ACTIVE when it has none (R424).
* a step of a state with `Inv` keeps it. -/
def Obligations.StepKeepsInv : Prop :=
  (∀ (s t : State),
    (Inv s) →
    (step s = .next t) →
    Inv t)

/-- The frame of `settle`, which stands in every command's result (R424, R481).
* only the clusters and `PWR_WARN_N` may change. -/
def Obligations.SettlingFrame : Prop :=
  (∀ (s : State),
    (quiet s = true) →
    settle s = { s with
      pwr := { s.pwr with clusters := (settle s).pwr.clusters }
      pins := { s.pins with pwrWarn := s.pins.terpUp && (s.pins.booting || s.fw.terpOnly || s.pwr.warnNow || s.flt.lossHeld) } })

/-- The form of memory is the model's choice, log entry 4; the operations are those of R70, R112, R131 and R449.
* one byte;
* a line;
* the opening, unmapping and zeroing of ranges;
* a cut-off flash write, the device reset and the terp reset;
* the reset state. -/
def Obligations.MemoryCanonical : Prop :=
  (∀ (cell : Nat) (b : Byte) (s : State),
    (Memory.wf s.mem = true) →
    Memory.wf (setByte cell b s).mem = true) ∧
  (∀ (line : Nat) (bytes : List (Nat × Byte)) (poison : Bool) (s : State),
    (Memory.wf s.mem = true) →
    Memory.wf (writeLineBytes line bytes poison s).1.mem = true ∧ Memory.wf (homeWrite line bytes poison s).1.mem = true) ∧
  (∀ (a len : Nat) (l : List Nat) (s : State),
    (Memory.wf s.mem = true) →
    Memory.wf (openUnit s a).mem = true ∧ Memory.wf (unmapUnits l s).mem = true ∧ Memory.wf (zeroTpa a len s).mem = true) ∧
  (∀ (w : FlashWrite) (s : State),
    (Memory.wf s.mem = true) →
    Memory.wf (undoWrite w s).mem = true ∧ Memory.wf (afterDeviceReset s).mem = true ∧ Memory.wf (afterTerpReset s).mem = true) ∧
  (Memory.wf State.reset.mem = true)

/-- Writes at a line's home (R70, R75, Table 7.3).
* every byte outside the offsets written keeps its value;
* each byte written holds its new value;
* a line that its home cannot serve takes nothing. -/
def Obligations.MemoryReadsBack : Prop :=
  (∀ (line a : Nat) (bytes : List (Nat × Byte)) (poison : Bool) (s : State),
    (∀ e ∈ bytes, a ≠ cellOf s (line * 64) / 64 * 64 + e.1) →
    tabGet (writeLineBytes line bytes poison s).1.mem.bytes 0 a = tabGet s.mem.bytes 0 a) ∧
  (∀ (line o : Nat) (b : Byte) (bytes : List (Nat × Byte)) (poison : Bool) (s : State),
    (lineDead s (line * 64) = false) →
    ((bytes.map (·.1)).Nodup) →
    ((o, b) ∈ bytes) →
    tabGet (writeLineBytes line bytes poison s).1.mem.bytes 0 (cellOf s (line * 64) / 64 * 64 + o) = b) ∧
  (∀ (line : Nat) (bytes : List (Nat × Byte)) (poison : Bool) (s : State),
    (lineDead s (line * 64) = true) →
    (writeLineBytes line bytes poison s).1.mem = s.mem ∧ (writeLineBytes line bytes poison s).2 = .poisoned)

/-- The layouts of Table 2.3, R112 and R139.
* two bytes with one slice position and one offset on it are one byte;
* so in a PARITY polder;
* the members i and j of a stripe lie at different channel positions. -/
def Obligations.PlacesDiffer : Prop :=
  (∀ (block c x y : Nat),
    (0 < block) →
    (0 < c) →
    (interleave block c x = interleave block c y) →
    x = y) ∧
  (∀ (a x y : Nat),
    (9 ≤ a) →
    (parityPlace a x = parityPlace a y) →
    x = y) ∧
  (∀ (a stripe i j : Nat),
    (9 ≤ a) →
    (i < 9 ∧ j < 9 ∧ i ≠ j) →
    (9 * stripe + i) % a ≠ (9 * stripe + j) % a)

/-- R291 and R293.
* an addend of at least the unit enters whole;
* one below the unit is truncated towards zero on its own;
* the sum is that of any other order;
* and of any division into parts;
* overflow is a large addend or a large sum;
* and it is the same in every order. -/
def Obligations.OrderFreeSum : Prop :=
  (∀ (w e : Int) (neg : Bool) (m : Nat),
    (w ≤ e) →
    ofaUnits w (.fin neg m e) = (if neg then -1 else 1) * (m * 2 ^ (e - w).toNat)) ∧
  (∀ (w e : Int) (neg : Bool) (m u : Nat),
    (e < w) →
    (u = (ofaUnits w (.fin neg m e)).natAbs) →
    ofaUnits w (.fin neg m e) = (if neg then -1 else 1) * (u : Int) ∧ u * 2 ^ (w - e).toNat ≤ m ∧ m < (u + 1) * 2 ^ (w - e).toNat) ∧
  (∀ (w : Int) (l l' : List Val),
    (l.Perm l') →
    ofaTotal w l = ofaTotal w l') ∧
  (∀ (w : Int) (parts : List (List Val)),
    ofaTotal w parts.flatten = (parts.map (ofaTotal w)).sum) ∧
  (∀ (w : Int) (l : List Val),
    ofaOver w l = true ↔ (∃ neg m e, Val.fin neg m e ∈ l ∧ (if w ≤ e then 2 ^ 95 ≤ m * 2 ^ (e - w).toNat else 2 ^ (95 + (w - e).toNat) ≤ m)) ∨ 2 ^ 95 ≤ (ofaTotal w l).natAbs) ∧
  (∀ (w : Int) (l l' : List Val),
    (l.Perm l') →
    ofaOver w l = ofaOver w l')

/-- How statuses combine (R378, R379).
* of ranked statuses, one of them, of the lowest rank;
* the first sole status stands alone. -/
def Obligations.StatusRank : Prop :=
  (∀ (l : List Status),
    (∀ st ∈ l, statusSole st = false) →
    statusOf l ∈ Status.ok :: l ∧ ∀ st ∈ l, statusRank (statusOf l) ≤ statusRank st) ∧
  (∀ (l : List Status) (st : Status),
    (l.find? statusSole = some st) →
    statusOf l = st)

/-- The order of dispatch (R347); commands whose findings come with their own row begin with it.
* the command chosen is ready and comes before every other that is;
* where it chooses none, none is ready. -/
def Obligations.DispatchOrder : Prop :=
  (∀ (s : State) (c : Cmd),
    (nextDispatch s = some c) →
    (c ∈ s.q.cmds ∧ c.waiting = true ∧ dispatchable s c = true ∧ ownRow c.opcode = false) ∧
      ∀ d ∈ s.q.cmds, d.waiting = true → dispatchable s d = true → ownRow d.opcode = false →
        hdrPrio d.words < hdrPrio c.words ∨ (hdrPrio d.words = hdrPrio c.words ∧ c.serial ≤ d.serial)) ∧
  (∀ (s : State) (d : Cmd),
    (nextDispatch s = none) →
    (d ∈ s.q.cmds) →
    d.waiting = false ∨ dispatchable s d = false ∨ ownRow d.opcode = true)

/-- Combined fetch-adds (R188).
* the home receives the sum of the addends;
* the member after `before` receives the old value plus their addends;
* a batch that met poison answers every member so. -/
def Obligations.BatchAnswers : Prop :=
  (∀ (b : FetchBatch) (s : State),
    (b.forming ≠ []) →
    sendBatch b s = requestLine (lineOf b.tpa) { op := .atomic 0 b.bytes ((b.forming.map (·.2)).sum % 2 ^ (8 * b.bytes)) 0, asker := .stage b.tpa b.key b.kind, tpa := b.tpa }
      (putBatch { b with sent := b.sent ++ [b.forming], forming := [] } (bumpCopy ((polderAt s b.tpa).getD 64) 0x08 b.forming.length s))) ∧
  (∀ (bytes line old : Nat) (tag : Bool) (bef rest : List (Asker × Nat)) (asker : Asker) (addend : Nat) (s : State),
    (old < 2 ^ (8 * bytes)) →
    answerMembers bytes line old false tag (bef ++ (asker, addend) :: rest) s =
      answerMembers bytes line ((old + (bef.map (·.2)).sum + addend) % 2 ^ (8 * bytes)) false tag rest
        (atomicAnswer asker line ((old + (bef.map (·.2)).sum) % 2 ^ (8 * bytes)) false tag (answerMembers bytes line old false tag bef s))) ∧
  (∀ (bytes line old : Nat) (tag : Bool) (bef rest : List (Asker × Nat)) (asker : Asker) (addend : Nat) (s : State),
    (bef ≠ []) →
    answerMembers bytes line old true tag (bef ++ (asker, addend) :: rest) s =
      answerMembers bytes line 0 true tag rest (atomicAnswer asker line 0 true tag (answerMembers bytes line old true tag bef s)))

/-- The recorder's two parts (R454, R456).
* while frozen, a record is counted in FROZEN_DROPS alone;
* a part that is not full stores it at the next index;
* a full one counts it in FULL_DROPS alone;
* the persistent part keeps the newest 4,096;
* and a record of the volatile part alone leaves it. -/
def Obligations.RecorderStores : Prop :=
  (∀ (persist : Bool) (e : Record) (s : State),
    (s.recorder.frozen = true) →
    (putRecord persist e s).recorder.entries = s.recorder.entries ∧ (putRecord persist e s).recorder.frozenDrops = satAdd 32 s.recorder.frozenDrops 1 ∧
      (putRecord persist e s).recorder.fullDrops = s.recorder.fullDrops) ∧
  (∀ (persist : Bool) (e : Record) (s : State),
    (s.recorder.frozen = false) →
    (s.recorder.entries.length < 65536) →
    (putRecord persist e s).recorder.entries = s.recorder.entries ++ [e] ∧ (putRecord persist e s).recorder.frozenDrops = s.recorder.frozenDrops ∧
      (putRecord persist e s).recorder.fullDrops = s.recorder.fullDrops) ∧
  (∀ (persist : Bool) (e : Record) (s : State),
    (s.recorder.frozen = false) →
    (65536 ≤ s.recorder.entries.length) →
    (putRecord persist e s).recorder.entries = s.recorder.entries ∧ (putRecord persist e s).recorder.frozenDrops = s.recorder.frozenDrops ∧
      (putRecord persist e s).recorder.fullDrops = satAdd 32 s.recorder.fullDrops 1) ∧
  (∀ (e : Record) (s : State),
    (putRecord true e s).recorder.persistent = (s.recorder.persistent ++ [e]).drop (s.recorder.persistent.length + 1 - 4096) ∧
      (s.recorder.persistent.length ≤ 4096 → (putRecord true e s).recorder.persistent.length ≤ 4096)) ∧
  (∀ (e : Record) (s : State),
    (putRecord false e s).recorder.persistent = s.recorder.persistent)

/-- R9. -/
def Obligations.PeekClearsNothing : Prop :=

  ∀ (d : DebugAddr) (len : Nat) (s t : State), t = (peekBytes d len s).2 →
    t = { s with
      free := t.free
      regs := { s.regs with timeHi := t.regs.timeHi, beatHi := t.regs.beatHi, winLatch := t.regs.winLatch, precLatch := t.regs.precLatch } }

/-- The completion entry (R351, Table 17.8).
* a result of 64 bits, a fault address of 52, a CID of 16 and an opcode of 8 stand in their fields. -/
def Obligations.CompletionWords : Prop :=
  (∀ (src : Src) (op cid : Nat) (r : Result) (w : List Word),
    (r.value < 2 ^ 64 ∧ r.faultDva < 2 ^ 52 ∧ cid < 2 ^ 16 ∧ op < 2 ^ 8) →
    (w = entryWords src op cid r) →
    w.length = 8 ∧ word64 w 0 = r.value ∧ word64 w 2 = r.faultDva ∧ field w 4 23 16 = (srcQueue src).getD 0 ∧ flag w 4 24 = (match src with | .admin _ _ | .tunnel => true | _ => false) ∧
      field w 5 31 16 = min r.faultTiles 0xFFFF ∧ field w 5 15 0 = cid ∧ field w 6 31 16 = statusCode r.status ∧ flag w 6 0 = r.digested ∧
      field w 7 15 8 = op)

/-- R346, R351, R392. `SQ_TAIL`, `ASQ_TAIL`, `CQ_HEAD`, `ACQ_HEAD`.
* a tail in range is the queue pair's new tail;
* one out of range is ignored, flagged and counted;
* a write while intake is held is captured;
* the same for the admin queue's tail;
* a head in range with nothing held is the new head;
* a head that makes room lets a held entry out at the tail;
* the same for the admin queue's head, with nothing held and no event waiting. -/
def Obligations.QueueDoorbells : Prop :=
  (∀ (port : Fin 17) (ld : Fin 16) (qp : BitVec 8) (tail : BitVec 16) (s : State) (sl : Sluice) (r : Machine.Ring),
    (findSluice s (sluiceIx port ld) = some sl) →
    (tabFind sl.qps qp.toNat = some r) →
    (s.q.intakeHeld = false) →
    (tail.toNat < 2 ^ r.sqLog2) →
    exec (.sqTail port ld qp tail) s = .next (settle
      (modSluice (sluiceIx port ld) (fun _ => { sl with qps := tabInsert sl.qps qp.toNat { r with sqTail := tail.toNat } })
        { s with pwr := { s.pwr with controlDoze := false } }))) ∧
  (∀ (port : Fin 17) (ld : Fin 16) (qp : BitVec 8) (tail : BitVec 16) (s : State) (sl : Sluice) (r : Machine.Ring),
    (findSluice s (sluiceIx port ld) = some sl) →
    (tabFind sl.qps qp.toNat = some r) →
    (s.q.intakeHeld = false) →
    (2 ^ r.sqLog2 ≤ tail.toNat) →
    exec (.sqTail port ld qp tail) s = .next (settle
      (modSluice (sluiceIx port ld) (fun _ => { sl with dbErr := true, dbErrCount := min (sl.dbErrCount + 1) (2 ^ 32 - 1) })
        { s with pwr := { s.pwr with controlDoze := false } }))) ∧
  (∀ (port : Fin 17) (ld : Fin 16) (qp : BitVec 8) (tail : BitVec 16) (s : State),
    ((findSluice s (sluiceIx port ld)).isSome = true) →
    (s.q.intakeHeld = true) →
    exec (.sqTail port ld qp tail) s = .next (settle { s with
      q := { s.q with captured := tabInsert s.q.captured ((sluiceIx port ld * 512 + qp.toNat) * 2) tail.toNat } })) ∧
  (∀ (port : Fin 17) (ld : Fin 16) (tail : BitVec 16) (s : State) (sl : Sluice),
    (findSluice s (sluiceIx port ld) = some sl) →
    (s.q.intakeHeld = false) →
    (tail.toNat < 2 ^ sl.admin.sqLog2) →
    exec (.asqTail port ld tail) s = .next (settle
      (modSluice (sluiceIx port ld) (fun _ => { sl with admin := { sl.admin with sqTail := tail.toNat } })
        { s with pwr := { s.pwr with controlDoze := false } }))) ∧
  (∀ (port : Fin 17) (ld : Fin 16) (qp : BitVec 8) (head : BitVec 16) (s : State) (sl : Sluice) (r : Machine.Ring),
    (findSluice s (sluiceIx port ld) = some sl) →
    (tabFind sl.qps qp.toNat = some r) →
    (s.q.intakeHeld = false) →
    (head.toNat < 2 ^ r.cqLog2) →
    (r.held = []) →
    exec (.cqHead port ld qp head) s = .next (settle
      (modSluice (sluiceIx port ld) (fun _ => { sl with qps := tabInsert sl.qps qp.toNat { r with cqHead := head.toNat } })
        { s with pwr := { s.pwr with controlDoze := false } }))) ∧
  (∀ (port : Fin 17) (ld : Fin 16) (qp : BitVec 8) (head : BitVec 16) (s : State) (sl : Sluice) (r : Machine.Ring) (words : List Word) (noirq : Bool),
    (findSluice s (sluiceIx port ld) = some sl) →
    (tabFind sl.qps qp.toNat = some r) →
    (s.q.intakeHeld = false) →
    (head.toNat < 2 ^ r.cqLog2) →
    (r.held = [(words, noirq)]) →
    (r.cqDev = false) →
    (r.irqEn = false) →
    ((r.cqTail + 1) % 2 ^ r.cqLog2 ≠ head.toNat) →
    ((r.cqTail + 1) % 2 ^ r.cqLog2 ≠ 0) →
    (sluiceLinkUp s (sluiceIx port ld) = true) →
    exec (.cqHead port ld qp head) s = .next (settle (emit (.cqe (sluiceIx port ld) (some qp.toNat) r.cqTail (stampEntry r words))
      { s with
        pwr := { s.pwr with controlDoze := false }
        q := { s.q with
          sluices := tabInsert s.q.sluices (sluiceIx port ld) { sl with
            qps := tabInsert sl.qps qp.toNat
                 { r with cqHead := head.toNat, held := [], uncovered := 0, cqTail := (r.cqTail + 1) % 2 ^ r.cqLog2 } } } }))) ∧
  (∀ (port : Fin 17) (ld : Fin 16) (head : BitVec 16) (s : State) (sl : Sluice),
    (findSluice s (sluiceIx port ld) = some sl) →
    (s.q.intakeHeld = false) →
    (head.toNat < 2 ^ sl.admin.cqLog2) →
    (sl.admin.held = []) →
    (sl.events = []) →
    (sl.eventsLost = 0) →
    exec (.acqHead port ld head) s = .next (settle
      (modSluice (sluiceIx port ld) (fun _ => { sl with admin := { sl.admin with cqHead := head.toNat } })
        { s with pwr := { s.pwr with controlDoze := false } })))

/-- R346 to R349, R146, R332. `ENTRY_FETCH`, `PARTIAL_ITEM_EXPIRY`, `COMMAND_DISPATCH`, `WORK_POOL_SPACE_FREE`.
* a whole item at the header position is taken in and the position moves past it;
* an entry whose mark is not 0x5A is dropped and counted;
* an accepted item becomes a waiting command, the last of those outstanding, with the polder of its TCX and the time of its fetch;
* a partial item expires: its positions are given up, it is counted, and it completes STALE_BURST;
* SCH dispatches the next command, which takes the mode word of its polder and begins;
* the oldest command that waits for the work pool is dispatched, when it fits. -/
def Obligations.QueueIntake : Prop :=
  (∀ (port : Fin 17) (ld : Fin 16) (qp : BitVec 8) (words : List Word) (host : List HostByte) (s : State) (sl : Sluice) (r : Machine.Ring),
    (findSluice s (sluiceIx port ld) = some sl) →
    (sl.state ≠ .unmatched) →
    (tabFind sl.qps qp.toNat = some r) →
    (s.q.intakeHeld = false) →
    (intakePaused s (sluiceIx port ld) = false) →
    (r.position ∉ r.orphans) →
    (hdrMark words = 0x5A) →
    (words.length = 16 * hdrEntries words) →
    (hdrEntries words ≤ sqAvail r) →
    exec (.entryFetch port ld (some qp) words host) s = .next (settle
      (acceptItem ⟨.data port ld qp, words, host⟩ (movePosition (sluiceIx port ld) (some qp.toNat) (hdrEntries words) s)))) ∧
  (∀ (port : Fin 17) (ld : Fin 16) (qp : BitVec 8) (words : List Word) (s : State) (sl : Sluice) (r : Machine.Ring),
    (findSluice s (sluiceIx port ld) = some sl) →
    (sl.state ≠ .unmatched) →
    (tabFind sl.qps qp.toNat = some r) →
    (s.q.intakeHeld = false) →
    (intakePaused s (sluiceIx port ld) = false) →
    (r.orphans = []) →
    (hdrMark words ≠ 0x5A) →
    (words.length = 16) →
    (sqAvail r ≠ 0) →
    exec (.entryFetch port ld (some qp) words []) s = .next (settle (modSluice (sluiceIx port ld) (fun _ => { sl with
      orphan := true
      orphanCount := min (sl.orphanCount + 1) (2 ^ 32 - 1)
      qps := tabInsert sl.qps qp.toNat { r with
        position := (r.position + 1) % 2 ^ r.sqLog2, sqHead := (r.position + 1) % 2 ^ r.sqLog2
        partialAt := none, partialWords := [] } }) s))) ∧
  (∀ (port : Fin 17) (ld : Fin 16) (qp : BitVec 8) (words : List Word) (host : List HostByte) (s : State),
    (intake s (.data port ld qp) words = .accept) →
    (hdrRid words = false) →
    (hdrOpcode words ∉ [0x80, 0x81, 0x84]) →
    (∀ c ∈ s.q.cmds, c.serial < s.q.next) →
    ∃ c, acceptItem ⟨.data port ld qp, words, host⟩ s = { s with q := { s.q with cmds := s.q.cmds ++ [c], next := s.q.next + 1 } }
      ∧ c.waiting = true ∧ c.src = .data port ld qp ∧ c.words = words ∧ c.origin = s.time ∧ c.tcx = hdrTcx words
      ∧ c.polder = (if (opRow (hdrOpcode words)).any (·.names) then (tcxOf s (hdrTcx words)).polder else 64)) ∧
  (∀ (port : Fin 17) (ld : Fin 16) (qp : BitVec 8) (s : State) (sl : Sluice) (r : Machine.Ring) (p : Nat),
    (findSluice s (sluiceIx port ld) = some sl) →
    (tabFind sl.qps qp.toNat = some r) →
    (s.q.intakeHeld = false) →
    (r.partialAt = some p) →
    exec (.partialItemExpiry port ld (some qp)) s = .next (settle
      (modSluice (sluiceIx port ld) (fun sl => { sl with staleCount := min (sl.staleCount + 1) (2 ^ 32 - 1) })
        (answerIntake ⟨.data port ld qp, r.partialWords, []⟩ .staleBurst false
          (modSluice (sluiceIx port ld) (fun _ => { sl with qps := tabInsert sl.qps qp.toNat { r with
            orphans := r.orphans ++ (List.range (hdrEntries r.partialWords - sqAvail r)).map fun i => (r.sqTail + i) % 2 ^ r.sqLog2
            position := r.sqTail, sqHead := r.sqTail, partialAt := none, partialWords := [] } }) s))))) ∧
  (∀ (s : State) (c : Cmd),
    (nextDispatch s = some c) →
    (s.q.cmds.find? (fun d => decide (d.serial = c.serial)) = some c) →
    exec .commandDispatch s = .next (settle (runOpcode (started s c) (dispatchCmd c.serial s)))) ∧
  (∀ (polder : BitVec 6) (s : State) (c : Cmd) (rest : List Nat),
    (s.res.poolWaiters = c.serial :: rest) →
    (c.serial ∉ rest) →
    (s.q.cmds.find? (fun d => decide (d.serial = c.serial)) = some c) →
    (c.polder = polder.toNat) →
    (s.q.cmds.find? (fun d => decide (d.serial = c.serial ∧ d.polder = polder.toNat)) = some c) →
    (dispatchable { s with res := { s.res with poolWaiters := rest } } c = true) →
    ((runOpcode (started s c) (dispatchCmd c.serial { s with res := { s.res with poolWaiters := rest } })).res.poolWaiters.contains c.serial = false) →
    exec (.workPoolSpaceFree polder) s = .next (settle
      (runOpcode (started s c) (dispatchCmd c.serial { s with res := { s.res with poolWaiters := rest } }))))

/-- R342, R352. `ADMIN_ENABLE`, `ADMIN_DISABLE`, `CQ_COALESCE_TIMEOUT`, `MSIX_UNMASK`.
* all positions of the admin rings start at zero with PHASE 1, and READY is set;
* held entries are counted and discarded, and READY falls once no admin command is outstanding;
* an unmasked vector is sent and the entries are covered;
* a masked one becomes pending;
* a pending vector is sent when it is unmasked. -/
def Obligations.QueueInterrupts : Prop :=
  (∀ (port : Fin 17) (ld : Fin 16) (s : State) (sl : Sluice),
    (findSluice s (sluiceIx port ld) = some sl) →
    (sl.adminEnable = false) →
    (sl.admin.held = []) →
    (sl.events = []) →
    (sl.eventsLost = 0) →
    exec (.adminEnable port ld) s = .next (settle (modSluice (sluiceIx port ld) (fun _ => { sl with
      adminEnable := true, adminReady := true
      admin := { sl.admin with
        position := 0, sqHead := 0, sqTail := 0, cqHead := 0, cqTail := 0, phase := true, uncovered := 0
        orphans := [], partialAt := none, partialWords := [], irqEn := true, aggCount := 0 } }) s))) ∧
  (∀ (port : Fin 17) (ld : Fin 16) (s : State) (sl : Sluice),
    (findSluice s (sluiceIx port ld) = some sl) →
    (sl.adminEnable = true) →
    exec (.adminDisable port ld) s = .next (settle (modSluice (sluiceIx port ld) (fun _ => { sl with
      adminEnable := false
      adminReady := s.q.cmds.any fun c => decide (c.src = .admin port ld)
      cqHoldCount := min (sl.cqHoldCount + sl.admin.held.length) (2 ^ 32 - 1)
      admin := { sl.admin with held := [], partialAt := none, partialWords := [] } }) s))) ∧
  (∀ (port : Fin 17) (ld : Fin 16) (qp : BitVec 8) (s : State) (sl : Sluice) (r : Machine.Ring),
    (findSluice s (sluiceIx port ld) = some sl) →
    (tabFind sl.qps qp.toNat = some r) →
    (r.irqEn = true) →
    (r.aggTime ≠ 0) →
    (r.uncovered ≠ 0) →
    (r.vector ∈ sl.unmasked) →
    exec (.cqCoalesceTimeout port ld qp) s = .next (settle (emit (.msix (sluiceIx port ld) r.vector)
      (modSluice (sluiceIx port ld) (fun _ => { sl with qps := tabInsert sl.qps qp.toNat { r with uncovered := 0 } }) s)))) ∧
  (∀ (port : Fin 17) (ld : Fin 16) (qp : BitVec 8) (s : State) (sl : Sluice) (r : Machine.Ring),
    (findSluice s (sluiceIx port ld) = some sl) →
    (tabFind sl.qps qp.toNat = some r) →
    (r.irqEn = true) →
    (r.aggTime ≠ 0) →
    (r.uncovered ≠ 0) →
    (r.vector ∉ sl.unmasked) →
    (r.vector ∉ sl.msixPending) →
    exec (.cqCoalesceTimeout port ld qp) s = .next (settle
      (modSluice (sluiceIx port ld) (fun _ => { sl with
        msixPending := sl.msixPending ++ [r.vector]
        qps := tabInsert sl.qps qp.toNat { r with uncovered := 0 } }) s))) ∧
  (∀ (port : Fin 17) (ld : Fin 16) (vector : BitVec 11) (s : State) (sl : Sluice),
    (findSluice s (sluiceIx port ld) = some sl) →
    (vector.toNat ∉ sl.unmasked) →
    exec (.msixUnmask port ld vector) s = .next (settle
      ((if vector.toNat ∈ sl.msixPending then emit (.msix (sluiceIx port ld) vector.toNat) else id)
        (modSluice (sluiceIx port ld) (fun _ => { sl with
          unmasked := sl.unmasked ++ [vector.toNat]
          msixPending := sl.msixPending.filter (· ≠ vector.toNat) }) s))))

/-- R313 to R315, R321.
* an item of the run's own TCX goes to the intake, and the call returns;
* an item of another TCX completes INVALID;
* a posted completion is returned, and taken;
* otherwise the core blocks until it comes;
* a poll of a completion returns it;
* "not yet" is a timing-dependent choice;
* a counter at its threshold is returned;
* below it the core blocks;
* a fence returns once no write of the core is under way;
* the time base is returned, a timing-dependent choice;
* the choice counter of the TCX is returned;
* a record of 16 bytes is written when 10 µs have passed since the core's last;
* a call within 10 µs of the core's last record is dropped and counted;
* a core that is not the last leaves its value;
* the last one ends the run;
* a trap stops every core;
* so does the time limit, where the run has submitted nothing that is outstanding; -/
def Obligations.CrownServices : Prop :=
  (∀ (run : Nat) (core : Fin 32) (words : List Word) (s : State) (r : CrownRun) (c : Cmd),
    (Serves run core.val s r c) →
    (r.outstanding.length < 64) →
    (s.q.intakeHeld = false) →
    (hdrTcx words = c.tcx) →
    exec (.crownSubmit run core words) s = .next (settle (emit (.crownReturn run core.val [])
      (acceptItem { src := .crown run core, words := words } s)))) ∧
  (∀ (run : Nat) (core : Fin 32) (words : List Word) (s : State) (r : CrownRun) (c : Cmd),
    (Serves run core.val s r c) →
    (r.outstanding.length < 64) →
    (s.q.intakeHeld = false) →
    (hdrTcx words ≠ c.tcx) →
    exec (.crownSubmit run core words) s = .next (settle (emit (.crownReturn run core.val [])
      (answerIntake { src := .crown run core, words := words } .invalid false s)))) ∧
  (∀ (run : Nat) (core : Fin 32) (cid : BitVec 16) (s : State) (r : CrownRun) (c : Cmd) (words : List Word) (rest : List (Nat × List Word)),
    (Serves run core.val s r c) →
    (r.done = (cid.toNat, words) :: rest) →
    exec (.crownWait run core cid) s = .next (settle (emit (.crownReturn run core.val words) (putRun run { r with done := rest } s)))) ∧
  (∀ (run : Nat) (core : Fin 32) (cid : BitVec 16) (s : State) (r : CrownRun) (c : Cmd),
    (Serves run core.val s r c) →
    (r.done.find? (fun d => decide (d.1 = cid.toNat)) = none) →
    ((r.outstanding.any fun o => decide (o.2 = cid.toNat)) = true) →
    exec (.crownWait run core cid) s = .next (settle (putRun run { r with blocked := r.blocked ++ [(core.val, cid.toNat)] } s))) ∧
  (∀ (run : Nat) (core : Fin 32) (cid : BitVec 16) (s : State) (r : CrownRun) (c : Cmd) (words : List Word) (rest : List (Nat × List Word)),
    (Serves run core.val s r c) →
    (r.done = (cid.toNat, words) :: rest) →
    exec (.crownPoll run core cid) s = .next (settle (emit (.crownReturn run core.val words) (putRun run { r with done := rest } s)))) ∧
  (∀ (run : Nat) (core : Fin 32) (cid : BitVec 16) (s : State) (r : CrownRun) (c : Cmd),
    (Serves run core.val s r c) →
    (r.done.find? (fun d => decide (d.1 = cid.toNat)) = none) →
    ((r.outstanding.any fun o => decide (o.2 = cid.toNat)) = true) →
    exec (.crownPoll run core cid) s = .next (settle (emit (.crownReturn run core.val [])
      (modCmd run (fun c => { c with tdcDelta := c.tdcDelta + 1 }) (modTcx c.tcx (fun x => { x with tdc := x.tdc + 1 }) s))))) ∧
  (∀ (run : Nat) (core : Fin 32) (cnt : Fin 16) (threshold : BitVec 64) (s : State) (r : CrownRun) (c : Cmd),
    (Serves run core.val s r c) →
    (threshold.toNat ≤ counterOf s c.tcx cnt.val) →
    exec (.crownCounter run core cnt threshold) s = .next (settle (emit (.crownReturn run core.val (toWords 2 (counterOf s c.tcx cnt.val))) s))) ∧
  (∀ (run : Nat) (core : Fin 32) (cnt : Fin 16) (threshold : BitVec 64) (s : State) (r : CrownRun) (c : Cmd),
    (Serves run core.val s r c) →
    (counterOf s c.tcx cnt.val < threshold.toNat) →
    exec (.crownCounter run core cnt threshold) s = .next (settle (putRun run
      { r with blocked := r.blocked ++ [(core.val, 2 ^ 17 + cnt.val + 16 * threshold.toNat)] } s))) ∧
  (∀ (run : Nat) (core : Fin 32) (s : State) (r : CrownRun) (c : Cmd),
    (Serves run core.val s r c) →
    (coreWrites s run core.val = false) →
    exec (.crownFence run core) s = .next (settle (emit (.crownReturn run core.val []) s))) ∧
  (∀ (run : Nat) (core : Fin 32) (s : State) (r : CrownRun) (c : Cmd),
    (Serves run core.val s r c) →
    exec (.crownTime run core) s = .next (settle (emit (.crownReturn run core.val (toWords 2 s.time))
      (modCmd run (fun c => { c with tdcDelta := c.tdcDelta + 1 }) (modTcx c.tcx (fun x => { x with tdc := x.tdc + 1 }) s))))) ∧
  (∀ (run : Nat) (core : Fin 32) (s : State) (r : CrownRun) (c : Cmd),
    (Serves run core.val s r c) →
    exec (.crownTdcRead run core) s = .next (settle (emit (.crownReturn run core.val (toWords 2 (tcxOf s c.tcx).tdc)) s))) ∧
  (∀ (run : Nat) (core : Fin 32) (data : BitVec 128) (s : State) (r : CrownRun) (c : Cmd),
    (Serves run core.val s r c) →
    (tabGet r.logTick 0 core.val + 249 ≤ s.time) →
    exec (.crownLog run core data) s = .next (settle (writeRecord 0x04 false
      (toWords 4 data.toNat ++ [BitVec.ofNat 32 c.tcx, BitVec.ofNat 32 core.val])
      (putRun run { r with logTick := tabInsert r.logTick core.val (s.time + 1) } s)))) ∧
  (∀ (run : Nat) (core : Fin 32) (data : BitVec 128) (s : State) (r : CrownRun) (c : Cmd) (last : Nat),
    (Serves run core.val s r c) →
    (tabGet r.logTick 0 core.val = last + 1) →
    (s.time < last + 250) →
    exec (.crownLog run core data) s = .next (settle (putRun run { r with logDrops := tabModify r.logDrops 0 core.val (· + 1) } s))) ∧
  (∀ (run : Nat) (core : Fin 32) (value : Word) (s : State) (r : CrownRun) (c : Cmd),
    (Serves run core.val s r c) →
    ((r.cores.all fun k => (tabFind (tabInsert r.exits core.val value) k).isSome) = false) →
    exec (.crownExit run core value) s = .next (settle (putRun run { r with exits := tabInsert r.exits core.val value } s))) ∧
  (∀ (run : Nat) (core : Fin 32) (value : Word) (s : State) (r : CrownRun) (c : Cmd),
    (Serves run core.val s r c) →
    ((r.cores.all fun k => (tabFind (tabInsert r.exits core.val value) k).isSome) = true) →
    exec (.crownExit run core value) s = .next (settle (putRun run
      { r with exits := tabInsert r.exits core.val value, ended := true, blocked := [] }
      { s with eng := { s.eng with waiting := s.eng.waiting.filter fun w => w.serial ≠ run } }))) ∧
  (∀ (run : Nat) (core : Fin 32) (s : State) (r : CrownRun) (c : Cmd),
    (Serves run core.val s r c) →
    exec (.crownTrap run core) s = .next (settle (putRun run { r with trap := some 2, ended := true, blocked := [] }
      { s with eng := { s.eng with waiting := s.eng.waiting.filter fun w => w.serial ≠ run } }))) ∧
  (∀ (run : Nat) (s : State) (r : CrownRun),
    (tabFind s.eng.runs run = some r) →
    (r.ended = false) →
    (schAway s = false) →
    (submitted s run = []) →
    exec (.crownTimeLimit run) s = .next (settle (putRun run { r with trap := some 1, ended := true, blocked := [] }
      { s with eng := { s.eng with waiting := s.eng.waiting.filter fun w => w.serial ≠ run } })))

/-- R33, R37, R38, R67, R69, R70.
* a granted read of an idle line is in service, with its medium read;
* so is `MEM_RD_DATA`, which asks for SHARED;
* `MEM_INV` asks for ownership and reads no medium;
* `MEM_SPEC_RD` starts the medium read and has no answer;
* a read that the HIT does not grant counts a violation, is noticed, and returns poison (the data bits are a free value);
* an eviction notice removes the host from an exact sharer list, and is completed;
* a read on an unbound LD is noticed by port and LD, and returns poison. -/
def Obligations.HostReads : Prop :=
  (∀ (q : MemReq) (mv : MetaValue) (s : State) (hid : Nat),
    (tabFind s.q.bound (sluiceIx q.port q.ld) = some hid) →
    (hostAllowed s hid q .read true = true) →
    (LineIdle (lineOf q.tpa.toNat) s) →
    ∃ req, req = ({ op := readOp mv, asker := .host hid q.port q.ld q.tag.toNat, tpa := q.tpa.toNat } : LineReq) ∧
      exec (.memRd q mv []) s = .next (settle { s with coh := { s.coh with
        predictor := (trainPredictor (lineOf q.tpa.toNat) req false s).coh.predictor
        flows := tabInsert s.coh.flows (lineOf q.tpa.toNat)
          { req := req, medium := needsMedium s (lineOf q.tpa.toNat) req, opened := s.time } } })) ∧
  (∀ (q : MemReq) (s : State) (hid : Nat),
    (tabFind s.q.bound (sluiceIx q.port q.ld) = some hid) →
    (hostAllowed s hid q .read true = true) →
    (LineIdle (lineOf q.tpa.toNat) s) →
    ∃ req, req = ({ op := .readShared, asker := .host hid q.port q.ld q.tag.toNat, tpa := q.tpa.toNat } : LineReq) ∧
      exec (.memRdData q) s = .next (settle { s with coh := { s.coh with
        flows := tabInsert s.coh.flows (lineOf q.tpa.toNat)
          { req := req, medium := needsMedium s (lineOf q.tpa.toNat) req, opened := s.time } } })) ∧
  (∀ (q : MemReq) (s : State) (hid : Nat),
    (tabFind s.q.bound (sluiceIx q.port q.ld) = some hid) →
    (hostAllowed s hid q .read true = true) →
    (LineIdle (lineOf q.tpa.toNat) s) →
    ∃ req, req = ({ op := .invOwned, asker := .host hid q.port q.ld q.tag.toNat, tpa := q.tpa.toNat } : LineReq) ∧
      exec (.memInv q) s = .next (settle { s with coh := { s.coh with
        predictor := (trainPredictor (lineOf q.tpa.toNat) req false s).coh.predictor
        flows := tabInsert s.coh.flows (lineOf q.tpa.toNat) { req := req, medium := false, opened := s.time } } })) ∧
  (∀ (q : MemReq) (s : State) (hid : Nat),
    (tabFind s.q.bound (sluiceIx q.port q.ld) = some hid) →
    (hostAllowed s hid q .read true = true) →
    (LineIdle (lineOf q.tpa.toNat) s) →
    ∃ req, req = ({ op := .specRead, asker := .host hid q.port q.ld q.tag.toNat, tpa := q.tpa.toNat } : LineReq) ∧
      exec (.memSpecRd q) s = .next (settle { s with coh := { s.coh with
        flows := tabInsert s.coh.flows (lineOf q.tpa.toNat)
          { req := req, medium := needsMedium s (lineOf q.tpa.toNat) req, opened := s.time } } })) ∧
  (∀ (q : MemReq) (mv : MetaValue) (s : State) (hid : Nat),
    (tabFind s.q.bound (sluiceIx q.port q.ld) = some hid) →
    (hostAllowed s hid q .read true = false) →
    ∃ t, t = notifyFm { kind := 0x01, hid := hid, port := q.port.val } q.tpa.toNat
        (modHit hid (fun h => { h with violations := h.violations + 1, late := if h.dead then h.late + 1 else h.late }) s) ∧
      exec (.memRd q mv []) s = .next (settle (drawFree (sendS2m q.port q.ld q.tpa.toNat
        (.memData q.port q.ld q.tag.toNat (Config.refusedData t.free) 3 true) t)))) ∧
  (∀ (q : MemReq) (s : State) (hid : Nat) (d : DirSlot),
    (tabFind s.q.bound (sluiceIx q.port q.ld) = some hid) →
    (hostAllowed s hid q .read true = true) →
    (slotOf s (lineOf q.tpa.toNat) = some d) →
    (d.crown = false) →
    (d.coarse = false) →
    (hid ∈ d.ids) →
    (d.ids.filter (· ≠ hid) ≠ []) →
    exec (.memClnEvct q) s = .next (settle (sendS2m q.port q.ld q.tpa.toNat (.memCmp q.port q.ld q.tag.toNat false)
      (refreshSlot (lineOf q.tpa.toNat) { d with ids := d.ids.filter (· ≠ hid) } s)))) ∧
  (∀ (q : MemReq) (s : State),
    (tabFind s.q.bound (sluiceIx q.port q.ld) = none) →
    ∃ t, t = notifyFm { kind := 0x13, port := q.port.val, unit := q.ld.val } q.tpa.toNat s ∧
      exec (.unboundLdRequest q .read) s = .next (settle (drawFree (sendS2m q.port q.ld q.tpa.toNat
        (.memData q.port q.ld q.tag.toNat (Config.refusedData t.free) 3 true) t))))

/-- R37, R69 to R71, R77, R82, R83, R136.
* the bytes are written at the home and the write is completed, at once, in a quiet device;
* a partial write is in service with its medium read;
* a write that the tray interlock locks out changes no byte and is counted;
* a conflict with no snoop outstanding is acknowledged at once;
* one with its snoop outstanding is acknowledged after it;
* an answer `BIRspI` ends the snoop;
* an answer `BIRspS` to `BISnpData` leaves the host a SHARED holder;
* `BIRspE` is never valid: a protocol violation is counted;
* an AtomicOp that is no FetchAdd, Swap or CAS, or of 16 bytes, is an unsupported request;
* a granted, aligned CAS on an idle line is in service at its home;
* a malformed TLP is discarded and counted on its link;
* a snoop that is not answered in time makes its host DEAD: the lines with a snoop outstanding to it are poisoned, the FM and the management sluice hear of it;
* the sweep that reaches no slot of the dead host ends. -/
def Obligations.HostWrites : Prop :=
  (∀ (q : MemReq) (mv : MetaValue) (data : LineData) (poison : Bool) (s : State) (hid : Nat),
    (quiet s = true) →
    (tabFind s.q.bound (sluiceIx q.port q.ld) = some hid) →
    (hostAllowed s hid q .write true = true) →
    (writesLocked s q.tpa.toNat = false) →
    (LineIdle (lineOf q.tpa.toNat) s) →
    (lineDb s (lineOf q.tpa.toNat) = false) →
    exec (.memWr q mv data poison) s = .next (settle (sendS2m q.port q.ld (lineOf q.tpa.toNat * 64) (.memCmp q.port q.ld q.tag.toNat false)
      (homeWrite (lineOf q.tpa.toNat) (maskedBytes (BitVec.allOnes 64) data) poison s).1))) ∧
  (∀ (q : MemReq) (mv : MetaValue) (mask : BitVec 64) (data : LineData) (poison : Bool) (s : State) (hid : Nat),
    (tabFind s.q.bound (sluiceIx q.port q.ld) = some hid) →
    (hostAllowed s hid q .write true = true) →
    (writesLocked s q.tpa.toNat = false) →
    (LineIdle (lineOf q.tpa.toNat) s) →
    (mask ≠ BitVec.allOnes 64) →
    ∃ req, req = ({ op := .write (metaCode mv), asker := .host hid q.port q.ld q.tag.toNat,
                        tpa := lineOf q.tpa.toNat * 64, mask := mask, data := data, poison := poison } : LineReq) ∧
      exec (.memWrPtl q mv mask data poison) s = .next (settle { s with coh := { s.coh with
        flows := tabInsert s.coh.flows (lineOf q.tpa.toNat)
          { req := req, medium := needsMedium s (lineOf q.tpa.toNat) req, opened := s.time } } })) ∧
  (∀ (q : MemReq) (mv : MetaValue) (data : LineData) (poison : Bool) (s : State) (hid : Nat),
    (tabFind s.q.bound (sluiceIx q.port q.ld) = some hid) →
    (hostAllowed s hid q .write true = true) →
    (writesLocked s q.tpa.toNat = true) →
    (snooped s hid (lineOf q.tpa.toNat) = none) →
    exec (.memWr q mv data poison) s = .next (settle (sendS2m q.port q.ld q.tpa.toNat (.memCmp q.port q.ld q.tag.toNat false)
      { s with pins := { s.pins with refused := if s.pins.refused = BitVec.allOnes 32 then s.pins.refused else s.pins.refused + 1 } }))) ∧
  (∀ (q : MemReq) (s : State) (hid : Nat),
    (tabFind s.q.bound (sluiceIx q.port q.ld) = some hid) →
    ((hitOf s hid).dead = false) →
    (tabFind s.coh.flows (lineOf q.tpa.toNat) = none) →
    exec (.biConflict q) s = .next (settle (sendS2m q.port q.ld q.tpa.toNat (.conflictAck (sluiceIx q.port q.ld) q.tag.toNat) s))) ∧
  (∀ (q : MemReq) (s : State) (hid : Nat) (f : Flow) (sn : Snoop),
    (tabFind s.q.bound (sluiceIx q.port q.ld) = some hid) →
    ((hitOf s hid).dead = false) →
    (tabFind s.coh.flows (lineOf q.tpa.toNat) = some f) →
    (f.snoops.find? (fun x => decide (x.hid = hid)) = some sn) →
    exec (.biConflict q) s = .next (settle (putFlow (lineOf q.tpa.toNat)
      { f with conflicts := f.conflicts ++ [(sluiceIx q.port q.ld, q.tag.toNat)] } s))) ∧
  (∀ (q : MemReq) (s : State) (hid : Nat) (f : Flow) (sn : Snoop),
    (tabFind s.q.bound (sluiceIx q.port q.ld) = some hid) →
    ((hitOf s hid).dead = false) →
    (tabFind s.coh.flows (lineOf q.tpa.toNat) = some f) →
    (f.snoops.find? (fun x => decide (x.hid = hid)) = some sn) →
    (f.conflicts = []) →
    (f.probe = false) →
    (slotOf s (lineOf q.tpa.toNat) = none) →
    exec (.biRspI q) s = .next (settle (putFlow (lineOf q.tpa.toNat)
      { f with snoops := f.snoops.filter fun x => decide (x.hid ≠ hid) } s))) ∧
  (∀ (q : MemReq) (s : State) (hid : Nat) (f : Flow) (sn : Snoop) (d : DirSlot),
    (tabFind s.q.bound (sluiceIx q.port q.ld) = some hid) →
    ((hitOf s hid).dead = false) →
    (tabFind s.coh.flows (lineOf q.tpa.toNat) = some f) →
    (f.snoops.find? (fun x => decide (x.hid = hid)) = some sn) →
    (sn.isData = true) →
    (f.conflicts = []) →
    (f.probe = false) →
    (slotOf s (lineOf q.tpa.toNat) = some d) →
    (d.crown = false) →
    (d.coarse = false) →
    exec (.biRspS q) s = .next (settle (refreshSlot (lineOf q.tpa.toNat) { d with state := .shared }
      (putFlow (lineOf q.tpa.toNat) { f with snoops := f.snoops.filter fun x => decide (x.hid ≠ hid) } s)))) ∧
  (∀ (q : MemReq) (s : State) (hid : Nat),
    (tabFind s.q.bound (sluiceIx q.port q.ld) = some hid) →
    ((hitOf s hid).dead = false) →
    exec (.biRspE q) s = .next (settle (modHit hid (fun h => { h with protocol := h.protocol + 1 }) s))) ∧
  (∀ (q : MemReq) (op : HostAtomic) (size : AtomicSize) (operand new : BitVec 64) (s : State),
    (op = .notAtomic ∨ size = .b16) →
    exec (.atomicOp q op size operand new) s = .next (settle (emit (.tlp q.port q.ld q.tag.toNat 1 0) s))) ∧
  (∀ (q : MemReq) (operand new : BitVec 64) (s : State) (hid : Nat),
    (tabFind s.q.bound (sluiceIx q.port q.ld) = some hid) →
    (hostAllowed s hid q .atomic false = true) →
    (writesLocked s q.tpa.toNat = false) →
    (q.tpa.toNat % 8 = 0) →
    (LineIdle (lineOf q.tpa.toNat) s) →
    ∃ req, req = ({ op := .atomic 2 8 operand.toNat new.toNat, asker := .host hid q.port q.ld q.tag.toNat, tpa := q.tpa.toNat } : LineReq) ∧
      exec (.atomicOp q .cas .b8 operand new) s = .next (settle { s with coh := { s.coh with
        predictor := (trainPredictor (lineOf q.tpa.toNat) req false s).coh.predictor
        flows := tabInsert s.coh.flows (lineOf q.tpa.toNat)
          { req := req, medium := needsMedium s (lineOf q.tpa.toNat) req, opened := s.time } } })) ∧
  (∀ (port : Fin 17) (ld : Fin 16) (s : State) (p : Port) (k : Link),
    (p = portAt s port.val) →
    (k = tabGet p.links {} (linkOfLd p.width ld.val)) →
    exec (.malformedTlp port ld) s = .next (settle { s with port := { s.port with
      ports := tabPut s.port.ports {} port.val { p with links := tabPut p.links {} (linkOfLd p.width ld.val) { k with malformed := k.malformed + 1 } } } })) ∧
  (∀ (hid : BitVec 8) (tpa : BitVec 50) (s : State) (f : Flow) (sn : Snoop) (k : Nat × State),
    (tabFind s.coh.flows (lineOf tpa.toNat) = some f) →
    (f.snoops.find? (fun x => decide (x.hid = hid.toNat)) = some sn) →
    (k = killHost hid.toNat (lineOf tpa.toNat) (noteDeadReads hid.toNat (lineOf tpa.toNat) s)) →
    exec (.snoopTimeout hid tpa) s = .next (settle (postAsync 0x08 hid.toNat 64 0 mgmtIx
      (notifyFm { kind := 0x02, port := ((ldOfHid k.2 hid.toNat).map fun ld => ld / 16).getD 31, hid := hid.toNat, unit := min k.1 (2 ^ 20 - 1) } (lineOf tpa.toNat * 64) k.2)))) ∧
  (∀ (hid : BitVec 8) (s : State),
    ((hitOf s hid.toNat).sweeping = true) →
    (s.coh.sets = []) →
    exec (.deadHostSweepEnd hid) s = .next (settle (modHit hid.toNat (fun h => { h with sweeping := false }) s)))

/-- R80, R309, R315, R321, R323.
* with a handler, the vector of the line's address is entered and the command will end POISONED;
* without one every core stops;
* a naturally aligned atomic of a core of the run becomes an access of the core, translated as R57 to R59 state;
* unfinished items belong to their new cores, accepted ones stay;
* the first result of an item that its core runs is accepted: its bytes are written, the item is accepted;
* a second result for an item of a migrated command is discarded: a timing-dependent choice;
* the phase begins on the cores of its pool with their engine counters at zero. -/
def Obligations.CrownMemory : Prop :=
  (∀ (run : Nat) (core : Fin 32) (dva : BitVec 52) (s : State) (r : CrownRun) (c : Cmd) (seg tpa : Nat),
    (Serves run core.val s r c) →
    (checkByte s c.tcx dva.toNat .read = .at seg tpa) →
    (linePoisoned s tpa = true) →
    (r.handler = true) →
    (s.eng.l2Poison = []) →
    exec (.crownPoisonException run core dva) s = .next (settle (emit (.crownVector run core.val (dva.toNat / 64 * 64))
      (putRun run { r with poisoned := true } (modCmd run (fun c => { c with status := statusJoin c.status .poisoned })
        { s with eng := { s.eng with l2Poison := [core.val * 2 ^ 44 + lineOf tpa] } }))))) ∧
  (∀ (run : Nat) (core : Fin 32) (dva : BitVec 52) (s : State) (r : CrownRun) (c : Cmd) (seg tpa : Nat),
    (Serves run core.val s r c) →
    (checkByte s c.tcx dva.toNat .read = .at seg tpa) →
    (linePoisoned s tpa = true) →
    (r.handler = false) →
    (s.eng.l2Poison = []) →
    exec (.crownPoisonException run core dva) s = .next (settle (endRun run { r with poisoned := true }
      (modCmd run (fun c => { c with status := statusJoin c.status .poisoned })
        { s with eng := { s.eng with l2Poison := [core.val * 2 ^ 44 + lineOf tpa] } })))) ∧
  (∀ (run : Nat) (core : Fin 32) (dva : BitVec 52) (op : AtomicKind) (operand new : BitVec 64) (s : State) (c : Cmd),
    ((s.q.cmds.find? fun d => decide (d.serial = run)) = some c) →
    (engineMay s (0xC0 + core.val) 5 c.tcx run = true) →
    (dva.toNat % 8 = 0) →
    exec (.crownAtomic run core dva op true operand new) s = .next (settle (issueAccess {
      unit := 0xC0 + core.val, engine := 5, stream := 0, tcx := c.tcx, serial := run, write := true, dva := dva.toNat, length := 8, dest := 0,
      atomic := some (atomicCode op, operand.toNat, new.toNat, true) } s))) ∧
  (∀ (serial : Nat) (s : State) (pl : Placement),
    (schAway s = false) →
    (tabFind s.eng.placements serial = some pl) →
    (pl.migrating = true) →
    (pl.queued = []) →
    exec (.migrationCutover serial) s = .next (settle (putPlacement serial { pl with
      migrating := false
      items := tabMap pl.items {} fun i w =>
        match w.newCore with
        | none => w
        | some k => if w.accepted then { w with newCore := none, past := w.past ++ [k] }
          else { w with core := some k, newCore := none, past := w.past ++ [itemCore pl i] } } s))) ∧
  (∀ (serial : Nat) (item : BitVec 24) (core : Fin 128) (out : List DvaByte) (overflow : Bool) (s : State) (pl : Placement) (c : Cmd) (r : Run),
    (tabFind s.eng.placements serial = some pl) →
    ((s.q.cmds.find? fun d => decide (d.serial = serial)) = some c) →
    (pl.begun = true) →
    (item.toNat < pl.counts.getD pl.phase 0) →
    (c.stopped = false) →
    (c.lines = []) →
    (core.val = itemCore pl item.toNat) →
    ((itemAt pl item.toNat).accepted = false) →
    (r = (groupBytes out).foldl (fun r g => writeRange g.1 g.2 r) { runOf c s with unit := core.val, engine := 3 }) →
    (runBlocked r = false) →
    exec (.itemResultLanded serial item core out overflow) s = .next (settle (putPlacement serial { pl with
      items := tabPut pl.items {} item.toNat { itemAt pl item.toNat with accepted := true }, overflow := pl.overflow || overflow }
      (modCmd serial (fun d => { d with
        status := r.status, faultDva := r.faultDva, faultTiles := r.faultTiles, zeroReads := r.cmd.zeroReads, stopped := d.stopped || r.stopped }) r.s)))) ∧
  (∀ (serial : Nat) (item : BitVec 24) (core : Fin 128) (out : List DvaByte) (overflow : Bool) (s : State) (pl : Placement) (c : Cmd),
    (tabFind s.eng.placements serial = some pl) →
    ((s.q.cmds.find? fun d => decide (d.serial = serial)) = some c) →
    (pl.begun = true) →
    (item.toNat < pl.counts.getD pl.phase 0) →
    (c.stopped = false) →
    (c.lines = []) →
    (core.val = itemCore pl item.toNat) →
    ((itemAt pl item.toNat).accepted = true) →
    (pl.migrated = true) →
    (isReproducible c.modes = false) →
    exec (.itemResultLanded serial item core out overflow) s = .next (settle (modCmd serial (fun c => { c with tdcDelta := c.tdcDelta + 1 })
      (modTcx c.tcx (fun x => { x with tdc := x.tdc + 1 }) (putPlacement serial { pl with discarded := pl.discarded + 1 } s))))) ∧
  (∀ (serial : Nat) (s : State) (pl : Placement) (c : Cmd),
    (schAway s = false) →
    (tabFind s.eng.placements serial = some pl) →
    ((s.q.cmds.find? fun d => decide (d.serial = serial)) = some c) →
    (pl.begun = false) →
    (c.stopped = false) →
    (c.opcode = 0xA0) →
    (writesPending s c.tcx = false) →
    (phaseCores s c.tcx c.polder pl ≠ []) →
    ∃ t, t = putPlacement serial { pl with cores := phaseCores s c.tcx c.polder pl, begun := true, items := [] } s ∧
      exec (.kernelPhaseStart serial) s = .next (settle { t with eng := { t.eng with
        stores := (phaseCores s c.tcx c.polder pl).foldl (fun l k => tabModify l {} k fun st => { st with counters := [] }) s.eng.stores } }))

/-- R70, R72, R129, R130, R132, R140, R141, R145.
* the request in service no longer waits for the medium;
* a corrected error is counted for its polder, its channel and its device, besides;
* the line leaves the forwarding buffer of its die;
* a failed DDR channel of no polder, which holds no map, is marked and noticed;
* the spare takes the failed channel's position, and the FM is notified;
* a clean patrol read changes nothing;
* copies of a MIRROR polder that differ poison the line, are counted and recorded. -/
def Obligations.MediumRows : Prop :=
  (∀ (tpa : BitVec 50) (s : State) (f : Flow),
    (tabFind s.coh.flows (lineOf tpa.toNat) = some f) →
    (f.medium = true) →
    (regionOf tpa.toNat ≠ .flash) →
    exec (.mediumReadComplete tpa .clean) s = .next (settle (putFlow (lineOf tpa.toNat) { f with medium := false } s))) ∧
  (∀ (tpa : BitVec 50) (d : Fin 10) (s : State) (f : Flow),
    (tabFind s.coh.flows (lineOf tpa.toNat) = some f) →
    (f.medium = true) →
    (regionOf tpa.toNat ≠ .flash) →
    exec (.mediumReadComplete tpa (.corrected d)) s = .next (settle
      (putFlow (lineOf tpa.toNat) { f with medium := false } (countCorrected (lineOf tpa.toNat * 64) d.val s)))) ∧
  (∀ (tpa : BitVec 50) (s : State),
    exec (.mediumWriteComplete tpa) s = .next (settle { s with coh := { s.coh with
      forwarding := s.coh.forwarding.filter fun l => decide (l ≠ lineOf tpa.toNat) } })) ∧
  (∀ (n : Fin 24) (s : State),
    (s.res.failedDdr.getLsbD n.val = false) →
    ((s.tray.mapHome.filter fun e => decide (e.2 = n.val)) = []) →
    (channelPolder s (.ddr n) = none) →
    exec (.channelFailureDeclared (.ddr n)) s = .next (settle (notifyFm { kind := 0x08, unit := n.val } 0
      { s with res := { s.res with failedDdr := s.res.failedDdr ||| BitVec.ofNat 24 (2 ^ n.val) } }))) ∧
  (∀ (polder : BitVec 6) (s : State) (r : Rebuild),
    ((polderOf s polder.toNat).rebuild = some r) →
    (s.pins.ilOpen = false) →
    (s.pins.ilFault = false) →
    exec (.parityRebuildComplete polder) s = .next (settle (notifyFm { kind := 0x08, polder := polder.toNat, unit := r.failed } 0
      (bumpResil polder.toNat 0x58 (s.tray.share * 2 ^ 30) (setPolder polder.toNat { polderOf s polder.toNat with
        rebuild := none
        spareFor := some ((maskBits 24 (polderOf s polder.toNat).ddr.toNat).findIdx fun n => decide (n = r.failed)) } s))))) ∧
  (∀ (tpa : BitVec 50) (s : State),
    ((polderAt s tpa.toNat).isSome = true) →
    (regionOf tpa.toNat ≠ .flash) →
    exec (.patrolRead tpa .clean false) s = .next (settle s)) ∧
  (∀ (tpa : BitVec 50) (s : State) (p : Nat),
    (polderAt s tpa.toNat = some p) →
    (isMirror (polderOf s p).modes = true) →
    (regionOf tpa.toNat = .dram) →
    exec (.patrolRead tpa .clean true) s = .next (settle (writeEvent 0x05 0 0 p tpa.toNat 0
      (bumpResil p 0x38 1 (poisonLine (lineOf tpa.toNat) .diverged s)))))

/-- R57 to R63, R73, R74, R79, R89, R100.
* a read of at most 64 KiB becomes an access;
* so does a write;
* and a naturally aligned atomic;
* an access whose segments are cached and that no earlier one overlaps is translated at once;
* a fill of a valid entry that has not changed enters the cache, least recently used entries leaving it;
* the host has answered;
* the bytes of the host tier arrive;
* without a completion within 1 ms they are poisoned, and the window's failure is counted. -/
def Obligations.EngineAccesses : Prop :=
  (∀ (e : EngineRef) (dva : BitVec 52) (length : BitVec 17) (dest : BitVec 32) (s : State),
    (engineMay s e.unit.toNat e.engine.toNat e.tcx.toNat e.serial = true) →
    (length.toNat ≠ 0) →
    (length.toNat ≤ 65536) →
    exec (.engineRead e dva length dest []) s = .next (settle (issueAccess {
      unit := e.unit.toNat, engine := e.engine.toNat, stream := e.stream, tcx := e.tcx.toNat, serial := e.serial, write := false,
      dva := dva.toNat, length := length.toNat, dest := dest.toNat } s))) ∧
  (∀ (e : EngineRef) (dva : BitVec 52) (data : List Byte) (poison : Bool) (s : State),
    (engineMay s e.unit.toNat e.engine.toNat e.tcx.toNat e.serial = true) →
    (data ≠ []) →
    (data.length ≤ 65536) →
    exec (.engineWrite e dva data poison) s = .next (settle (issueAccess {
      unit := e.unit.toNat, engine := e.engine.toNat, stream := e.stream, tcx := e.tcx.toNat, serial := e.serial, write := true,
      dva := dva.toNat, length := data.length, dest := 0, data := data, poison := poison } s))) ∧
  (∀ (e : EngineRef) (dva : BitVec 52) (op : AtomicKind) (operand new : BitVec 64) (s : State),
    (engineMay s e.unit.toNat e.engine.toNat e.tcx.toNat e.serial = true) →
    (e.unit.toNat < 0xC0) →
    (dva.toNat % 8 = 0) →
    exec (.engineAtomic e dva op true operand new) s = .next (settle (issueAccess {
      unit := e.unit.toNat, engine := e.engine.toNat, stream := e.stream, tcx := e.tcx.toNat, serial := e.serial, write := true,
      dva := dva.toNat, length := 8, dest := 0, atomic := some (atomicCode op, operand.toNat, new.toNat, false) } s))) ∧
  (∀ (a : WaitingAccess) (s : State),
    ((segsOfRange s a.tcx a.dva a.length).all (fun n => (segCache s a.unit a.engine).any fun c => decide (c.tcx = a.tcx ∧ c.seg = n)) = true) →
    (s.eng.waiting = []) →
    (tabFind s.eng.lastTcx (cacheIx a.unit a.engine) = some a.tcx) →
    ∃ l, issueAccess a s = startAccess a (putSegCache a.unit a.engine l { s with eng := { s.eng with
        lastTcx := tabInsert s.eng.lastTcx (cacheIx a.unit a.engine) a.tcx } }) ∧
      ∀ c, c ∈ l ↔ c ∈ segCache s a.unit a.engine) ∧
  (∀ (unit : BitVec 8) (engine : BitVec 4) (stream : Fin 8) (entry : BitVec 16) (s : State) (m : SegMiss),
    (s.eng.misses = [m]) →
    (m.unit = unit.toNat) →
    (m.engine = engine.toNat) →
    (m.stream = stream.val) →
    (m.entry = entry.toNat) →
    (m.stale = false) →
    ((segOf s (entry.toNat / 16) (entry.toNat % 16)).valid = true) →
    (s.eng.waiting = []) →
    exec (.segmentFillArrival unit engine stream entry) s = .next (settle (fillSeg unit.toNat engine.toNat
      ⟨entry.toNat / 16, entry.toNat % 16, segOf s (entry.toNat / 16) (entry.toNat % 16)⟩ { s with eng := { s.eng with misses := [] } }))) ∧
  (∀ (serial : Nat) (hid : BitVec 8) (s : State),
    exec (.zeroLengthReadReturn serial hid) s = .next (settle (modCmd serial
      (fun c => { c with zeroReads := c.zeroReads.filter fun h => decide (h ≠ hid.toNat) }) s))) ∧
  (∀ (tile : Nat) (data : List Byte) (s : State) (e : Nat × Nat × Nat × Nat) (t : Tile),
    (tabFind s.tier.thReads tile = some e) →
    (tabFind s.eng.tiles tile = some t) →
    (data.length = e.2.2.1) →
    exec (.thReadCompletion tile (.data data)) s = .next (settle (putTile tile
      { t with got := (List.range e.2.2.1).foldl (fun g i => tabInsert g (e.2.1 + i) (data.getD i 0)) t.got }
      { s with tier := { s.tier with thReads := tabErase s.tier.thReads tile } }))) ∧
  (∀ (tile : Nat) (s : State) (e : Nat × Nat × Nat × Nat),
    (tabFind s.tier.thReads tile = some e) →
    exec (.thReadTimeout tile) s = .next (settle (thEnd tile none (windowFailure e.1 1 s))))

/-- R94, R95, R103, R152, R188, R225, R232.
* the batch forming goes as one fetch-add of its sum;
* the old value returns: the members of the group get their prefixes;
* blocks read 64 times or more in the period begin to be copied, and the counts start again;
* a copy that no write has cancelled is installed, where the pool has room;
* after 16 increments per entry every count of the polder's sketch is halved;
* a filled granule is zero and bound to the requesting key, if that key is still in its slot;
* the rows of the overlay are written to the table's base, and its work pool is freed;
* at the spill point the command waits no longer for the data that has not arrived. -/
def Obligations.CombiningRows : Prop :=
  (∀ (tpa : BitVec 50) (key : BitVec 13) (s : State) (b : FetchBatch),
    (s.copy.batches = [b]) →
    (b.tpa = tpa.toNat) →
    (b.key = key.toNat) →
    (b.forming ≠ []) →
    exec (.fetchAddBatchSend tpa key) s = .next (settle (sendFetchAdd b ((b.forming.map (·.2)).sum)
      (putBatch { b with sent := b.sent ++ [b.forming], forming := [] } (bumpCopy ((polderAt s b.tpa).getD 64) 0x08 b.forming.length s))))) ∧
  (∀ (tpa : BitVec 50) (key : BitVec 13) (s : State) (b : FetchBatch) (group : List (Asker × Nat)) (old : Nat) (bad tagBad : Bool),
    (s.copy.batches = [b]) →
    (b.tpa = tpa.toNat) →
    (b.key = key.toNat) →
    (b.sent = [group]) →
    (b.forming = []) →
    (b.results = [(old, bad, tagBad)]) →
    exec (.atomicResultReturn tpa key) s = .next (settle (answerMembers b.bytes (lineOf tpa.toNat) old bad tagBad group
      { s with copy := { s.copy with batches := [] } }))) ∧
  (∀ (polder : BitVec 6) (s : State),
    (poolBlocks (polderOf s polder.toNat) ≠ 0) →
    exec (.promotionSamplePeriod polder) s = .next (settle { s with tier := { s.tier with
      sample := s.tier.sample.filter fun e => decide (polderAt s (e.1 * 65536) ≠ some polder.toNat)
      promoted := (((s.tier.sample.filter fun e => decide (polderAt s (e.1 * 65536) = some polder.toNat)).filter fun e =>
          decide (64 ≤ e.2) && (tabFind s.tier.promoted e.1).isNone).map (·.1)).foldl
        (fun t b => tabInsert t b { pin := false, installed := false, polder := polder.toNat }) s.tier.promoted } })) ∧
  (∀ (tpa : BitVec 50) (s : State) (b : Promoted),
    (tabFind s.tier.promoted (tpa.toNat / 65536) = some b) →
    (b.installed = false) →
    (promoRoom b.polder (dropPromoted (tpa.toNat / 65536) s) = some (dropPromoted (tpa.toNat / 65536) s)) →
    ∃ t, t = dropPromoted (tpa.toNat / 65536) s ∧ exec (.promotionCopyComplete tpa) s = .next (settle (bumpTier b.polder 0x28 1
      { t with tier := { t.tier with
        promoted := tabInsert t.tier.promoted (tpa.toNat / 65536) { pin := false, installed := true, polder := b.polder }
        promoLru := touch t.tier.promoLru (tpa.toNat / 65536) } }))) ∧
  (∀ (polder : BitVec 6) (s : State),
    ((polderOf s polder.toNat).rowCacheUnits ≠ 0) →
    (16 * 65536 * (polderOf s polder.toNat).rowCacheUnits ≤ tabGet s.tbl.increments 0 polder.toNat) →
    exec (.sketchHalving polder) s = .next (settle (bumpLookup polder.toNat 0x30 1 { s with tbl := { s.tbl with
      sketch := tabMap s.tbl.sketch 0 fun k c => if k / 2 ^ 24 / 4 = polder.toNat then c / 2 else c
      increments := tabPut s.tbl.increments 0 polder.toNat 0 } }))) ∧
  (∀ (tpa : BitVec 50) (s : State) (f : Fill) (k : KeySlot),
    (s.key.fills = [f]) →
    (f.granule = granuleOf tpa.toNat) →
    (keySlotOf s f.tcx f.slot = some k) →
    (k.key = f.key) →
    exec (.granuleFillComplete tpa) s = .next (settle (zeroTpa (tpa.toNat / granuleBytes tpa.toNat * granuleBytes tpa.toNat) (granuleBytes tpa.toNat)
      { s with key := { s.key with fills := [], bindings := tabPut s.key.bindings .unbound f.granule (.bound f.tcx f.slot) } }))) ∧
  (∀ (tcx : BitVec 12) (table : BitVec 6) (s : State) (t : Table),
    (tabFind s.tbl.tables (64 * tcx.toNat + table.toNat) = some t) →
    (t.current.merging = true) →
    (t.retiring = []) →
    exec (.overlayMergeEnd tcx table) s = .next (settle (mergeRows (64 * tcx.toNat + table.toNat) t t.current
      (putTable (64 * tcx.toNat + table.toNat)
        { t with current := { t.current with merging := false, merged := true, overlay := [], overlayPoison := [], pool := 0 } } s)))) ∧
  (∀ (serial : Nat) (s : State) (c : Cmd),
    (schAway s = false) →
    ((s.q.cmds.find? fun d => decide (d.serial = serial) && !d.waiting && !d.cut) = some c) →
    (spills c = true) →
    (reserveOf c.opcode < hdrDeadline c.words) →
    (spillPoint c (reserveOf c.opcode) ≤ s.time) →
    exec (.spillCutoff serial) s = .next (settle (modCmd serial (fun c => { c with cut := true, lines := [] })
      { s with tier := { s.tier with spilledReads := s.tier.spilledReads ++
          (c.issued.filter fun e => !c.delivered.contains e.1).map fun e => (serial, e.1, c.polder) } })))

/-- R16, R171, R173 to R184.
* a policed frame of class 0 to 5 that finds room is admitted;
* one that finds none, or whose flow is held already, is held at its input;
* one that fails a check is discarded and counted;
* the only held frame of an attachment is admitted when there is room, and the time it was held is counted;
* the frame that the order chooses leaves its queue for the endpoint;
* a periodic snapshot is written where its whole destination may be written;
* a frame in sequence with a good CRC is accepted, and the next one is expected;
* the first failed lane of a link begins a retrain, after which a spare can take its place;
* at the end of the retrain a spare replaces the failed lane; -/
def Obligations.WeirRows : Prop :=
  (∀ (die : Fin 4) (att : Fin 33) (f g : Frame) (received : BitVec 7) (shared : Bool) (s t : State),
    (s.fw.started = true) →
    (dieLive s die.val = true) →
    (attExists die.val att.val = true) →
    (s.weir.failedAtt.contains (die.val * 33 + att.val) = false) →
    (frameOk f true received.toNat = true) →
    (policeFrame die.val att.val f { s with weir := { s.weir with replays := tabErase s.weir.replays (die.val * 33 + att.val) } } = (g, t)) →
    (g.cls.toNat < 6) →
    (flowHeld t die.val (die.val * 33 + att.val) g = false) →
    (admission t die.val (queueKey die.val (routeEp t die.val g) g.cls.toNat) g = some shared) →
    exec (.weirFrameArrival die att f true received) s = .next (settle (admitFrame die.val (die.val * 33 + att.val) g shared t))) ∧
  (∀ (die : Fin 4) (att : Fin 33) (f g : Frame) (received : BitVec 7) (s t : State),
    (s.fw.started = true) →
    (dieLive s die.val = true) →
    (attExists die.val att.val = true) →
    (s.weir.failedAtt.contains (die.val * 33 + att.val) = false) →
    (frameOk f true received.toNat = true) →
    (policeFrame die.val att.val f { s with weir := { s.weir with replays := tabErase s.weir.replays (die.val * 33 + att.val) } } = (g, t)) →
    (g.cls.toNat < 6) →
    (flowHeld t die.val (die.val * 33 + att.val) g = true ∨ admission t die.val (queueKey die.val (routeEp t die.val g) g.cls.toNat) g = none) →
    exec (.weirFrameArrival die att f true received) s = .next (settle (holdFrame (die.val * 33 + att.val) g t))) ∧
  (∀ (die : Fin 4) (att : Fin 33) (f : Frame) (crcOk : Bool) (received : BitVec 7) (s : State),
    (s.fw.started = true) →
    (dieLive s die.val = true) →
    (attExists die.val att.val = true) →
    (s.weir.failedAtt.contains (die.val * 33 + att.val) = false) →
    (frameOk f crcOk received.toNat = false) →
    (tabGet s.weir.replays 0 (die.val * 33 + att.val) < 8) →
    exec (.weirFrameArrival die att f crcOk received) s = .next (settle { s with weir := { s.weir with
      discards := s.weir.discards + 1
      replays := tabPut s.weir.replays 0 (die.val * 33 + att.val) (tabGet s.weir.replays 0 (die.val * 33 + att.val) + 1) } })) ∧
  (∀ (die : Fin 4) (att : Fin 33) (h : HeldFrame) (shared : Bool) (s : State),
    (s.weir.held = [h]) →
    (h.input = die.val * 33 + att.val) →
    (admission s die.val (queueKey die.val (routeEp s die.val h.frame) h.frame.cls.toNat) h.frame = some shared) →
    exec (.frameAdmitRetry die att) s = .next (settle (admitFrame die.val h.input h.frame shared
      (bumpFrame h.frame 0x30 (40 * (s.time - h.since)) { s with weir := { s.weir with held := [] } })))) ∧
  (∀ (die : Fin 4) (att : Fin 33) (c : Nat) (q : QFrame) (s t : State),
    (attExists die.val att.val = true) →
    (dieLive s die.val = true) →
    (s.weir.failedAtt.contains (die.val * 33 + att.val) = false) →
    (((linkOfEp die.val (endpointOf att.val)).any fun k => (leveeOf s k).retraining) = false) →
    (chooseClass die.val (endpointOf att.val) s = some (c, t)) →
    (queueHead s die.val (endpointOf att.val) c = some q) →
    exec (.weirFrameDeliver die att .none) s = .next (settle (handOver die.val (endpointOf att.val) q.frame (takeFrame die.val (endpointOf att.val) q t)))) ∧
  (∀ (t : BitVec 12) (st : StatStream) (s : State),
    (tabFind s.weir.streams t.toNat = some st) →
    ((checkRange s t.toNat st.dva.toNat 96 .write).any (fun p => isDenied p.2.2 || isUnmapped p.2.2) = false) →
    exec (.weirStatsPeriod t) s = .next (settle (clearWeir t.toNat st.clear true (deviceWriteDva t.toNat st.dva.toNat (cleanBytes (weirBlock s t.toNat)) s)))) ∧
  (∀ (link : Fin 6) (up : Bool) (seq : BitVec 16) (s : State),
    ((leveeOf s link.val).down = false) →
    (seq.toNat = tabGet (leveeOf s link.val).nextSeq 0 (dirKey up)) →
    exec (.leveeFrameReceived link up seq true) s = .next (settle (emit (.levee link.val true) (modLevee link.val (fun x =>
      { x with nextSeq := tabPut x.nextSeq 0 (dirKey up) ((seq.toNat + 1) % 2 ^ 16) }) s)))) ∧
  (∀ (link : Fin 6) (up : Bool) (group : Fin 8) (s : State),
    ((leveeOf s link.val).down = false) →
    ((8 * dirKey up + group.val) ∉ (leveeOf s link.val).groupsOff) →
    ((leveeOf s link.val).retraining = false) →
    exec (.leveeLaneFailure link up group) s = .next (settle (modLevee link.val (fun x =>
        { x with pendingLanes := tabModify x.pendingLanes 0 (8 * dirKey up + group.val) (· + 1) })
      (writeEvent 0x01 link.val 0 64 0 2 (modLevee link.val (fun x => { x with retraining := true, retrains := x.retrains + 1 }) s))))) ∧
  (∀ (link : Fin 6) (g : Nat) (s : State),
    ((leveeOf s link.val).retraining = true) →
    ((leveeOf s link.val).pendingLanes = [(g, 1)]) →
    ((leveeOf s link.val).groupsOff = []) →
    (tabGet (leveeOf s link.val).failedLanes 0 g < 2) →
    exec (.leveeRetrainEnd link true) s = .next (settle (modLevee link.val (fun x => { x with retraining := false, pendingLanes := [] })
      (writeEvent 0x01 link.val 0 64 0 0 (modLevee link.val (fun x =>
        { x with failedLanes := tabModify x.failedLanes 0 g (· + 1), repairs := x.repairs + 1 }) s)))))

/-- R192 to R201.
* a first drop of a best-effort frame arms its resend;
* the armed resend sends the frame again and counts it for the copy's polder;
* a chunk that is not the last is written where it goes, and the copy has progressed by it;
* a WAIT with a limit that is not satisfied completes WAIT_EXPIRED with the counter;
* bytes within the length enter the slot's buffers, complete chunks pass on, and the timer restarts;
* a stalled burst ends its command STALE_BURST with the bytes that have landed;
* a group that is not full ends MEMBER_LOST for its members; -/
def Obligations.CopyRows : Prop :=
  (∀ (serial : Nat) (f : Frame) (s : State) (c : Cmd),
    ((s.q.cmds.find? fun c => c.serial = serial && decide (c.opcode = 0x40) && flag c.words 3 31) = some c) →
    ((s.copy.resends.any fun r => r.serial = serial && r.frame.tag = f.tag) = false) →
    exec (.dropNotice serial f) s = .next (settle { s with copy := { s.copy with
      resends := s.copy.resends ++ [{ serial := serial, frame := f, backoff := 1, due := true }] } })) ∧
  (∀ (serial : Nat) (tag : BitVec 18) (s : State) (r : Resend) (c : Cmd),
    ((s.copy.resends.find? fun r => r.serial = serial && r.frame.tag = tag && r.due) = some r) →
    ((s.q.cmds.find? fun c => c.serial = serial) = some c) →
    exec (.bestEffortResend serial tag) s = .next (settle (emit (.frame r.frame.srcDie.toNat r.frame.dstEp.toNat r.frame) (bumpCopy c.polder 0x18 1
      { s with copy := { s.copy with resends := s.copy.resends.map fun x =>
          if x.serial = serial ∧ x.frame.tag = tag then { x with due := false } else x } })))) ∧
  (∀ (serial : Nat) (host : List HostByte) (s : State) (c0 : Cmd),
    ((s.q.cmds.find? fun c => c.serial = serial && decide (c.opcode = 0x40 ∧ c.phase ≠ 0) && c.outcome.isNone) = some c0) →
    (c0.lines = []) →
    (copyReady s { c0 with host := host } = true) →
    (runBlocked (copyChunk { c0 with host := host } s) = false) →
    ((copyChunk { c0 with host := host } s).stopped = false) →
    ((nextChunk s c0).1 + (nextChunk s c0).2 ≠ (copyReq c0).length) →
    ((copyReq c0).cntMode = 0) →
    ∃ t, exec (.chunkLanded serial host) s = .next (settle t) ∧ t.mem = (copyChunk { c0 with host := host } s).s.mem ∧
      tabGet t.copy.progress 0 serial = (nextChunk s c0).1 + (nextChunk s c0).2) ∧
  (∀ (serial : Nat) (s : State) (c : Cmd),
    ((s.q.cmds.find? fun c => c.serial = serial && decide (c.opcode = 0x42 ∧ c.phase ≠ 0) && !c.decided) = some c) →
    (field c.words 6 23 0 ≠ 0) →
    exec (.waitTimeout serial) s = .next (settle (finishWith c .waitExpired (counterOf s c.tcx (field c.words 3 3 0)) s))) ∧
  (∀ (port : Fin 17) (ld : Fin 16) (slot : Fin 16) (offset : BitVec 16) (data : List Byte) (s : State) (p : PushSlot),
    (tabFind s.copy.slots (slotKey (sluiceIx port ld) slot.val) = some p) →
    (∀ i < data.length, streamOffset p (offset.toNat + i) < p.length) →
    exec (.pushSlotWrite port ld slot offset data) s = .next (settle { s with copy := { s.copy with
      slots := tabInsert s.copy.slots (slotKey (sluiceIx port ld) slot.val) (passChunks (p.length / 4096 + 2) { p with
        timer := true
        arrived := (data.mapIdx fun i b => (streamOffset p (offset.toNat + i), b)).foldl (fun a e => tabInsert a e.1 e.2) p.arrived }) } })) ∧
  (∀ (port : Fin 17) (ld : Fin 16) (slot : Fin 16) (s : State) (p : PushSlot) (c : Cmd),
    (tabFind s.copy.slots (slotKey (sluiceIx port ld) slot.val) = some p) →
    (p.timer = true) →
    (s.q.intakeHeld = false) →
    ((s.q.cmds.find? fun c => c.serial = p.serial) = some c) →
    (p.arrived = []) →
    exec (.pushBurstExpiry port ld slot) s = .next (settle (loseMember p.serial
      { status := .staleBurst, value := tabGet (landPassed (p.passed / 4096 + 2) p.serial s).copy.progress 0 p.serial }
      (landPassed (p.passed / 4096 + 2) p.serial s)))) ∧
  (∀ (polder : BitVec 6) (group : Word) (s : State) (g : Group),
    (tabFind s.copy.groups (polder.toNat * 2 ^ 32 + group.toNat) = some g) →
    (g.full = false) →
    exec (.joinTimeout polder group) s = .next (settle (endGroup (polder.toNat * 2 ^ 32 + group.toNat) g none .memberLost s)))

/-- R31, R32, R42, R52.
* the reset of a TCX ends and its command completes;
* tiles of the old entry are discarded and their commands complete MAP_FAULT;
* the drain of a polder whose TCXs are not resetting ends in DRAINED;
* the scrub ends: the slices are free and every byte of the polder's tray DRAM is zero; -/
def Obligations.ResetAndDrainRows : Prop :=
  (∀ (t : BitVec 12) (s : State),
    (schAway s = false) →
    ((tcxOf s t.toNat).state = .resetting) →
    exec (.resetEngineCutoff t) s = .next (settle (resetsDone t.toNat (endReset t.toNat s)))) ∧
  (∀ (t : BitVec 12) (seg : Fin 16) (s : State),
    (schAway s = false) →
    (s.tier.thReads = []) →
    exec (.remapEngineCutoff t seg) s = .next (settle (settleRemaps
      (((s.eng.tiles.filter fun e => ((oldTiles s t.toNat seg.val).map (·.1)).contains e.1).map (·.2.serial)).dedup.foldl
        (fun s k => finish k { status := .mapFault } s)
        { s with eng := { s.eng with tiles := tabFilter s.eng.tiles fun k _ => !((oldTiles s t.toNat seg.val).map (·.1)).contains k } })))) ∧
  (∀ (polder : BitVec 6) (s : State),
    (schAway s = false) →
    ((polderOf s polder.toNat).state = .draining) →
    (drainSnoops s polder.toNat = false) →
    ((polderOf s polder.toNat).action ≠ .release) →
    (polderTcxs s polder.toNat = []) →
    exec (.drainComplete polder) s = .next (settle (drainsDone polder.toNat (modPolder polder.toNat (fun p => { p with state := .drained })
      { s with eng := { s.eng with stores := tabMap s.eng.stores {} fun core st =>
          if (polderOf s polder.toNat).cores.getLsbD core then { corrected := st.corrected } else st } })))) ∧
  (∀ (polder : BitVec 6) (s : State),
    (schAway s = false) →
    ((polderOf s polder.toNat).state = .scrubbing) →
    (s.pins.ilOpen = false) →
    (s.pins.ilFault = false) →
    (regionOf (polderOf s polder.toNat).dramRange.base ≠ .flash) →
    ∃ t, exec (.scrubComplete polder) s = .next (settle (drainsDone polder.toNat (darkenFree (setPolder polder.toNat {} t)))) ∧
      ∀ a, inRange (polderOf s polder.toNat).dramRange a = true → tabGet t.mem.bytes 0 a = 0)

/-- R381, R437 to R441.
* the loss of LD0 resets the device;
* that of another die fails the die, and then the dies that it cuts off;
* an SRAM stack takes its die with it;
* a compute core is quarantined: its work moves or ends, and the FM is told;
* a crown core that runs nothing likewise;
* a core with work that makes no progress is quarantined;
* all 32 pseudo-channels of a stack fail, one after another;
* the watchdog of the PMC resets the device;
* that of SCH hands its role to the shadow;
* so does a missed heartbeat, and intake goes on from the doorbells captured meanwhile;
* SCH goes on alone;
* the channel of a failed channel core fails: its writes are refused and the FM is told;
* a window that suppressed occurrences ends with one notice of them all, and opens anew; -/
def Obligations.FaultRows : Prop :=
  (∀ (s : State),
    (s.fw.started = true) →
    (dieLive s 0 = true) →
    exec (.diePllLockLoss 0) s = .next (settle (deviceReset 6 true s))) ∧
  (∀ (d : Fin 4) (s : State),
    (s.fw.started = true) →
    (dieLive s d.val = true) →
    exec (.diePllLockLoss d) s = .next (settle (checkDies 3 (dieFails d.val s)))) ∧
  (∀ (stack : Fin 8) (s : State),
    (s.fw.started = true) →
    (dieLive s (stack.val / 2) = true) →
    exec (.sramStackFailure stack) s = .next (settle (checkDies 3 (dieFails (stack.val / 2) s)))) ∧
  (∀ (n : Fin 128) (s : State),
    (s.flt.coreQ.getLsbD n.val = false) →
    exec (.computeCoreFault (.compute n)) s = .next (settle (quarantineNotice n.val (holderOf s fun x => x.cores.getLsbD n.val)
      (leaveCore n.val { s with flt := { s.flt with coreQ := s.flt.coreQ ||| BitVec.ofNat 128 (2 ^ n.val) } })))) ∧
  (∀ (n : Fin 32) (s : State),
    (s.flt.crownQ.getLsbD n.val = false) →
    (s.eng.runs = []) →
    exec (.computeCoreFault (.crown n)) s = .next (settle (quarantineNotice (0x100 + n.val) (holderOf s fun x => x.crown.getLsbD n.val)
      (dropUnit (0xC0 + n.val) (dropL2 n.val { s with flt := { s.flt with crownQ := s.flt.crownQ ||| BitVec.ofNat 32 (2 ^ n.val) } }))))) ∧
  (∀ (n : Fin 128) (s : State),
    (s.flt.coreQ.getLsbD n.val = false) →
    (unitCommands s n.val ≠ []) →
    exec (.tileProgressTimeout n) s = .next (settle (quarantineNotice n.val (holderOf s fun x => x.cores.getLsbD n.val)
      (leaveCore n.val { s with flt := { s.flt with coreQ := s.flt.coreQ ||| BitVec.ofNat 128 (2 ^ n.val) } })))) ∧
  (∀ (stack : Fin 8) (s : State),
    (∀ i < 32, s.res.failedHbm.getLsbD (32 * stack.val + i) = false) →
    exec (.hbmStackFault stack) s = .next (settle ((List.range 32).foldl
      (fun s i => channelFailed (.hbm (Fin.ofNat 256 (32 * stack.val + i))) s) s))) ∧
  (∀ (s : State),
    (s.pins.terpUp = true) →
    (s.fw.halted.getLsbD 0 = false) →
    exec (.watchdogExpiry 0) s = .next (settle (deviceReset 4 true s))) ∧
  (∀ (s : State),
    (s.pins.terpUp = true) →
    (s.fw.started = true) →
    (s.fw.halted.getLsbD 2 = false) →
    (s.fw.onShadow = false) →
    exec (.watchdogExpiry 2) s = .next (settle (takeover s))) ∧
  (∀ (s : State),
    (s.fw.started = true) →
    (s.fw.onShadow = false) →
    (s.fw.shadowLost = false) →
    (s.fw.halted.getLsbD 2 = false) →
    (s.fw.halted.getLsbD 3 = false) →
    (s.fw.activating = none) →
    exec .schHeartbeatMiss s = .next (settle (releaseDoorbells (notifyFm { kind := 0x10, unit := 2 } 0
      { s with fw := { s.fw with onShadow := true, shadowLost := true, halted := s.fw.halted &&& ~~~4 } })))) ∧
  (∀ (s : State),
    (s.fw.started = true) →
    (s.fw.onShadow = false) →
    (s.fw.halted.getLsbD 3 = false) →
    exec .shadowHeartbeatMiss s = .next (settle { s with fw := { s.fw with shadowLost := true } })) ∧
  (∀ (ch : Fin 64) (s : State),
    ((nandOf s ch.val).present = true) →
    ((nandOf s ch.val).health ≠ .failed) →
    exec (.channelCoreFault ch) s = .next (settle (refuseWrites ch.val (nandEvents ch.val
      (setNand ch.val { nandOf s ch.val with health := .failed } s))))) ∧
  (∀ (kind : BitVec 8) (polder : BitVec 7) (port : BitVec 5) (hid : BitVec 8) (unit : BitVec 20) (tcx : BitVec 12) (s : State) (w : NoticeWindow),
    (s.flt.windows = [w]) →
    (windowSubject w = ⟨kind.toNat, polder.toNat, port.toNat, hid.toNat, unit.toNat, tcx.toNat⟩) →
    (w.suppressed ≠ 0) →
    exec (.noticeWindowEnd kind polder port hid unit tcx) s = .next (settle (writeNotice (windowSubject w) w.suppressed w.firstAddr w.firstTime
      { s with flt := { s.flt with windows := [{ w with suppressed := 0, firstAddr := 0, firstTime := 0 }] } })))

/-- R110 to R118, R386 to R396, R447, R457, R464.
* the terp starts: its serial, dies and straps, the calibration, the recorder, the interlock;
* the terp resets, and all but the NOR, the fuses and flash goes;
* a reset pulse resets the device, which stays in reset while the pin is low;
* a pulse below 1 us is counted and does nothing else;
* a copy that verifies is started;
* where no copy verifies only the terp works on;
* a step that overruns before the device accepts work leads to the terp-only state;
* a filled DDR channel joins the free pool;
* the erase of a record slot ends: the slot is erased and the recorder may flush;
* the pin is seen;
* 100 ms later every present channel stages writes and records it;
* every channel leaves staged mode at once;
* a loss of power flushes the recorder and, where HOLDUP_OK is asserted, the channels; the reset is held;
* 100 ms of rails in range let it go on;
* an activation whose core does not resume rolls back;
* a deferred halt that was forced breaks the locked sequence and is recorded;
* and one that was not answers HELD; -/
def Obligations.StartRows : Prop :=
  (∀ (f : TerpInputs) (s : State),
    (s.pins.terpUp = false) →
    exec (.terpSupplyValid f) s = .next (settle (writeEvent 0x0D 0 0 64 0 0 (interlockState (loadRecorder (loadCalibration { s with
      ident := { s.ident with serial := (f.serial ++ List.replicate 16 0).take 16, dies := f.dies, minSvn := f.minSvn }
      port := resetPorts f.clkMode
      pins := { s.pins with
        terpUp := true, booting := true, smbus := f.smbus, clkMode := f.clkMode
        sampleA := f.closedA, sampleB := f.closedB, closedA := f.closedA, closedB := f.closedB } })))))) ∧
  (∀ (s : State),
    (s.pins.terpUp = true) →
    exec .terpReset s = .next (settle (afterTerpReset (flushAll true (cutNor s))))) ∧
  (∀ (s : State),
    (s.pins.terpUp = true) →
    exec (.sysResetAssert false) s = .next (settle { deviceReset 1 true s with pins := { (deviceReset 1 true s).pins with sysResetHigh := false } })) ∧
  (∀ (s : State),
    (s.pins.terpUp = true) →
    (s.pins.glitchControl ≠ 0xFFFF) →
    exec (.sysResetAssert true) s = .next (settle { s with pins := { s.pins with glitchControl := s.pins.glitchControl + 1 } })) ∧
  (∀ (t : TrayInputs) (s : State) (a b : BundleCopy) (which : Bool) (c : BundleCopy),
    (s.pins.terpUp = true) →
    (s.fw.started = false) →
    (s.fw.terpOnly = false) →
    (s.pwr.tripped = false) →
    (s.flt.lossHeld = false) →
    (s.regs.norBusy = none) →
    (s.recorder.norReady = true) →
    (t.secOk = true) →
    (serialOk s = true) →
    (copyRead s s.fw.copyA t.copyA = a) →
    (copyRead s s.fw.copyB t.copyB = b) →
    (firstGood (tryOrder a b) = some (which, c)) →
    (c.consistent = true) →
    exec (.sysResetRelease t) s = .next (settle (startCopy t which c { s with
      pins := { s.pins with sysResetHigh := true }
      fw := { s.fw with
        copyA := a, copyB := b, copyMarkA := copyMark (tryOrder a b) false a, copyMarkB := copyMark (tryOrder a b) true b } }))) ∧
  (∀ (t : TrayInputs) (s : State),
    (s.pins.terpUp = true) →
    (s.fw.started = false) →
    (s.fw.terpOnly = false) →
    (s.pwr.tripped = false) →
    (s.flt.lossHeld = false) →
    (s.regs.norBusy = none) →
    (s.recorder.norReady = true) →
    (t.secOk = true) →
    (serialOk s = true) →
    (firstGood (tryOrder (copyRead s s.fw.copyA t.copyA) (copyRead s s.fw.copyB t.copyB)) = none) →
    ∃ x, exec (.sysResetRelease t) s = .next (settle (enterTerpOnly 1 1 x)) ∧ x.mem = s.mem ∧ x.recorder = s.recorder) ∧
  (∀ (step : BitVec 8) (s : State),
    (s.pins.terpUp = true) →
    (s.fw.started = false) →
    (s.fw.terpOnly = false) →
    (s.pwr.tripped = false) →
    (s.flt.lossHeld = false) →
    (1 ≤ step.toNat ∧ step.toNat ≤ 6) →
    exec (.startUpStepTimeout step) s = .next (settle { enterTerpOnly 3 (step - 1) s with
      pins := { (enterTerpOnly 3 (step - 1) s).pins with sysResetHigh := true } })) ∧
  (∀ (n : Fin 24) (ok : Bool) (s : State),
    (s.fw.started = true) →
    (s.tray.ddrPresent.getLsbD n.val = true) →
    (s.fw.filledDdr.getLsbD n.val = false) →
    (s.pins.ilOpen = false) →
    (s.pins.ilFault = false) →
    (s.res.failedDdr.getLsbD n.val = false) →
    exec (.zeroFillComplete (.ddr n) ok) s = .next (settle { s with
      res := { s.res with failedDdr := s.res.failedDdr &&& ~~~BitVec.ofNat 24 (2 ^ n.val) }
      fw := { s.fw with filledDdr := s.fw.filledDdr ||| BitVec.ofNat 24 (2 ^ n.val) } })) ∧
  (∀ (b : Bool) (s : State),
    (s.recorder.erasing = some b) →
    exec (.deviceNorWriteComplete .slotErase true) s = .next (settle { s with recorder := { s.recorder with
      erasing := none, norReady := true
      slotA := if b then s.recorder.slotA else {}, slotB := if b then {} else s.recorder.slotB } })) ∧
  (∀ (s : State),
    exec .holdupOkAssert s = .next (settle { s with pins := { s.pins with holdupOk := true } })) ∧
  (∀ (s : State),
    (s.pins.holdupOk = true) →
    (s.ftl.qualified = false) →
    exec .stagedModeEntry s = .next (settle { s with
      ftl := { s.ftl with
        qualified := true
        chans := s.ftl.chans.map fun e => (e.1, if e.2.present then { e.2 with staged := true } else e.2) }
      flt := { s.flt with stagedRecord := s.flt.stagedRecord |||
        (s.ftl.chans.filter fun e => e.2.present).foldl (fun m e => m ||| BitVec.ofNat 64 (2 ^ e.1)) 0 } })) ∧
  (∀ (s : State),
    ∃ t, exec .holdupOkDeassert s = .next (settle t) ∧ t.pins = { s.pins with holdupOk := false } ∧
      t.ftl = { s.ftl with
        qualified := false
        chans := s.ftl.chans.map fun e => (e.1, { e.2 with staged := false }) } ∧ t.mem = s.mem) ∧
  (∀ (s : State),
    (s.pins.terpUp = true) →
    (s.flt.lossHeld = false) →
    ∃ t, exec .powerLossDetect s = .next (settle t) ∧ t.flt.lossHeld = true ∧ t.flt.lossPending = true ∧
      t.mem = (deviceReset 2 s.pins.holdupOk (flushRecorder (cutNor s))).mem) ∧
  (∀ (s : State),
    exec .powerRestoreTimeout s = .next (settle { s with flt := { s.flt with lossHeld := false } })) ∧
  (∀ (s : State) (k : Nat),
    (s.fw.activating = some k) →
    exec .activationResumeTimeout s = .next (settle (rollBack k .rolledBack s))) ∧
  (∀ (core : Fin 28) (s : State) (k : Nat),
    (tabFind s.fw.deferred core.val = some (k, true)) →
    exec (.haltDeferTimeout core) s = .next (settle (finish k { value := 3 }
      (writeEvent 0x11 0 0 64 0 ((tabGet s.fw.locked (0, 0) core.val).1 * 256 + core.val)
        (haltCore core.val (breakLock (tabGet s.fw.locked (0, 0) core.val).2 (dropDeferral core.val s))))))) ∧
  (∀ (core : Fin 28) (s : State) (k : Nat),
    (tabFind s.fw.deferred core.val = some (k, false)) →
    exec (.haltDeferTimeout core) s = .next (settle (finish k { status := .held } (dropDeferral core.val s))))

/-- R403 to R411, R417, R418.
* enabling a port that has not failed starts its links;
* a link that is up goes down as a surprise, with cause 5, the port's only link;
* with no LD of the port bound the width changes and the links train anew;
* while one is bound nothing but DB_ERR of the management sluice changes;
* a lane that loses its light takes its link down with cause 2;
* a weak laser with cause 3;
* an optical link at full width comes up without a grace period: held doorbells and snoops go on and it offers a rendezvous;
* a failed attempt leaves the link DETACHED;
* training sets start another attempt;
* so does the retry timer;
* the grace period ends: every bound LD of the link is fenced and unbound;
* a link that cannot replay goes down with cause 7;
* a hot reset with cause 4;
* and a credit stall that Recovery does not mend with cause 6;
* a function-level reset returns the sluice to UNMATCHED with empty rings and aborts its waiting commands; -/
def Obligations.PortRows : Prop :=
  (∀ (port : Fin 17) (s : State),
    (s.flt.portFailed.getLsbD port.val = false) →
    exec (.portEnable port) s = .next (settle (startPort port.val (modPort port.val (fun x => { x with enable := true }) s)))) ∧
  (∀ (port : Fin 17) (s : State),
    ((portAt s port.val).width = 0) →
    (linkUp (linkAt s port.val 0) = true) →
    ∃ t, exec (.portDisable port) s = .next (settle (linkDown port.val 0 5 true t)) ∧ linkAt t port.val 0 = linkAt s port.val 0 ∧
      (portAt t port.val).enable = false ∧ t.q = s.q) ∧
  (∀ (port : Fin 17) (width : BitVec 2) (s : State),
    (width.toNat ≠ 3) →
    ((s.q.bound.any fun e => decide (e.1 / 16 = port.val)) = false) →
    (width.toNat ≠ (portAt s port.val).width) →
    exec (.portWidthWrite port width) s = .next (settle (startPort port.val (modPort port.val (fun x => { x with width := width.toNat, links := [] }) s)))) ∧
  (∀ (port : Fin 17) (width : BitVec 2) (s : State),
    (width.toNat ≠ 3) →
    ((s.q.bound.any fun e => decide (e.1 / 16 = port.val)) = true) →
    exec (.portWidthWrite port width) s = .next (settle (modSluice mgmtIx (fun sl => { sl with dbErr := true }) s))) ∧
  (∀ (port : Fin 17) (lane : Fin 16) (s : State),
    (port.val < 16) →
    (linkExists s port.val (lane.val / linkLanes (portAt s port.val).width) = true) →
    (linkUp (linkAt s port.val (lane.val / linkLanes (portAt s port.val).width)) = true) →
    ((linkAt s port.val (lane.val / linkLanes (portAt s port.val).width)).state ≠ .training) →
    exec (.lossOfSignal port lane) s = .next (settle (linkDown port.val (lane.val / linkLanes (portAt s port.val).width) 2 false s))) ∧
  (∀ (port : Fin 17) (lane : Fin 16) (s : State),
    (port.val < 16) →
    (linkExists s port.val (lane.val / linkLanes (portAt s port.val).width) = true) →
    (linkUp (linkAt s port.val (lane.val / linkLanes (portAt s port.val).width)) = true) →
    ((linkAt s port.val (lane.val / linkLanes (portAt s port.val).width)).state ≠ .training) →
    exec (.laserLow port lane) s = .next (settle (linkDown port.val (lane.val / linkLanes (portAt s port.val).width) 3 false s))) ∧
  (∀ (port : Fin 17) (link : Fin 4) (fast : Bool) (width : BitVec 5) (ptm : Bool) (s : State),
    (port.val < 16) →
    (linkExists s port.val link.val = true) →
    ((linkAt s port.val link.val).state = .training) →
    (width.toNat ≠ 0) →
    (width.toNat = linkLanes (portAt s port.val).width) →
    ((linkAt s port.val link.val).grace = false) →
    ∃ t, exec (.linkUp port link fast width ptm) s = .next (settle (emit (.link port.val link.val 1 (rdvPayload 1 0 0))
        (sendHeldSnoops (linkHids s port.val link.val) ((linkSluices t port.val link.val).foldl (fun s ix => releasePortHeld ix s) t)))) ∧
      (linkAt t port.val link.val).state = .l0 ∧ (linkAt t port.val link.val).active = width.toNat ∧ t.q = s.q ∧ t.coh = s.coh) ∧
  (∀ (port : Fin 17) (link : Fin 4) (s : State),
    (linkExists s port.val link.val = true) →
    ((linkAt s port.val link.val).state = .training) →
    ((linkAt s port.val link.val).retrain = false) →
    exec (.trainingTimeout port link) s = .next (settle (modLink port.val link.val (fun x => { x with state := .detached, cause := 1 }) s))) ∧
  (∀ (port : Fin 17) (link : Fin 4) (s : State),
    (linkExists s port.val link.val = true) →
    (portUsable s port.val = true) →
    ((linkAt s port.val link.val).state = .detached) →
    exec (.trainingSetReceived port link) s = .next (settle (startTraining port.val link.val s))) ∧
  (∀ (port : Fin 17) (link : Fin 4) (s : State),
    (linkExists s port.val link.val = true) →
    (portUsable s port.val = true) →
    ((linkAt s port.val link.val).state = .detached) →
    exec (.detachedRetry port link) s = .next (settle (startTraining port.val link.val s))) ∧
  (∀ (port : Fin 17) (link : Fin 4) (s : State),
    (linkExists s port.val link.val = true) →
    ((linkAt s port.val link.val).grace = true) →
    exec (.hostGraceExpiry port link) s = .next (settle ((linkSluices s port.val link.val).foldl (fun s ix => fenceLd port.val ix s)
      (modLink port.val link.val (fun x => { x with grace := false }) s)))) ∧
  (∀ (port : Fin 17) (link : Fin 4) (s : State),
    (linkExists s port.val link.val = true) →
    (linkUp (linkAt s port.val link.val) = true) →
    exec (.replayFailure port link) s = .next (settle (linkDown port.val link.val 7 false s))) ∧
  (∀ (port : Fin 17) (link : Fin 4) (s : State),
    (linkExists s port.val link.val = true) →
    (linkUp (linkAt s port.val link.val) = true) →
    exec (.hotReset port link) s = .next (settle (linkDown port.val link.val 4 false s))) ∧
  (∀ (port : Fin 17) (link : Fin 4) (s : State),
    (linkExists s port.val link.val = true) →
    (linkUp (linkAt s port.val link.val) = true) →
    ((linkAt s port.val link.val).creditStall = true) →
    exec (.creditRecoveryTimeout port link) s = .next (settle (linkDown port.val link.val 6 false s))) ∧
  (∀ (port : Fin 17) (ld : Fin 16) (s : State) (sl : Sluice),
    (findSluice s (sluiceIx port ld) = some sl) →
    (s.q.cmds = []) →
    ((sl.rids.all fun r => r.repeats.isEmpty) = true) →
    ∃ t, exec (.functionLevelReset port ld) s = .next (settle t) ∧
      findSluice t (sluiceIx port ld) = some { hid := sl.hid, ifVersion := s.fw.running.manifest.ifVersion, rids := sl.rids } ∧
      t.mem = s.mem ∧ t.polders = s.polders ∧ t.q.cmds = [])

/-- R413 to R418.
* half the active lanes, not fewer than four;
* every lane again;
* the partner's width is taken;
* an idle optical link with the rendezvous in force proposes an entry on its grid;
* and port 16 sleeps at once;
* an offer that is accepted with the same terms puts the rendezvous in force;
* one that is not answered lapses;
* an acknowledged grid enters L1 on its origin;
* an unanswered one is cancelled, and the third miss in a row ends the rendezvous;
* a wake inside the guard returns to L0 and is counted;
* a late one of an optical link retrains;
* a resynchronisation inside the guard is counted and the link sleeps on;
* a credit stall passes through Recovery;
* so does a receiver overflow;
* a flit that FEC corrects is counted;
* and one that is replayed, at the start of an episode;
* a partner that does not answer PTM loses PTM_OK; -/
def Obligations.LinkPowerRows : Prop :=
  (∀ (port : Fin 17) (link : Fin 4) (s : State),
    (linkExists s port.val link.val = true) →
    ((portAt s port.val).l0pEn = true) →
    ((linkAt s port.val link.val).state = .l0) →
    (4 < (linkAt s port.val link.val).active) →
    exec (.l0pNarrow port link) s = .next (settle (modLink port.val link.val (fun x => { x with active := max 4 (x.active / 2) }) s))) ∧
  (∀ (port : Fin 17) (link : Fin 4) (s : State),
    (linkExists s port.val link.val = true) →
    ((linkAt s port.val link.val).state = .l0) →
    exec (.l0pWiden port link) s = .next (settle (modLink port.val link.val (fun x => { x with active := x.width }) s))) ∧
  (∀ (port : Fin 17) (link : Fin 4) (width : BitVec 5) (s : State),
    (linkExists s port.val link.val = true) →
    ((linkAt s port.val link.val).state = .l0) →
    (1 ≤ width.toNat ∧ width.toNat ≤ (linkAt s port.val link.val).width) →
    exec (.partnerL0pChange port link width) s = .next (settle (modLink port.val link.val (fun x => { x with active := width.toNat }) s))) ∧
  (∀ (port : Fin 17) (link : Fin 4) (origin : BitVec 64) (s : State),
    (port.val ≠ 16) →
    (linkExists s port.val link.val = true) →
    ((linkAt s port.val link.val).state = .l0) →
    ((portAt s port.val).l1En = true) →
    ((linkAt s port.val link.val).ptmOk = true) →
    ((linkAt s port.val link.val).rdvOk = true) →
    (s.ident.uncalibrated = false) →
    exec (.l1IdleTimeout port link origin) s = .next (settle (emit (.link port.val link.val 3 (rdvPayload 3 (portAt s port.val).l1Resync.toNat origin))
      (modLink port.val link.val (fun x => { x with grid := some origin }) s)))) ∧
  (∀ (link : Fin 4) (origin : BitVec 64) (s : State),
    (linkExists s 16 link.val = true) →
    ((linkAt s 16 link.val).state = .l0) →
    ((portAt s 16).l1En = true) →
    exec (.l1IdleTimeout 16 link origin) s = .next (settle (modLink 16 link.val (fun x => { x with state := .l1 }) s))) ∧
  (∀ (port : Fin 17) (link : Fin 4) (payload : BitVec 128) (s : State),
    ((linkAt s port.val link.val).offered = true) →
    (rdvMatches 2 payload = true) →
    exec (.rdvAccept port link payload) s = .next (settle (modLink port.val link.val (fun x => { x with offered := false, rdvOk := true }) s))) ∧
  (∀ (port : Fin 17) (link : Fin 4) (s : State),
    ((linkAt s port.val link.val).offered = true) →
    exec (.rdvOfferTimeout port link) s = .next (settle (modLink port.val link.val (fun x => { x with offered := false }) s))) ∧
  (∀ (port : Fin 17) (link : Fin 4) (payload : BitVec 128) (s : State) (o : BitVec 64),
    ((linkAt s port.val link.val).grid = some o) →
    (rdvMatches 4 payload = true) →
    (payload.toNat / 2 ^ 64 = o.toNat) →
    exec (.rdvGridAck port link payload) s = .next (settle (modLink port.val link.val
      (fun x => { x with state := .l1, grid := none, origin := o, misses := 0 }) s))) ∧
  (∀ (port : Fin 17) (link : Fin 4) (s : State) (o : BitVec 64),
    ((linkAt s port.val link.val).grid = some o) →
    exec (.rdvGridTimeout port link) s = .next (settle (modLink port.val link.val
      (fun x => { x with grid := none, misses := x.misses + 1, rdvOk := x.rdvOk && decide (x.misses + 1 < 3) }) s))) ∧
  (∀ (port : Fin 17) (link : Fin 4) (s : State),
    (linkExists s port.val link.val = true) →
    ((linkAt s port.val link.val).state = .l1) →
    exec (.l1Wake port link true) s = .next (settle (bumpLink port.val link.val 0x14 (modLink port.val link.val (fun x => { x with state := .l0 }) s)))) ∧
  (∀ (port : Fin 17) (link : Fin 4) (s : State),
    (port.val ≠ 16) →
    (linkExists s port.val link.val = true) →
    ((linkAt s port.val link.val).state = .l1) →
    exec (.l1Wake port link false) s = .next (settle (lateWake port.val link.val s))) ∧
  (∀ (port : Fin 17) (link : Fin 4) (s : State),
    (port.val ≠ 16) →
    (linkExists s port.val link.val = true) →
    ((linkAt s port.val link.val).state = .l1) →
    ((portAt s port.val).l1Resync ≠ 0) →
    exec (.l1Resync port link true) s = .next (settle (bumpLink port.val link.val 0x14 s))) ∧
  (∀ (port : Fin 17) (link : Fin 4) (s : State),
    (linkExists s port.val link.val = true) →
    (linkUp (linkAt s port.val link.val) = true) →
    exec (.creditStallTimeout port link) s = .next (settle (bumpLink port.val link.val 0x14 (modLink port.val link.val (fun x => { x with creditStall := true }) s)))) ∧
  (∀ (port : Fin 17) (link : Fin 4) (s : State),
    (linkExists s port.val link.val = true) →
    (linkUp (linkAt s port.val link.val) = true) →
    exec (.receiverOverflow port link) s = .next (settle (bumpLink port.val link.val 0x14 (modLink port.val link.val (fun x => { x with overflows := x.overflows + 1 }) s)))) ∧
  (∀ (port : Fin 17) (link : Fin 4) (s : State),
    (linkExists s port.val link.val = true) →
    (linkUp (linkAt s port.val link.val) = true) →
    exec (.flitError port link true false) s = .next (settle (bumpLink port.val link.val 0x04 s))) ∧
  (∀ (port : Fin 17) (link : Fin 4) (s : State),
    (linkExists s port.val link.val = true) →
    (linkUp (linkAt s port.val link.val) = true) →
    exec (.flitError port link false true) s = .next (settle (bumpLink port.val link.val 0x10 (bumpLink port.val link.val 0x0C (bumpLink port.val link.val 0x08 s))))) ∧
  (∀ (port : Fin 17) (link : Fin 4) (s : State),
    (linkExists s port.val link.val = true) →
    exec (.ptmNoResponse port link) s = .next (settle (modLink port.val link.val (fun x => { x with ptmOk := false }) s)))

/-- R428 to R434, R446, R477.
* a cool sample of a device that is not tripped sets the compared temperature and the peak;
* a hot device steps down, not below 8;
* one that is 5 °C below steps up, not above 16;
* an HBM stack's catastrophic output trips the device;
* the first crossing opens an episode, counts it and tells the hosts;
* a rail above the level starts the restore window;
* whose end ends the episode;
* a core rail at the reset level runs the power-loss sequence;
* and any rail outside its window resets the device;
* the running average of package power is taken;
* above the limit the frequency steps down, not below 8;
* 20 W below it steps up, not above 16;
* at the lowest step a cluster is evacuated: its migratable items move;
* and released when power has fallen; -/
def Obligations.PowerRows : Prop :=
  (∀ (l : List Reading) (s : State),
    (s.pins.terpUp = true) →
    (s.pwr.tripped = false) →
    (∀ r ∈ l, sensorFault s r = false ∧ (sensorTemp s r).toNat < s.pwr.warn.toNat ∧ (sensorTemp s r).toNat < 125 ∧
      (sensorTemp s r).toNat < s.pwr.throttle.toNat) →
    (s.pwr.throttle ≠ 0) →
    exec (.thermalSample l) s = .next (settle { s with pwr := { s.pwr with
      maxC := BitVec.ofNat 8 ((l.map fun r => (sensorTemp s r).toNat).foldl max 0)
      peakC := BitVec.ofNat 8 (max s.pwr.peakC.toNat ((l.map fun r => (sensorTemp s r).toNat).foldl max 0))
      hot := [], warned := [] } })) ∧
  (∀ (s : State),
    (s.pwr.throttle.toNat ≤ s.pwr.maxC.toNat) →
    exec .throttleStep s = .next (settle { s with pwr := { s.pwr with throttleStep := max 8 (s.pwr.throttleStep - 1), throttling := true } })) ∧
  (∀ (s : State),
    (s.pwr.maxC.toNat < s.pwr.throttle.toNat - 5) →
    exec .throttleStep s = .next (settle { s with pwr := { s.pwr with
      throttleStep := min 16 (s.pwr.throttleStep + 1)
      throttling := s.pwr.throttling && decide (min 16 (s.pwr.throttleStep + 1) < 16) } })) ∧
  (∀ (stack : Fin 8) (s : State),
    (s.pins.terpUp = true) →
    (s.pwr.tripped = false) →
    ∃ t, exec (.hbmCatastrophicTemp stack) s = .next (settle t) ∧ t.pwr.tripped = true ∧ t.pins.thermTrip = true ∧
      t.mem = (deviceReset 3 true (raiseIrq 2 s)).mem) ∧
  (∀ (die : Fin 4) (pct : BitVec 8) (s : State),
    (s.pins.terpUp = true) →
    (s.pwr.warnNow = false) →
    (s.pwr.episodes ≠ 0xFFFF) →
    ∃ t, exec (.supplyWarningCrossing die pct) s = .next (settle (raiseIrq 0 (postAsyncAll 0x02 0 64 0 (readySluices t)
        (writeEvent 0x0A die.val 0 64 0 (min pct.toNat s.pwr.minPct.toNat) t)))) ∧
      t.pwr.warnNow = true ∧ t.pwr.warnSticky = true ∧ t.pwr.episodes = s.pwr.episodes + 1 ∧ t.q = s.q) ∧
  (∀ (pct : BitVec 8) (s : State),
    (s.pwr.warnNow = true) →
    exec (.supplyAboveWarning pct) s = .next (settle (noteSupply pct { s with pwr := { s.pwr with restoring := true } }))) ∧
  (∀ (s : State),
    (s.pwr.restoring = true) →
    exec .restoreWindowExpiry s = .next (settle { s with pwr := { s.pwr with warnNow := false, restoring := false } })) ∧
  (∀ (die : Fin 4) (pct : BitVec 8) (s : State),
    (s.pins.terpUp = true) →
    exec (.supplyResetCrossing die pct) s = .next (settle (powerLoss (endEpisode (noteSupply pct s))))) ∧
  (∀ (m : Fin 16) (s : State),
    (s.pins.terpUp = true) →
    exec (.railOutOfWindow m) s = .next (settle (deviceReset 2 true (endEpisode s)))) ∧
  (∀ (watts : BitVec 16) (s : State),
    (s.fw.started = true) →
    exec (.governorSample watts) s = .next (settle { s with pwr := { s.pwr with avgW := watts } })) ∧
  (∀ (s : State),
    (pmcAway s = false) →
    (s.pwr.limit.toNat < s.pwr.avgW.toNat) →
    exec .governorStepDown s = .next (settle { s with pwr := { s.pwr with govStep := max 8 (s.pwr.govStep - 1) } })) ∧
  (∀ (s : State),
    (pmcAway s = false) →
    (s.pwr.avgW.toNat + 20 < s.pwr.limit.toNat) →
    exec .governorStepUp s = .next (settle { s with pwr := { s.pwr with govStep := min 16 (s.pwr.govStep + 1) } })) ∧
  (∀ (cl : Fin 16) (s : State),
    (pmcAway s = false) →
    (s.pwr.limit.toNat < s.pwr.avgW.toNat) →
    (s.pwr.govStep = 8) →
    ((clusterOf s cl.val).state = .active) →
    (isDesignated s cl.val = false) →
    (cl.val ∉ s.pwr.evacuated) →
    exec (.governorEvacuation cl) s = .next (settle (migrateCores ((List.range 8).map (8 * cl.val + ·))
      { s with pwr := { s.pwr with evacuated := s.pwr.evacuated ++ [cl.val] } }))) ∧
  (∀ (s : State),
    (pmcAway s = false) →
    (s.pwr.avgW.toNat + 20 < s.pwr.limit.toNat) →
    exec .evacuationRelease s = .next (settle { s with pwr := { s.pwr with evacuated := [] } }))

/-- R324, R422 to R426.
* a compute cluster without work enters DOZE;
* a crown cluster first flushes its L2s;
* after which it enters the state that it flushed for;
* the entry ends: DARK loses the stores, segment caches and L2 of the cluster;
* a wake ends in ACTIVE, a PLL that stood taking the spread of CLK_CTRL;
* the time base stands at the next multiple of 64 cycles, the beat is counted and the waiting wakes go on;
* with no command and every cluster of the tenants asleep the control domain dozes; -/
def Obligations.ClusterRows : Prop :=
  (∀ (cl : Fin 24) (s : State),
    (cl.val < 16) →
    (clusterBusy s cl.val = false) →
    (clusterOf s cl.val = { state := .idle, waking := false, entering := none, flushing := none }) →
    (2 ≤ stateDepth (allowedState s cl.val)) →
    exec (.clusterIdleTimeout cl false) s = .next (settle (modCluster cl.val (fun x => { x with entering := some .doze }) s))) ∧
  (∀ (cl : Fin 24) (s : State),
    (20 ≤ cl.val) →
    (clusterBusy s cl.val = false) →
    (clusterOf s cl.val = { state := .idle, waking := false, entering := none, flushing := none }) →
    (2 ≤ stateDepth (allowedState s cl.val)) →
    exec (.clusterIdleTimeout cl false) s = .next (settle (modCluster cl.val (fun x => { x with flushing := some .doze }) s))) ∧
  (∀ (k : Fin 4) (s : State) (t : DomainState),
    ((clusterOf s (20 + k.val)).flushing = some t) →
    exec (.crownL2FlushComplete k) s = .next (settle (modCluster (20 + k.val) (fun x => { x with flushing := none, entering := some t })
      ((List.range 8).foldl (fun s i => giveUpLines (8 * k.val + i) s) s)))) ∧
  (∀ (cl : Fin 24) (s : State),
    ((clusterOf s cl.val).entering = some .dark) →
    exec (.clusterSleepEntryEnd cl) s = .next (settle (modCluster cl.val (fun x => { x with
        state := .dark, entering := none, waitBeat := x.waking && needsBeat (darkenCluster cl.val s) cl.val .dark }) (darkenCluster cl.val s)))) ∧
  (∀ (cl : Fin 24) (s : State),
    ((clusterOf s cl.val).waking = true) →
    ((clusterOf s cl.val).entering = none) →
    ((clusterOf s cl.val).waitBeat = false) →
    exec (.clusterWakeComplete cl) s = .next (settle (modCluster cl.val (fun x => { x with
        state := .active, waking := false, spread := if x.state = .idle then x.spread else s.pwr.sscEn }) s))) ∧
  (∀ (s : State),
    (s.pins.terpUp = true) →
    ∃ t, exec .startBeat s = .next (settle t) ∧ t.time = (s.time / 64 + 1) * 64 % 2 ^ 64 ∧ t.beat = (s.beat + 1) % 2 ^ 48 ∧
      t.mem = s.mem ∧ t.q = s.q ∧ t.eng = s.eng) ∧
  (∀ (s : State),
    (s.fw.started = true) →
    (s.q.cmds = []) →
    (∀ cl < 24, cl < 16 ∨ 20 ≤ cl → (clusterOf s cl).state = .doze ∨ (clusterOf s cl).state = .dark) →
    exec .controlDomainDoze s = .next (settle { s with pwr := { s.pwr with controlDoze := true } }))

/-- R103, R113 to R124.
* a T3 read of a running command is issued and its sense is queued;
* a free die starts the operation that its queue gives;
* and a read suspends an erase that has been suspended fewer than 8 times;
* a page that decodes at once is counted at its level, and the superblock's reads with it;
* a page that cannot be rebuilt poisons its granule, and the superblock is to be refreshed;
* 45 µs after its issue the data reaches the command and the lines that wait for it;
* a write that the journal has room for enters it: its bytes take effect and its mirror programs are queued;
* the first of a write's two mirror programs is counted;
* a failed one retires its superblock and is made again;
* an erase below the rated cycles frees its superblock;
* a starved program is made next;
* the valid units of the victim are moved, then it is erased;
* a patrolled page that needs a deep re-read schedules its superblock's refresh;
* a die that does not answer fails, and with the first its channel becomes read-only;
* a map segment is written with the next sequence number;
* with every replica intact the channel serves T3 accesses; -/
def Obligations.FlashRows : Prop :=
  (∀ (serial : Nat) (tpa : BitVec 50) (s : State) (c : Cmd),
    (regionOf tpa.toNat = .flash) →
    ((polderAt s tpa.toNat).isSome = true) →
    ((s.q.cmds.find? fun c => c.serial = serial && !c.waiting) = some c) →
    ((c.issued.any fun e => e.1 = tpa.toNat / 4096) = false) →
    (c.early.contains (tpa.toNat / 4096) = false) →
    (spills c = false) →
    exec (.flashReadRequest serial tpa) s = .next (settle (queueRead tpa.toNat
      (modCmd serial (fun c => { c with issued := c.issued ++ [(tpa.toNat / 4096, s.time)] }) s)))) ∧
  (∀ (ch : Fin 64) (d : Fin 16) (remaining : Nat) (s : State) (o : DieOp) (x : Die),
    ((dieOf s ch.val d.val).failed = false) →
    ((dieOf s ch.val d.val).running = none) →
    (nextOp s ch.val (dieOf s ch.val d.val) = some (o, x)) →
    exec (.flashDieOperationStart ch d remaining) s = .next (settle (modDie ch.val d.val
      (fun _ => { x with running := some { o with suspended := false, until_ := s.time + remaining } }) s))) ∧
  (∀ (ch : Fin 64) (d : Fin 16) (remaining : Nat) (s : State) (o r : DieOp) (rest : List DieOp),
    ((dieOf s ch.val d.val).failed = false) →
    ((dieOf s ch.val d.val).running = some o) →
    ((dieOf s ch.val d.val).reads = r :: rest) →
    (o.kind = .erase) →
    (o.suspends < 8) →
    (o.urgent = false) →
    exec (.flashDieOperationStart ch d remaining) s = .next (settle (modDie ch.val d.val
      (fun x => { x with
        running := some { r with until_ := s.time + remaining }, reads := rest
        writes := { o with suspended := true, suspends := o.suspends + 1 } :: x.writes }) s))) ∧
  (∀ (ch : Fin 64) (d : Fin 16) (level : Fin 8) (s : State) (o : DieOp),
    ((dieOf s ch.val d.val).running = some o) →
    (o.kind = .read) →
    (level.val < 3) →
    (tabGet (dieOf s ch.val d.val).readCount 0 o.block + 1 < 40000) →
    exec (.flashSenseComplete ch d (.decoded level)) s = .next (settle (modDie ch.val d.val (fun x => { x with stripeFails := 0 })
      (bumpFlash (nandPolder s ch.val) 0x30 level.val (modDie ch.val d.val (fun x => { x with
        running := none, readCount := tabPut x.readCount 0 o.block (tabGet (dieOf s ch.val d.val).readCount 0 o.block + 1) }) s))))) ∧
  (∀ (ch : Fin 64) (d : Fin 16) (s : State) (o : DieOp),
    ((dieOf s ch.val d.val).running = some o) →
    (o.kind = .read) →
    (tabGet (dieOf s ch.val d.val).readCount 0 o.block + 1 < 40000) →
    ((dieOf s ch.val d.val).stripeFails < 2) →
    ∃ t, exec (.flashSenseComplete ch d .lost) s = .next (settle (modDie ch.val d.val (fun x => { x with stripeFails := x.stripeFails + 1 })
      ((List.range 64).foldl (fun s i => poisonLine (o.id * 4096 / 64 + i) .uncorrectable s) (bumpFlash (nandPolder s ch.val) 0x40 1 t)))) ∧
      o.block ∈ (dieOf t ch.val d.val).refresh ∧ t.mem = s.mem) ∧
  (∀ (serial : Nat) (tpa : BitVec 50) (s : State) (c : Cmd) (g t : Nat),
    (regionOf tpa.toNat = .flash) →
    (readQueued s tpa.toNat = false) →
    ((s.tier.spilledReads.any fun e => e.1 = serial && e.2.1 = tpa.toNat / 4096) = false) →
    ((s.q.cmds.find? fun c => c.serial = serial) = some c) →
    ((c.issued.find? fun e => e.1 = tpa.toNat / 4096) = some (g, t)) →
    (t + 1125 ≤ s.time) →
    exec (.flashReadDeliver serial tpa) s = .next (settle (deliverFlows (tpa.toNat / 4096) (modCmd serial (fun c => { c with
      delivered := if c.delivered.contains (tpa.toNat / 4096) then c.delivered else c.delivered ++ [tpa.toNat / 4096] }) s)))) ∧
  (∀ (tile : Nat) (tpa : BitVec 50) (data : List Byte) (poison : Bool) (s : State) (t : Tile),
    (tabFind s.eng.tiles tile = some t) →
    (t.write = true) →
    (regionOf tpa.toNat = .flash) →
    (data ≠ []) →
    (((linesOf tpa.toNat data.length).all fun l => (t.left.map (·.1)).contains l) = true) →
    (tpa.toNat / 16384 = (tpa.toNat + data.length - 1) / 16384) →
    ((nandOf s (channelOf s tpa.toNat)).health = .ok) →
    ((nandOf s (channelOf s tpa.toNat)).mapLoaded = true) →
    (((nandOf s (channelOf s tpa.toNat)).writes.all (·.staged)) = true) →
    (journalRoom (nandOf s (channelOf s tpa.toNat)) data.length = true) →
    (s.fw.activating = none) →
    exec (.flashWriteArrival tile tpa data poison) s = .next (settle (admitWrite (channelOf s tpa.toNat)
      { id := (nandOf s (channelOf s tpa.toNat)).nextWrite, tpa := tpa.toNat, data := data, poison := poison, tile := some tile }
      (modNand (channelOf s tpa.toNat) (fun n => { n with nextWrite := n.nextWrite + 1 }) s)))) ∧
  (∀ (ch : Fin 64) (d : Fin 16) (s : State) (o : DieOp) (w : FlashWrite),
    ((dieOf s ch.val d.val).running = some o) →
    (o.kind = .programSlc) →
    (((nandOf s ch.val).writes.find? fun w => w.id = o.id) = some w) →
    (w.programs = 0) →
    exec (.flashProgramComplete ch d true) s = .next (settle (modNand ch.val (fun n => { n with
        writes := n.writes.map fun v => if v.id = w.id then { v with programs := v.programs + 1 } else v })
      (bumpFlash (nandPolder s ch.val) 0x08 65536 (modDie ch.val d.val (fun x => { x with running := none }) s))))) ∧
  (∀ (ch : Fin 64) (d : Fin 16) (s : State) (o : DieOp),
    ((dieOf s ch.val d.val).running = some o) →
    (o.kind = .programSlc ∨ o.kind = .programQlc) →
    exec (.flashProgramComplete ch d false) s = .next (settle (retireBlock ch.val d.val (programBlock (dieOf s ch.val d.val) o)
      (modDie ch.val d.val (fun x => { x with running := none, writes := o :: x.writes }) s)))) ∧
  (∀ (ch : Fin 64) (d : Fin 16) (s : State) (o : DieOp),
    ((dieOf s ch.val d.val).running = some o) →
    (o.kind = .erase) →
    (tabGet (dieOf s ch.val d.val).erases 0 o.block + 1 < ratedCycles) →
    ∃ t, exec (.flashEraseComplete ch d true) s = .next (settle (admitAll ch.val (bumpFlash (nandPolder s ch.val) 0x18 1 t))) ∧
      (dieOf t ch.val d.val).running = none ∧ (dieOf t ch.val d.val).free = (dieOf s ch.val d.val).free + 1 ∧
      tabGet (dieOf t ch.val d.val).erases 0 o.block = tabGet (dieOf s ch.val d.val).erases 0 o.block + 1 ∧ t.mem = s.mem) ∧
  (∀ (ch : Fin 64) (d : Fin 16) (s : State),
    exec (.programStarvationTimeout ch d) s = .next (settle (modDie ch.val d.val (fun x => { x with writes :=
      match x.writes with | [] => [] | w :: rest => { w with urgent := true } :: rest }) s))) ∧
  (∀ (ch : Fin 64) (d : Fin 16) (s : State) (b : Nat),
    (channelCoreAway s ch.val = false) →
    ((dieOf s ch.val d.val).failed = false) →
    ((nandOf s ch.val).health = .ok) →
    (((dieOf s ch.val d.val).writes.any fun o => decide (o.kind = .erase)) = false) →
    (victimBlock (dieOf s ch.val d.val) = some b) →
    exec (.garbageCollectionStart ch d) s = .next (settle (modDie ch.val d.val (fun x => { x with writes := x.writes ++
      ((s.ftl.map.filter fun e => decide (e.1 / 2 ^ 30 = ch.val ∧ e.2.state = .qlc ∧ e.2.die = d.val ∧ e.2.block = b)).map fun e =>
        { id := 0, kind := .programQlc, unit := e.1, block := b, page := 1, issued := s.time }) ++
      [{ id := 0, kind := .erase, block := b, issued := s.time }] }) s))) ∧
  (∀ (ch : Fin 64) (d : Fin 16) (block : BitVec 10) (level : Fin 9) (s : State),
    (channelCoreAway s ch.val = false) →
    ((nandOf s ch.val).present = true) →
    ((dieOf s ch.val d.val).failed = false) →
    (3 ≤ level.val ∧ level.val < 8) →
    exec (.flashPatrol ch d block level) s = .next (settle (scheduleRefresh ch.val d.val block.toNat (bumpFlash (nandPolder s ch.val) 0x30 (min level.val 7) s)))) ∧
  (∀ (ch : Fin 64) (d : Fin 16) (s : State),
    ((nandOf s ch.val).present = true) →
    ((nandOf s ch.val).dies = []) →
    exec (.nandDieTimeout ch d) s = .next (settle (nandReadOnly ch.val false
      (modDie ch.val d.val (fun x => { x with failed := true, running := none, reads := [], writes := [] }) s)))) ∧
  (∀ (ch : Fin 64) (segment : Nat) (s : State),
    ((nandOf s ch.val).mapLoaded = true) →
    exec (.mapCheckpoint ch segment) s = .next (settle (modNand ch.val (fun n => { n with
      updates := tabErase n.updates segment, seqNos := tabModify n.seqNos 0 segment (· + 1) }) s))) ∧
  (∀ (ch : Fin 64) (reps : List SegmentReplicas) (s : State),
    ((nandOf s ch.val).present = true) →
    ((nandOf s ch.val).mapLoaded = false) →
    ((tabFind s.tray.mapHome ch.val).isSome = true) →
    (∀ r ∈ reps, r.pair = .same ∨ r.pair = .oneIntact) →
    exec (.mapLoadComplete ch reps) s = .next (settle (mapsLoaded (modNand ch.val (fun n => { n with mapLoaded := true }) s))))

/-- R260, R261, R268.
* the oldest queued scan starts;
* a running scan of the command sends its τ, and nothing but the run changes;
* stage 3 of a search whose scans have all ended; -/
def Obligations.SearchRows : Prop :=
  (∀ (ch : Fin 64) (s : State) (sc : Scan) (rest : List Scan),
    (channelCoreAway s ch.val = false) →
    ((tabFind s.srch.running ch.val).isSome = false) →
    (tabGet s.srch.queued [] ch.val = sc :: rest) →
    exec (.scanStart ch) s = .next (settle { s with srch := { s.srch with
      running := tabInsert s.srch.running ch.val sc, queued := tabPut s.srch.queued [] ch.val rest } })) ∧
  (∀ (serial : Nat) (ch : Fin 64) (s : State) (x : Cmd × SearchRun × SearchRead × Run),
    (searchOf serial s = some x) →
    (((tabFind s.srch.running ch.val).any fun v => decide (v.serial = serial)) = true) →
    ∃ t, exec (.tauExchange serial ch) s = .next (settle { s with srch := { s.srch with
      runs := tabInsert s.srch.runs serial { x.2.1 with tau := t } } })) ∧
  (∀ (serial : Nat) (s : State) (c : Cmd) (run : SearchRun),
    (schAway s = false) →
    ((s.q.cmds.find? fun c => c.serial = serial && decide (c.opcode = 0x88)) = some c) →
    (tabFind s.srch.runs serial = some run) →
    (run.open_ = []) →
    (run.stage3 = false) →
    exec (.searchStage3Start serial) s = .next (settle (searchBody c.opcode c { s with srch := { s.srch with
      runs := tabInsert s.srch.runs serial { run with stage3 := true } } })))

/-- R485, R494, R497.
* registers are written from the offset on;
* and read from the offset of the last transfer on, which moves past them;
* a block write of 4 to 252 bytes whose PEC checks;
* a process call likewise;
* a transfer with a bad PEC changes nothing;
* a packet that carries a command without a row is answered as not supported;
* in SMBus mode a timeout is counted;
* a target reset forgets the address, the offset and the interrupt;
* an interrupt that was refused is raised once more;
* and then dropped;
* an assigned address is taken;
* a write of the reset key to BMC_RESET resets the device; -/
def Obligations.BusRows : Prop :=
  (∀ (offset : BitVec 16) (data : List Byte) (s : State),
    (s.pins.terpUp = true) →
    (s.pins.smbus = false) →
    (transferOk offset.toNat data.length = true) →
    (data.length ≤ 256) →
    exec (.i3cRegisterWrite offset data) s = .next (settle (writeTerps offset.toNat data { s with regs := { s.regs with i3cOffset := offset.toNat } }))) ∧
  (∀ (count : BitVec 8) (s : State),
    (s.pins.terpUp = true) →
    (s.pins.smbus = false) →
    (transferOk s.regs.i3cOffset (4 * count.toNat) = true) →
    exec (.i3cRegisterRead count) s = .next (settle (readTerps s.regs.i3cOffset count.toNat
      { s with regs := { s.regs with i3cOffset := s.regs.i3cOffset + 4 * count.toNat } }))) ∧
  (∀ (offset : BitVec 16) (data : List Byte) (s : State),
    (s.pins.terpUp = true) →
    (s.pins.smbus = true) →
    (transferOk offset.toNat data.length = true) →
    (4 ≤ data.length ∧ data.length ≤ 252) →
    exec (.smbusBlockWrite offset data true) s = .next (settle (writeTerps offset.toNat data s))) ∧
  (∀ (offset : BitVec 16) (length : BitVec 8) (s : State),
    (s.pins.terpUp = true) →
    (s.pins.smbus = true) →
    (transferOk offset.toNat length.toNat = true) →
    (4 ≤ length.toNat ∧ length.toNat ≤ 252) →
    exec (.smbusProcessCall offset length true) s = .next (settle (readTerps offset.toNat (length.toNat / 4) s))) ∧
  (∀ (offset : BitVec 16) (data : List Byte) (s : State),
    exec (.smbusBlockWrite offset data false) s = .next (settle s)) ∧
  (∀ (op : BitVec 16) (s : State),
    (s.pins.smbus = false) →
    (fmAnswers s = true) →
    (fmApiKnown op.toNat = false) →
    exec (.mctpPacket (.fmApi op)) s = .next (settle (emit (.fmResponse 3 []) s))) ∧
  (∀ (s : State),
    (s.pins.terpUp = true) →
    (s.pins.smbus = true) →
    exec .bmcBusTimeout s = .next (settle { s with regs := { s.regs with busTimeouts := s.regs.busTimeouts + 1 } })) ∧
  (∀ (s : State),
    (s.pins.terpUp = true) →
    (s.pins.smbus = false) →
    exec .i3cTargetReset s = .next (settle { s with regs := { s.regs with i3cAddress := none, ibiEnabled := false, ibi := none, i3cOffset := 0 } })) ∧
  (∀ (s : State) (b : BitVec 8),
    (s.regs.ibi = some (b, false)) →
    exec (.ibiRetry false) s = .next (settle (emit (.ibi b) { s with regs := { s.regs with ibi := some (b, true) } }))) ∧
  (∀ (s : State) (b : BitVec 8),
    (s.regs.ibi = some (b, true)) →
    exec (.ibiRetry false) s = .next (settle { s with regs := { s.regs with ibi := none } })) ∧
  (∀ (a : BitVec 7) (s : State),
    (s.pins.terpUp = true) →
    (s.pins.smbus = false) →
    exec (.i3cCommonCommand (.setdasa a)) s = .next (settle { s with regs := { s.regs with i3cAddress := some a } })) ∧
  (∀ (value : Word) (s : State),
    (s.pins.terpUp = true) →
    (value.toNat / 2 ^ 16 = 0x0960) →
    (value.getLsbD 0 = true) →
    exec (.bmcReset value) s = .next (settle (deviceReset 5 true s)))

/-- R486 to R488, R498.
* ten differing samples in a row change a channel;
* channel A has changed;
* both channels open: the tray is open, with one event record and one event to each ready sluice;
* a disagreement that lasts latches the fault;
* a clear with both channels closed;
* and one without, which is counted;
* a read command of a page in the open window;
* a program of a page;
* an erase of a sector;
* a program of the record area, or outside the window, is refused and counted;
* a read ends with the page in the buffer and the interrupt of Table 26.5; -/
def Obligations.InterlockAndNorRows : Prop :=
  (∀ (a b : Bool) (s : State),
    (s.pins.terpUp = true) →
    exec (.interlockSample a b) s = .next (settle (interlockState { s with pins := { s.pins with
      sampleA := a, sampleB := b
      closedA := (debounce s.pins.closedA a s.pins.runA).1, closedB := (debounce s.pins.closedB b s.pins.runB).1
      runA := (debounce s.pins.closedA a s.pins.runA).2, runB := (debounce s.pins.closedB b s.pins.runB).2 } }))) ∧
  (∀ (s : State),
    (s.pins.terpUp = true) →
    exec (.interlockChannelDebounced false) s = .next (settle (interlockState { s with pins := { s.pins with
      sampleA := !s.pins.closedA, closedA := !s.pins.closedA, runA := 0 } }))) ∧
  (∀ (s : State),
    (s.pins.closedA = false) →
    (s.pins.closedB = false) →
    (s.pins.ilOpen = false) →
    interlockState s = interlockEnters { s with pins := { s.pins with ilOpen := true, disagree := false } }) ∧
  (∀ (s : State),
    (s.pins.disagree = true) →
    (s.pins.ilFault = false) →
    exec .interlockDisagreeTimeout s = .next (settle (interlockEnters { s with pins := { s.pins with ilFault := true } }))) ∧
  (∀ (s : State),
    (s.pins.terpUp = true) →
    (s.pins.closedA = true) →
    (s.pins.closedB = true) →
    exec .interlockClear s = .next (settle { s with pins := { s.pins with ilFault := false, ilOpen := false, disagree := false } })) ∧
  (∀ (s : State),
    (s.pins.terpUp = true) →
    (s.pins.closedB = false) →
    exec .interlockClear s = .next (settle { s with pins := { s.pins with clearsIgnored := incSat8 s.pins.clearsIgnored } })) ∧
  (∀ (s : State),
    (s.pins.terpUp = true) →
    (norOpen s = true) →
    (s.regs.norBusy = none) →
    (s.regs.norAddr.toNat % 256 = 0) →
    exec .norRead s = .next (settle { s with regs := { s.regs with norBusy := some (1, s.regs.norAddr) } })) ∧
  (∀ (s : State),
    (s.pins.terpUp = true) →
    (norOpen s = true) →
    (s.regs.norBusy = none) →
    (s.regs.norAddr.toNat % 256 = 0) →
    (s.regs.norAddr.toNat < 0x03010000) →
    exec .norProgram s = .next (settle { s with regs := { s.regs with norBusy := some (2, s.regs.norAddr) } })) ∧
  (∀ (s : State),
    (s.pins.terpUp = true) →
    (norOpen s = true) →
    (s.regs.norBusy = none) →
    (s.regs.norAddr.toNat % 65536 = 0) →
    (s.regs.norAddr.toNat < 0x03010000) →
    exec .norErase s = .next (settle { s with regs := { s.regs with norBusy := some (3, s.regs.norAddr) } })) ∧
  (∀ (s : State),
    (s.pins.terpUp = true) →
    (s.regs.norBusy = none) →
    (norOpen s = false ∨ 0x03010000 ≤ s.regs.norAddr.toNat) →
    exec .norProgram s = .next (settle (norRefuse { s with regs := { s.regs with norDenied := true } }))) ∧
  (∀ (s : State) (addr : BitVec 26),
    (s.regs.norBusy = some (1, addr)) →
    ∃ t, exec (.norCommandComplete true) s = .next (settle (raiseIrq 7 t)) ∧ t.regs.norBusy = none ∧
      (∀ i < 256, tabGet t.regs.norBuf 0 i = norByte s (addr.toNat + i)) ∧ t.ident = s.ident ∧ t.recorder = s.recorder)

/-- R8, R435, R491, R495 to R497.
* TIME_LO answers with the lower half and latches the upper;
* BEAT_LO likewise;
* a record window latches its record with the read of its first word;
* SUPPLY_STATUS is read and its episodes are cleared;
* so is a counter of a sluice;
* a written 1 clears WARN_STICKY and the lowest supply;
* enabling a bit whose status is clear raises nothing;
* COH_TIMEOUT takes 10 to 10,000;
* and no other value;
* TERP_IRQ_STATUS clears the bits written 1; -/
def Obligations.RegisterRows : Prop :=
  (∀ (s : State),
    exec .timeLoRead s = .next (settle (emit (.regRead (BitVec.ofNat 32 (bits s.time 31 0)))
      { s with regs := { s.regs with timeHi := BitVec.ofNat 32 (s.time / 2 ^ 32) } }))) ∧
  (∀ (s : State),
    exec .beatLoRead s = .next (settle (emit (.regRead (BitVec.ofNat 32 (bits s.beat 31 0)))
      { s with regs := { s.regs with beatHi := BitVec.ofNat 16 (s.beat / 2 ^ 32) } }))) ∧
  (∀ (prec : Bool) (s : State),
    exec (.recWinLatch prec) s = .next (settle (emit (.regRead (BitVec.ofNat 32 (wordAt (windowRecord s prec) 0))) (latchWindow prec s)))) ∧
  (∀ (s : State),
    exec (.rcRegisterRead .supplyStatus) s = .next (settle (emit (.regRead (BitVec.ofNat 32 (supplyWord s)))
      { s with pwr := { s.pwr with episodes := 0 } }))) ∧
  (∀ (port : Fin 17) (ld : Fin 16) (s : State) (sl : Sluice),
    (findSluice s (sluiceIx port ld) = some sl) →
    exec (.rcRegisterRead (.orphanCount port ld)) s = .next (settle (emit (.regRead (BitVec.ofNat 32 sl.orphanCount))
      (modSluice (sluiceIx port ld) (fun _ => { sl with orphanCount := 0 }) s)))) ∧
  (∀ (s : State),
    exec .warnStickyClear s = .next (settle { s with pwr := { s.pwr with warnSticky := false, minPct := 100 } })) ∧
  (∀ (value : Word) (s : State),
    (BitVec.ofNat 8 value.toNat &&& s.regs.irqStatus = 0) →
    exec (.terpIrqEnableWrite value) s = .next (settle { s with regs := { s.regs with irqEnable := BitVec.ofNat 8 value.toNat } })) ∧
  (∀ (v : Word) (s : State),
    (10 ≤ bits v.toNat 13 0 ∧ bits v.toNat 13 0 ≤ 10000) →
    exec (.registerWrite .cohTimeout v) s = .next (settle { s with coh := { s.coh with timeout := BitVec.ofNat 14 v.toNat } })) ∧
  (∀ (v : Word) (s : State),
    (bits v.toNat 13 0 < 10 ∨ 10000 < bits v.toNat 13 0) →
    exec (.registerWrite .cohTimeout v) s = .next (settle s)) ∧
  (∀ (v : Word) (s : State),
    exec (.registerWrite .terpIrqStatus v) s = .next (settle { s with regs := { s.regs with irqStatus := s.regs.irqStatus &&& ~~~BitVec.ofNat 8 v.toNat } }))

/-- R162, R165, R166. The response codes are those of log entry 31.
* a connection without sessions begins anew;
* the version comes first;
* then the capabilities;
* then slot 0 is named;
* and its chain is read in portions;
* a challenge is answered with its nonce and a fresh signature;
* index 0 answers the number of blocks and 1 to 9 one of them;
* a session begins under a number that is free;
* and is established;
* an established session is kept up;
* takes new keys;
* and ends, with the streams that it programmed;
* so does one without a message for two periods; -/
def Obligations.SpdmRows : Prop :=
  (∀ (ep : SpdmEnd) (s : State),
    (secAnswers s = true) →
    (sessionsAt s ep = []) →
    exec (.getVersion ep) s = .next (settle (spdmReply ep 0x04 [0x1300] (setPhase ep .version s)))) ∧
  (∀ (ep : SpdmEnd) (s : State),
    (secAnswers s = true) →
    (phaseOf s ep = .version) →
    exec (.getCapabilities ep) s = .next (settle (spdmReply ep 0x61 [] (setPhase ep .capabilities s)))) ∧
  (∀ (ep : SpdmEnd) (s : State),
    (secAnswers s = true) →
    (phaseOf s ep = .capabilities) →
    exec (.negotiateAlgorithms ep true) s = .next (settle (spdmReply ep 0x63 [] (setPhase ep .negotiated s)))) ∧
  (∀ (ep : SpdmEnd) (s : State),
    (secAnswers s = true) →
    (phaseOf s ep = .negotiated) →
    exec (.getDigests ep) s = .next (settle (spdmReply ep 0x01 [1] s))) ∧
  (∀ (ep : SpdmEnd) (offset length : BitVec 16) (s : State),
    (secAnswers s = true) →
    (phaseOf s ep = .negotiated) →
    ∃ code words, exec (.getCertificate ep 0 offset length) s = .next (settle (spdmReply ep code words s)) ∧
      (offset.toNat < Config.certLength s.ident.serial → code = 0x02) ∧ (Config.certLength s.ident.serial ≤ offset.toNat → code = 0x7F)) ∧
  (∀ (ep : SpdmEnd) (nonce : BitVec 256) (s : State),
    (secAnswers s = true) →
    (phaseOf s ep = .negotiated) →
    exec (.challenge ep 0 nonce) s = .next (settle (drawFree (spdmReply ep 0x03 (toWords 8 nonce.toNat ++ signature s) s)))) ∧
  (∀ (ep : SpdmEnd) (index : BitVec 8) (s : State),
    (secAnswers s = true) →
    (phaseOf s ep = .negotiated) →
    (index.toNat ≤ 9) →
    exec (.getMeasurements ep index) s = .next (settle (spdmReply ep 0x60
      (if index.toNat = 0 then [9] else toWords 8 (tabGet s.fw.measurements 0 index.toNat).toNat) s))) ∧
  (∀ (ep : SpdmEnd) (session : BitVec 32) (s : State),
    (secAnswers s = true) →
    (phaseOf s ep = .negotiated) →
    ((sessionsAt s ep).length < sessionLimit ep) →
    (((sessionsAt s ep).any fun x => x.id = session.toNat) = false) →
    exec (.keyExchange ep session false) s = .next (settle (drawFree (spdmReply ep 0x64 (BitVec.ofNat 32 session.toNat :: signature s)
      (putSessions ep (sessionsAt s ep ++ [{ id := session.toNat, secret := s.free }]) s))))) ∧
  (∀ (ep : SpdmEnd) (session : BitVec 32) (s : State) (x : Session),
    (secAnswers s = true) →
    (phaseOf s ep = .negotiated) →
    (((sessionsAt s ep).find? fun x => x.id = session.toNat && !x.established) = some x) →
    exec (.finish ep session true) s = .next (settle (spdmReply ep 0x65 []
      (putSessions ep ((sessionsAt s ep).map fun x => if x.id = session.toNat then { x with established := true } else x) s)))) ∧
  (∀ (ep : SpdmEnd) (session : BitVec 32) (s : State) (x : Session),
    (secAnswers s = true) →
    (liveSession s ep session.toNat = some x) →
    exec (.heartbeat ep session) s = .next (settle (spdmReply ep 0x68 [] s))) ∧
  (∀ (ep : SpdmEnd) (session : BitVec 32) (s : State) (x : Session),
    (secAnswers s = true) →
    (liveSession s ep session.toNat = some x) →
    exec (.keyUpdate ep session) s = .next (settle (spdmReply ep 0x69 [] s))) ∧
  (∀ (ep : SpdmEnd) (session : BitVec 32) (s : State) (x : Session),
    (secAnswers s = true) →
    (liveSession s ep session.toNat = some x) →
    exec (.endSession ep session) s = .next (settle (spdmReply ep 0x6C [] (dropSession ep session.toNat s)))) ∧
  (∀ (ep : SpdmEnd) (session : BitVec 32) (s : State),
    (((sessionsAt s ep).any fun x => x.id = session.toNat) = true) →
    exec (.spdmSessionTimeout ep session) s = .next (settle (dropSession ep session.toNat s)))

/-- R163.
* a stream that is new, while the LD and the port have room;
* the second direction makes it KEYED;
* the second direction that goes makes it SECURE;
* a stop erases the keys of a stream;
* a failure on a SECURE stream; -/
def Obligations.IdeRows : Prop :=
  (∀ (port : Fin 17) (ld : Fin 16) (stream : BitVec 8) (transmit : Bool) (session : BitVec 32) (s : State) (x : Session),
    (secAnswers s = true) →
    (liveSession s (.doe port ld) session.toNat = some x) →
    (streamOf s (streamKey port ld stream) = none) →
    (streamRoom s (streamKey port ld stream) = true) →
    exec (.keyProg port ld stream transmit session) s = .next (settle (ideReply port ld 0
      (putStream (streamKey port ld stream) (programDir session.toNat transmit {}) s)))) ∧
  (∀ (session : Nat) (transmit : Bool) (x : IdeStream),
    (x.programmed ||| dirBit transmit = 3) →
    (programDir session transmit x).state = .keyed ∧ (programDir session transmit x).active = 0) ∧
  (∀ (port : Fin 17) (ld : Fin 16) (stream : BitVec 8) (transmit : Bool) (session : BitVec 32) (s : State) (x : Session) (v : IdeStream),
    (secAnswers s = true) →
    (liveSession s (.doe port ld) session.toNat = some x) →
    (streamOf s (streamKey port ld stream) = some v) →
    (v.state = .keyed) →
    (v.active ||| dirBit transmit = 3) →
    exec (.kSetGo port ld stream transmit session) s = .next (settle (ideReply port ld 0
      (putStream (streamKey port ld stream) { v with active := 3, state := .secure } s)))) ∧
  (∀ (port : Fin 17) (ld : Fin 16) (stream : BitVec 8) (session : BitVec 32) (s : State) (x : Session) (v : IdeStream),
    (secAnswers s = true) →
    (liveSession s (.doe port ld) session.toNat = some x) →
    (streamOf s (streamKey port ld stream) = some v) →
    (v.state = .secure) →
    exec (.kSetStop port ld stream session) s = .next (settle (ideReply port ld 0
      { s with key := { s.key with streams := tabErase s.key.streams (streamKey port ld stream) } }))) ∧
  (∀ (port : Fin 17) (ld : Fin 16) (stream : BitVec 8) (s : State) (v : IdeStream),
    (streamOf s (streamKey port ld stream) = some v) →
    (v.state = .secure) →
    exec (.ideIntegrityFailure port ld stream) s = .next (settle (notifyFm
      { kind := 0x03, port := port.val, hid := tabGet s.q.bound 0 (sluiceIx port ld), unit := stream.toNat + 256 * ld.val } 0
      (putStream (streamKey port ld stream) { v with state := .insecure, programmed := 0, active := 3, alternate := false } s))))

/-- R33, R359, R364, R399, R400, R459, R463, R472. The return codes are those of log entry 32.
* the package serial;
* 16 LDs on every port;
* the link of each of the 16 LDs of a port;
* the division in force is accepted and no other is;
* the DevLoad of a bound LD, at its most occupied polder;
* a whole item of the tunnel is taken in;
* a free HID is bound to a free LD, whose sluice is fresh;
* and unbound;
* a debug status item shifted into the mailbox runs, after the capture that is due has shifted out;
* the serial and the twelve records;
* EXTEST while the reset pin is low;
* and a reset of the TAP. -/
def Obligations.FabricRows : Prop :=
  (∀ (m : Bool) (s : State),
    (fmAnswers s = true) →
    exec (.fmIdentify m) s = .next (settle (emit (.fmResponse 0 (bytesToWords 4 s.ident.serial)) s))) ∧
  (∀ (m : Bool) (port : Fin 17) (s : State),
    (fmAnswers s = true) →
    exec (.getLdInfo m port) s = .next (settle (emit (.fmResponse 0 [16]) s))) ∧
  (∀ (m : Bool) (port : Fin 17) (s : State),
    (fmAnswers s = true) →
    exec (.getLdAllocations m port) s = .next (settle (emit (.fmResponse 0 ((List.range 16).map fun ld =>
      BitVec.ofNat 32 (linkOfLd (portAt s port.val).width ld))) s))) ∧
  (∀ (m : Bool) (port : Fin 17) (division : List (BitVec 8)) (s : State),
    (fmAnswers s = true) →
    exec (.setLdAllocations m port division) s = .next (settle (emit (.fmResponse
      (if division.map (·.toNat) = ldDivision s port.val then 0 else 2) []) s))) ∧
  (∀ (m : Bool) (port : Fin 17) (ld : Fin 16) (s : State) (hid : Nat),
    (fmAnswers s = true) →
    (tabFind s.q.bound (port.val * 16 + ld.val) = some hid) →
    exec (.getQosStatus m port ld) s = .next (settle (emit (.fmResponse 0 [BitVec.ofNat 32
      ((((List.range 64).filter (polderBit (hitOf s hid))).map fun p => devLoadOf s port.val hid p).foldl max (devLoadOf s port.val hid 64))]) s))) ∧
  (∀ (words : List Word) (s : State),
    (fmAnswers s = true) →
    (s.fw.started = true) →
    (intakeShut s ⟨.tunnel, words, []⟩ = false) →
    (words.length = 16 * hdrEntries words) →
    exec (.fmTunnelItem words) s = .next (settle (takeIn ⟨.tunnel, words, []⟩ s))) ∧
  (∀ (m : Bool) (b0 b1 b2 : Byte) (s : State),
    (fmAnswers s = true) →
    (s.fw.started = true) →
    (b0.toNat ≤ 16 ∧ b1.toNat ≤ 15) →
    (tabFind s.q.bound (b0.toNat * 16 + b1.toNat) = none) →
    (ldOfHid s b2.toNat = none) →
    (s.q.bound.length < 256) →
    exec (.bindHid m b0 b1 b2 0) s = .next (settle (emit (.fmResponse 0 []) { s with q := { s.q with
      bound := tabInsert s.q.bound (b0.toNat * 16 + b1.toNat) b2.toNat
      sluices := tabInsert s.q.sluices (b0.toNat * 16 + b1.toNat) { hid := b2.toNat, ifVersion := s.fw.running.manifest.ifVersion } } }))) ∧
  (∀ (m : Bool) (b0 b1 : Byte) (s : State),
    (fmAnswers s = true) →
    (b0.toNat ≤ 16 ∧ b1.toNat ≤ 15) →
    exec (.unbindHid m b0 b1 0 0) s = .next (settle (emit (.fmResponse 0 []) (unbindLd (b0.toNat * 16 + b1.toNat) s)))) ∧
  (∀ (words : List Word) (host : List HostByte) (verifies : Bool) (lock : Option (Fin 28 × Nat)) (s : State),
    (s.pins.terpUp = true) →
    (words.length = 16) →
    (hdrOpcode words = 0xF0) →
    ∃ t, exec (.jtagDbgmbox words host verifies lock) s = .next (settle (runItem 0xF0 ⟨.jtag, words, host⟩ dbgStatusBody t)) ∧
      t.dbg.jtagIr = 1 ∧ t.q = s.q ∧ t.mem = s.mem ∧ t.out = .jtag (s.dbg.mailbox.headD (List.replicate 16 0)) :: s.out) ∧
  (∀ (s : State),
    (s.pins.terpUp = true) →
    exec .jtagIdfuse s = .next (settle (emit (.jtag (bytesToWords 4 s.ident.serial ++ (List.range 12).flatMap (dieRecord s)))
      { s with dbg := { s.dbg with jtagIr := 2 } }))) ∧
  (∀ (s : State),
    (s.pins.terpUp = true) →
    exec .jtagExtest s = .next (settle { s with dbg := { s.dbg with jtagIr := if s.pins.sysResetHigh then 4 else 3 } })) ∧
  (∀ (s : State),
    exec .jtagTapReset s = .next (settle { s with dbg := { s.dbg with jtagIr := 0 } }))

/-- The admin commands of chapters 17, 18 and 23: R344, R354, R366, R376, R390, R455.
* the device, sluice or polder block is written at the HPA (in the tunnel or the mailbox, returned with the entry), 4,096 bytes;
* a driver that the firmware serves makes the sluice READY;
* any other driver makes it HELD, with VERSION_REFUSED;
* a ring pair of a number that has none, with room in the ring pool, is added;
* a number that has a pair is refused, INVALID;
* the pair is fetched to its tail and its commands are aborted; the result is how many;
* the pair is flushed and marked, and goes when its last command has completed (`deletePair`);
* with no command of the pair left, it goes with its rings;
* no more events are recorded in RAM, and the result is how many there are;
* the RAM part is cleared and holds one LOST record, of the events lost when it was full and when it was frozen;
* a recorder that is not frozen refuses, INVALID;
* the records from FIRST on are written at the HPA, 32 bytes each. -/
def Obligations.AdminRows : Prop :=
  (∀ (it : Item) (s : State) (c : Cmd),
    (Waits 0x01 it s c) →
    (field c.words 3 7 0 ≤ 2) →
    (field c.words 3 7 0 = 2 ∨ field c.words 3 13 8 = 0) →
    (field c.words 3 7 0 = 2 → srcIsMgmt (dispatchCmd c.serial s) c.src = true ∨
      polderBit (hitOf s (srcHid (dispatchCmd c.serial s) c.src)) (field c.words 3 13 8) = true) →
    (word64 c.words 4 % 4096 = 0) →
    (if c.src = .jtag then word64 c.words 4 = 0 else word64 c.words 4 ≠ 0 ∨ hpaCarried c.src (word64 c.words 4) = true) →
    exec (.identify it) s = .next (settle (finishHpa (started s c) (word64 c.words 4)
      (padTo 4096 (if field c.words 3 7 0 = 0 then deviceBlock (dispatchCmd c.serial s)
        else if field c.words 3 7 0 = 1 then sluiceBlock (dispatchCmd c.serial s) c.src
        else polderBlock (dispatchCmd c.serial s) (field c.words 3 13 8)))
      { value := 4096 } (dispatchCmd c.serial s)))) ∧
  (∀ (it : Item) (s : State) (c : Cmd),
    (Waits 0x02 it s c) →
    (wordAt c.words 4 ≤ wordAt c.words 5) →
    (versionFits s.fw.running.manifest.ifVersion.toNat (wordAt c.words 3) (wordAt c.words 4) (wordAt c.words 5) = true) →
    exec (.versionHandshake it) s = .next (settle (finishWith (started s c) .ok s.fw.running.manifest.ifVersion.toNat
      (modSluice ((srcSluice (dispatchCmd c.serial s) c.src).getD mgmtIx) (fun sl => { sl with state := .ready }) (dispatchCmd c.serial s))))) ∧
  (∀ (it : Item) (s : State) (c : Cmd),
    (Waits 0x02 it s c) →
    (wordAt c.words 4 ≤ wordAt c.words 5) →
    (versionFits s.fw.running.manifest.ifVersion.toNat (wordAt c.words 3) (wordAt c.words 4) (wordAt c.words 5) = false) →
    exec (.versionHandshake it) s = .next (settle (finishWith (started s c) .versionRefused s.fw.running.manifest.ifVersion.toNat
      (modSluice ((srcSluice (dispatchCmd c.serial s) c.src).getD mgmtIx) (fun sl => { sl with state := .held }) (dispatchCmd c.serial s))))) ∧
  (∀ (it : Item) (s : State) (c : Cmd) (ix : Nat) (sl : Sluice),
    (Waits 0x04 it s c) →
    (srcSluice (dispatchCmd c.serial s) c.src = some ix) →
    (findSluice s ix = some sl) →
    (tabFind sl.qps (field c.words 3 23 16) = none) →
    (ringOk (dispatchCmd c.serial s) ix sl (ringReq c.words) = true) →
    exec (.qpCreate it) s = .next (settle (finishWith (started s c) .ok 0 (modSluice ix
      (fun sl => { putRing (some (field c.words 3 23 16)) (ringReq c.words) sl with poolUsed := sl.poolUsed + poolNeed (ringReq c.words) })
      (dispatchCmd c.serial s))))) ∧
  (∀ (it : Item) (s : State) (c : Cmd) (ix : Nat) (sl : Sluice),
    (Waits 0x04 it s c) →
    (srcSluice (dispatchCmd c.serial s) c.src = some ix) →
    (findSluice s ix = some sl) →
    ((tabFind sl.qps (field c.words 3 23 16)).isSome = true) →
    exec (.qpCreate it) s = .next (settle (finishWith (started s c) .invalid 0 (dispatchCmd c.serial s)))) ∧
  (∀ (it : Item) (s : State) (c : Cmd) (ix : Nat),
    (Waits 0x06 it s c) →
    (srcSluice (dispatchCmd c.serial s) c.src = some ix) →
    ((getRing (dispatchCmd c.serial s) ix (some (field c.words 3 7 0))).isSome = true) →
    exec (.qpFlush it) s = .next (settle (
      let f := flushPair ix (field c.words 3 7 0) (flag c.words 3 31) c.host (dispatchCmd c.serial s)
      finishWith (started s c) .ok f.1 f.2))) ∧
  (∀ (it : Item) (s : State) (c : Cmd) (ix : Nat) (r : Machine.Ring),
    (Waits 0x05 it s c) →
    (srcSluice (dispatchCmd c.serial s) c.src = some ix) →
    (getRing (dispatchCmd c.serial s) ix (some (field c.words 3 7 0)) = some r) →
    (r.deleting = none) →
    exec (.qpDelete it) s = .next (settle (
      let f := flushPair ix (field c.words 3 7 0) (flag c.words 3 31) c.host (dispatchCmd c.serial s)
      deletePair { started s c with phase := 1, decided := true, value := f.1 }
        (modCmd c.serial (fun c => { c with phase := 1, decided := true, value := f.1 })
          (modRing ix (some (field c.words 3 7 0)) (fun r => { r with deleting := some c.serial }) f.2))))) ∧
  (∀ (c : Cmd) (s : State) (ix : Nat) (r : Machine.Ring),
    (srcSluice s c.src = some ix) →
    (getRing s ix (some (field c.words 3 7 0)) = some r) →
    ((s.q.cmds.any fun d => decide (d.src = pairSrc ix (field c.words 3 7 0))) = false) →
    deletePair c s = finishWith c .ok c.value { modSluice ix
        (fun sl => { sl with qps := tabErase sl.qps (field c.words 3 7 0), poolUsed := sl.poolUsed - poolNeed r }) s with
      q := { (modSluice ix (fun sl => { sl with qps := tabErase sl.qps (field c.words 3 7 0), poolUsed := sl.poolUsed - poolNeed r }) s).q with
        discarded := s.q.discarded + r.held.length } }) ∧
  (∀ (it : Item) (s : State) (c : Cmd),
    (Waits 0xE8 it s c) →
    exec (.recFreeze it) s = .next (settle (finishWith (started s c) .ok s.recorder.entries.length
      { dispatchCmd c.serial s with recorder := { s.recorder with frozen := true } }))) ∧
  (∀ (it : Item) (s : State) (c : Cmd),
    (Waits 0xEA it s c) →
    (s.recorder.frozen = true) →
    exec (.recThaw it) s = .next (settle (finishWith (started s c) .ok s.recorder.frozenSince
      { dispatchCmd c.serial s with recorder := { s.recorder with
          entries := [recordOf [b32 s.recorder.fullSince, b32 s.recorder.frozenSince] 0x05 false s.time]
          frozen := false, fullSince := 0, frozenSince := 0 } }))) ∧
  (∀ (it : Item) (s : State) (c : Cmd),
    (Waits 0xEA it s c) →
    (s.recorder.frozen = false) →
    exec (.recThaw it) s = .next (settle (finishWith (started s c) .invalid 0 (dispatchCmd c.serial s)))) ∧
  (∀ (it : Item) (s : State) (c : Cmd),
    (Waits 0xE9 it s c) →
    (1 ≤ wordAt c.words 5) →
    (wordAt c.words 5 ≤ 65536) →
    (wordAt c.words 4 + wordAt c.words 5 ≤ (if flag c.words 3 0 then 4096 else 65536)) →
    (word64 c.words 6 % 32 = 0) →
    (hpaCarried c.src (word64 c.words 6) = false) →
    exec (.recRead it) s = .next (settle (finishHpa (started s c) (word64 c.words 6)
      ((List.range (wordAt c.words 5)).flatMap fun i =>
        padTo 32 (eventBytes (recordAt (dispatchCmd c.serial s) (flag c.words 3 0) (wordAt c.words 4 + i))))
      { value := wordAt c.words 5 } (dispatchCmd c.serial s))))

/-- The polder commands of chapters 2, 16 and 18: R21 to R33, R328 to R335, R369, R370.
* an ABSENT polder whose slices are free, with a legal mode word and ranges that fit, is built, its flash pages PAGE granules; clusters with its cores wake, and its ranges are reported;
* a request that is well formed but whose mode word is refused answers INVALID with the axes refused;
* the named axes and the pool map take their new values, and the result is the mode word;
* a refused change answers INVALID with the mask, and changes no mode;
* a LIVE polder begins to drain, KEEP (action 0) or RELEASE (action 1), and the command waits for it;
* a DRAINED one with action 1 begins its scrub;
* with action 2 it is LIVE again, its clusters restarting first where REPRODUCIBLE came into force while it was drained;
* while it drains or is scrubbed the command is HELD. -/
def Obligations.PolderRows : Prop :=
  (∀ (it : Item) (s : State) (c : Cmd) (q : PolderReq) (p : Polder),
    (Waits 0x10 it s c) →
    (q = polderReq c.words) →
    ((polderOf s q.number).state = .absent) →
    (q.ranges % 64 = 0) →
    (q.ranges ≠ 0 ∨ hpaCarried c.src q.ranges = true) →
    (slicesFree s q = true) →
    ((q.pools ||| q.cores) = q.cores) →
    (q.ddr ≠ 0 ∨ q.nand ≠ 0 ∨ q.hbm ≠ 0 ∨ q.rows ≠ 0) →
    (q.rowCache ≤ popcount 53 q.rows) →
    (axisMask (reservedAxes q.modes ++ illegalAxes q.modes q.ddr q.hbm q.quarters) = 0) →
    (buildPolder s q = some p) →
    exec (.polderCreate it) s = .next (settle (finishHpa (started s c) q.ranges (rangeReport p) { value := quotaOf p }
      (wakePolder q.number { drawFree (drawFree (setPolder q.number p (dispatchCmd c.serial s))) with
        ftl := { s.ftl with bulk := s.ftl.bulk.filter fun g => !inRange p.flashRange (g * gib) } })))) ∧
  (∀ (it : Item) (s : State) (c : Cmd) (q : PolderReq),
    (Waits 0x10 it s c) →
    (q = polderReq c.words) →
    ((polderOf s q.number).state = .absent) →
    (q.ranges % 64 = 0) →
    (q.ranges ≠ 0 ∨ hpaCarried c.src q.ranges = true) →
    (slicesFree s q = true) →
    ((q.pools ||| q.cores) = q.cores) →
    (q.ddr ≠ 0 ∨ q.nand ≠ 0 ∨ q.hbm ≠ 0 ∨ q.rows ≠ 0) →
    (q.rowCache ≤ popcount 53 q.rows) →
    (axisMask (reservedAxes q.modes ++ illegalAxes q.modes q.ddr q.hbm q.quarters) ≠ 0) →
    exec (.polderCreate it) s = .next (settle (finishWith (started s c) .invalid
      (axisMask (reservedAxes q.modes ++ illegalAxes q.modes q.ddr q.hbm q.quarters)) (dispatchCmd c.serial s)))) ∧
  (∀ (it : Item) (s : State) (c : Cmd) (n : Nat) (p : Polder),
    (Waits 0x11 it s c) →
    (n = field c.words 3 5 0) →
    (p = polderOf s n) →
    (p.state ≠ .absent) →
    (field c.words 5 8 0 = 0 ∨ (p.state ≠ .draining ∧ p.state ≠ .scrubbing)) →
    (modeRefusal s n c.words = 0) →
    exec (.polderModeSet it) s = .next (settle (finishWith (started s c) .ok (modesAfter p c.words).toNat (setPolder n { p with
      modes := modesAfter p c.words
      poolB := if (field c.words 5 8 0).testBit 8 then BitVec.ofNat 128 (wideAt c.words 6 4) else p.poolB
      realign := p.realign || (!isReproducible p.modes && isReproducible (modesAfter p c.words)) } (dispatchCmd c.serial s))))) ∧
  (∀ (it : Item) (s : State) (c : Cmd),
    (Waits 0x11 it s c) →
    ((polderOf s (field c.words 3 5 0)).state = .live) →
    (modeRefusal s (field c.words 3 5 0) c.words ≠ 0) →
    exec (.polderModeSet it) s = .next (settle (finishWith (started s c) .invalid (modeRefusal s (field c.words 3 5 0) c.words) (dispatchCmd c.serial s)))) ∧
  (∀ (it : Item) (s : State) (c : Cmd),
    (Waits 0x12 it s c) →
    ((polderOf s (field c.words 3 5 0)).state = .live) →
    (field c.words 3 9 8 ≤ 1) →
    exec (.polderDrain it) s = .next (settle (modCmd c.serial (fun c => { c with phase := 1, decided := true })
      (beginDrain (field c.words 3 5 0) (if field c.words 3 9 8 = 0 then .keep else .release) (dispatchCmd c.serial s))))) ∧
  (∀ (it : Item) (s : State) (c : Cmd),
    (Waits 0x12 it s c) →
    ((polderOf s (field c.words 3 5 0)).state = .drained) →
    (field c.words 3 9 8 = 1) →
    exec (.polderDrain it) s = .next (settle (modCmd c.serial (fun c => { c with phase := 1, decided := true })
      (beginScrub (field c.words 3 5 0) (dispatchCmd c.serial s))))) ∧
  (∀ (it : Item) (s : State) (c : Cmd) (p : Polder),
    (Waits 0x12 it s c) →
    (p = polderOf s (field c.words 3 5 0)) →
    (p.state = .drained) →
    (field c.words 3 9 8 = 2) →
    ((p.realign && isReproducible p.modes) = false) →
    exec (.polderDrain it) s = .next (settle (finishWith (started s c) .ok 0
      (setPolder (field c.words 3 5 0) { p with state := .live, realign := false } (dispatchCmd c.serial s))))) ∧
  (∀ (it : Item) (s : State) (c : Cmd),
    (Waits 0x12 it s c) →
    ((polderOf s (field c.words 3 5 0)).state = .draining ∨ (polderOf s (field c.words 3 5 0)).state = .scrubbing) →
    exec (.polderDrain it) s = .next (settle (finishWith (started s c) .held 0 (dispatchCmd c.serial s))))

/-- The commands on hosts and tenants: R35 to R43, R180, R371, R372.
* an entry that obeys R35 (or one with VALID = 0) replaces the host's, and the command waits until every line it may no longer hold is taken back;
* the entry is written at the HPA;
* a FREE TCX becomes LIVE in an OPEN polder and BOUND in another, and the result is its epoch;
* a TCX that is neither FREE nor RESETTING in a polder that does not drain begins its reset, with a new epoch;
* one that meets the reset of a drain is joined to it;
* the rates of a TCX (of a host where HOST = 1) are set at the four entry dies, with full buckets. -/
def Obligations.TenantRows : Prop :=
  (∀ (it : Item) (s : State) (c : Cmd) (hid : Nat) (t : State),
    (Waits 0x14 it s c) →
    (hid = field c.words 3 7 0) →
    (field c.words 4 7 0 = hid) →
    (flag c.words 4 8 = true →
      hitOk s (BitVec.ofNat 64 (word64 c.words 6)) ((List.range 16).map fun i => hitRangeAt c.words 4 i) = true) →
    ((hitOf s hid).sweeping = false) →
    ((s.polders.all fun e => decide (e.2.state ≠ .draining ∧ e.2.state ≠ .scrubbing)) = true) →
    (t = setHit hid { hitOf s hid with
        valid := flag c.words 4 8, admin := flag c.words 4 10, dead := (hitOf s hid).dead && !flag c.words 4 8
        mask := BitVec.ofNat 64 (word64 c.words 6), ranges := (List.range 16).map fun i => hitRangeAt c.words 4 i } (dispatchCmd c.serial s)) →
    exec (.hitWrite it) s = .next (settle ((hitLines t hid).foldl
      (fun s l => requestLine l { op := .evictHost hid, asker := .command c.serial, tpa := l * 64 } s)
      (modCmd c.serial (fun d => { d with lines := hitLines t hid, outcome := some {}, decided := true, phase := 1 }) t)))) ∧
  (∀ (it : Item) (s : State) (c : Cmd),
    (Waits 0x15 it s c) →
    (word64 c.words 4 % 64 = 0) →
    exec (.hitRead it) s = .next (settle (finishHpa (started s c) (word64 c.words 4)
      (wordsToBytes (hitWords s (field c.words 3 7 0))) {} (dispatchCmd c.serial s)))) ∧
  (∀ (it : Item) (s : State) (c : Cmd) (ix : Nat),
    (Waits 0x18 it s c) →
    ((tcxOf s (hdrTcx c.words)).state = .free) →
    ((polderOf s (field c.words 3 5 0)).state = .live) →
    (srcSluice (dispatchCmd c.serial s) c.src = some ix) →
    exec (.tenantCreate it) s = .next (settle (finishWith (started s c) .ok (tcxOf s (hdrTcx c.words)).epoch.toNat
      { setTcx (hdrTcx c.words) { tcxOf s (hdrTcx c.words) with
          state := if isOpenMode (polderOf s (field c.words 3 5 0)).modes then .live else .bound
          polder := field c.words 3 5 0 } (dispatchCmd c.serial s) with
        q := { (dispatchCmd c.serial s).q with creator := tabInsert s.q.creator (hdrTcx c.words) ix } }))) ∧
  (∀ (it : Item) (s : State) (c : Cmd),
    (Waits 0x19 it s c) →
    ((tcxOf s c.tcx).state ≠ .free) →
    ((tcxOf s c.tcx).state ≠ .resetting) →
    ((polderOf s (tcxOf s c.tcx).polder).state ≠ .draining) →
    exec (.tenantReset it) s = .next (settle (modCmd c.serial (fun d => { d with phase := 1, decided := true })
      (beginReset c.tcx (flag c.words 3 0) (dispatchCmd c.serial s))))) ∧
  (∀ (it : Item) (s : State) (c : Cmd),
    (Waits 0x19 it s c) →
    ((tcxOf s c.tcx).state = .resetting) →
    ((polderOf s (tcxOf s c.tcx).polder).state = .draining) →
    exec (.tenantReset it) s = .next (settle (modCmd c.serial (fun d => { d with phase := 1, decided := true })
      (modTcx c.tcx (fun x => { x with release := x.release || flag c.words 3 0 }) (dispatchCmd c.serial s))))) ∧
  (∀ (it : Item) (s : State) (c : Cmd) (n : Nat) (p : Policer),
    (Waits 0x1C it s c) →
    (flag c.words 3 12 = true ∨ (tcxHeld s c.tcx = false ∧ field c.words 3 7 0 = 0)) →
    (flag c.words 3 31 = true) →
    (1 ≤ wordAt c.words 4 ∧ wordAt c.words 4 ≤ wordAt c.words 5 ∧ wordAt c.words 5 ≤ 819200) →
    (1 ≤ wordAt c.words 6 ∧ wordAt c.words 6 ≤ wordAt c.words 7 ∧ wordAt c.words 7 ≤ 65536) →
    (n = if flag c.words 3 12 then 4096 + field c.words 3 7 0 else c.tcx) →
    (p = { enable := true, cir := wordAt c.words 4, pir := wordAt c.words 5, cbs := wordAt c.words 6 * 1024, pbs := wordAt c.words 7 * 1024, tc := wordAt c.words 6 * 1024000, tp := wordAt c.words 7 * 1024000, last := s.time }) →
    exec (.policerSet it) s = .next (settle (finishWith (started s c) .ok 0 { dispatchCmd c.serial s with
      weir := { s.weir with
        policers := tabPut (tabPut (tabPut (tabPut s.weir.policers {} (4 * n) p) {} (4 * n + 1) p) {} (4 * n + 2) p) {} (4 * n + 3) p } })))

/-- The segment commands (R48 to R54, R152) and DIGEST_SETUP (R316).
* an entry allowed for the TCX, with the right GEN or FORCE, and no granule of another key or STALE, is installed;
* a GEN that is not the entry's, without FORCE, answers GEN_STALE with the entry's GEN;
* with every CHECK equal to its segment's, a FROZEN TCX is LIVE again;
* otherwise it is FROZEN, EVENT 0x07 names the segments, and the command answers MIRROR_DIVERGED with their mask;
* a ring that the TCX may write is enabled from record 0;
* ENABLE = 0 disables it. -/
def Obligations.SegmentRows : Prop :=
  (∀ (it : Item) (s : State) (c : Cmd) (seg : Nat) (new : Segment) (g : List Nat) (t : State),
    (Waits 0x20 it s c) →
    (seg = field c.words 3 3 0) →
    (new = segFromWords c.words 4 ((segOf s c.tcx seg).gen + 1)) →
    (g = if new.valid && !isOpenMode (polderOf s (tcxOf s c.tcx).polder).modes && decide (regionOf (segStart new) ≠ .host) then granulesIn (segStart new) (segBytes new) else []) →
    (tcxHeld s c.tcx = false) →
    ((tcxOf s c.tcx).state ≠ .free) →
    ((tcxOf s c.tcx).state = .bound → new.valid = false) →
    (new.valid = true → segOk s c.tcx seg new = true) →
    (flag c.words 3 4 = true ∨ field c.words 3 31 16 = (segOf s c.tcx seg).gen.toNat) →
    (∀ a ∈ g, bindingOf s a = .unbound ∨ bindingOf s a = .bound c.tcx new.keySlot.toNat) →
    (t = dropSegCopies c.tcx seg (setSeg c.tcx seg new (bindGranules c.tcx new.keySlot.toNat g (dispatchCmd c.serial s)))) →
    exec (.segWrite it) s = .next (settle (
      if segWidens (segOf s c.tcx seg) new || decide (oldTiles t c.tcx seg = []) then finishWith (started s c) .ok new.gen.toNat t
      else modCmd c.serial (fun d => { d with phase := 1, decided := true, value := new.gen.toNat }) t))) ∧
  (∀ (it : Item) (s : State) (c : Cmd) (seg : Nat),
    (Waits 0x20 it s c) →
    (seg = field c.words 3 3 0) →
    (tcxHeld s c.tcx = false) →
    ((tcxOf s c.tcx).state ≠ .free) →
    ((tcxOf s c.tcx).state = .bound → flag c.words 4 31 = false) →
    (flag c.words 4 31 = true → segOk s c.tcx seg (segFromWords c.words 4 ((segOf s c.tcx seg).gen + 1)) = true) →
    (flag c.words 3 4 = false) →
    (field c.words 3 31 16 ≠ (segOf s c.tcx seg).gen.toNat) →
    exec (.segWrite it) s = .next (settle (finishWith (started s c) .genStale (segOf s c.tcx seg).gen.toNat (dispatchCmd c.serial s)))) ∧
  (∀ (it : Item) (s : State) (c : Cmd),
    (Waits 0x21 it s c) →
    (tcxHeld s c.tcx = false) →
    ((tcxOf s c.tcx).state = .live ∨ (tcxOf s c.tcx).state = .frozen) →
    (∀ n < 16, segCheck (segOf s c.tcx n) = wordAt c.words (4 + n)) →
    exec (.segSync it) s = .next (settle (finishWith (started s c) .ok 0
      (modTcx c.tcx (fun x => { x with state := .live }) (dispatchCmd c.serial s))))) ∧
  (∀ (it : Item) (s : State) (c : Cmd) (diff : Nat),
    (Waits 0x21 it s c) →
    (tcxHeld s c.tcx = false) →
    ((tcxOf s c.tcx).state = .live ∨ (tcxOf s c.tcx).state = .frozen) →
    (diff = (((List.range 16).filter fun n => segCheck (segOf s c.tcx n) ≠ wordAt c.words (4 + n)).map fun n => 2 ^ n).sum) →
    (∃ n < 16, segCheck (segOf s c.tcx n) ≠ wordAt c.words (4 + n)) →
    exec (.segSync it) s = .next (settle (finishWith (started s c) .mirrorDiverged diff
      (writeEvent 0x07 0 c.tcx (tcxOf s c.tcx).polder 0 diff (modTcx c.tcx (fun x => { x with state := .frozen }) (dispatchCmd c.serial s)))))) ∧
  (∀ (it : Item) (s : State) (c : Cmd) (r : Run),
    (Waits 0xAC it s c) →
    (flag c.words 3 31 = true) →
    (word64 c.words 4 % 4096 = 0) →
    (16 ≤ wordAt c.words 6 ∧ wordAt c.words 6 ≤ 65536) →
    (popcount 17 (wordAt c.words 6) = 1) →
    (r = checkWhole (word64 c.words 4) (160 * wordAt c.words 6) .write 0x3 (fun _ => false) (runOf (started s c) (dispatchCmd c.serial s))) →
    (r.stopped = false) →
    exec (.digestSetup it) s = .next (settle (finishWith (started s c) .ok 0 (modTcx c.tcx (fun x => { x with
      digest := { enable := true, cnt := field c.words 3 3 0, base := word64 c.words 4, entries := wordAt c.words 6, seq := 0 } }) r.s)))) ∧
  (∀ (it : Item) (s : State) (c : Cmd),
    (Waits 0xAC it s c) →
    (flag c.words 3 31 = false) →
    exec (.digestSetup it) s = .next (settle (finishWith (started s c) .ok 0 (modTcx c.tcx (fun x => { x with digest := {} }) (dispatchCmd c.serial s)))))

/-- `KEY_LOAD` (R154 to R157).
* a free slot of an encrypted polder's TCX takes a key that the device draws, which is the model's free value;
* a wrapped key is unwrapped under the transport key of the SPDM session it names;
* a blob that this device made in the same debug lock state brings its key back;
* a slot that no valid segment names is erased;
* a TCX that is being reset, or whose polder drains or is scrubbed, answers HELD. -/
def Obligations.KeyRows : Prop :=
  (∀ (it : Item) (s : State) (c : Cmd) (slot : Nat) (id : BitVec 64) (o : Bool),
    (Waits 0x28 it s c) →
    (field c.words 3 7 4 = 0) →
    (slot = field c.words 3 1 0) →
    (id = Config.drawnKeyId s.free) →
    (o = decide (s.dbg.lock = .open_)) →
    (tcxHeld s c.tcx = false) →
    ((tcxOf s c.tcx).state ≠ .free) →
    (isOpenMode (polderOf s (tcxOf s c.tcx).polder).modes = false) →
    (keyFields c.words = true) →
    (tabFind (tcxOf s c.tcx).keys slot = none) →
    exec (.keyLoad it) s = .next (settle (finishHpa (started s c) (word64 c.words 18)
      (keyBlob o s.free id ++ toBytes 8 id.toNat ++ toBytes 8 0) { value := id.toNat % 2 ^ 32 }
      { drawFree (installKey (started s c) slot s.free id (dispatchCmd c.serial s)) with
        key := { s.key with made := s.key.made ++ [(o, s.free, id)] } }))) ∧
  (∀ (it : Item) (s : State) (c : Cmd) (slot : Nat),
    (Waits 0x28 it s c) →
    (field c.words 3 7 4 = 1) →
    (slot = field c.words 3 1 0) →
    (tcxHeld s c.tcx = false) →
    ((tcxOf s c.tcx).state ≠ .free) →
    (isOpenMode (polderOf s (tcxOf s c.tcx).polder).modes = false) →
    (keyFields c.words = true) →
    (tabFind (tcxOf s c.tcx).keys slot = none) →
    exec (.keyLoad it) s = .next (settle (
      match (sessionOf (dispatchCmd c.serial s) c.src (wordAt c.words 4)).bind fun x => Config.transportKey x.secret ((keyData c.words).take 40) with
      | none => finishWith (started s c) .keyRefused 0 (dispatchCmd c.serial s)
      | some key => finishWith (started s c) .ok ((Config.drawnKeyId s.free).toNat % 2 ^ 32)
          (drawFree (installKey (started s c) slot key (Config.drawnKeyId s.free) (dispatchCmd c.serial s)))))) ∧
  (∀ (it : Item) (s : State) (c : Cmd) (slot : Nat) (o : Bool),
    (Waits 0x28 it s c) →
    (field c.words 3 7 4 = 2) →
    (slot = field c.words 3 1 0) →
    (o = decide (s.dbg.lock = .open_)) →
    (tcxHeld s c.tcx = false) →
    ((tcxOf s c.tcx).state ≠ .free) →
    (isOpenMode (polderOf s (tcxOf s c.tcx).polder).modes = false) →
    (keyFields c.words = true) →
    (tabFind (tcxOf s c.tcx).keys slot = none) →
    exec (.keyLoad it) s = .next (settle (
      match s.key.made.find? fun m => m.1 = o && keyBlob m.1 m.2.1 m.2.2 = keyData c.words with
      | none => finishWith (started s c) .keyRefused 0 (dispatchCmd c.serial s)
      | some m => finishWith (started s c) .ok (m.2.2.toNat % 2 ^ 32) (installKey (started s c) slot m.2.1 m.2.2 (dispatchCmd c.serial s))))) ∧
  (∀ (it : Item) (s : State) (c : Cmd) (slot : Nat),
    (Waits 0x28 it s c) →
    (field c.words 3 7 4 = 3) →
    (slot = field c.words 3 1 0) →
    (tcxHeld s c.tcx = false) →
    ((tcxOf s c.tcx).state ≠ .free) →
    (isOpenMode (polderOf s (tcxOf s c.tcx).polder).modes = false) →
    (keyFields c.words = true) →
    ((tabFind (tcxOf s c.tcx).keys slot).isSome = true) →
    (keySlotUsed s c.tcx slot = false) →
    exec (.keyLoad it) s = .next (settle (finishWith (started s c) .ok 0 (destroyKey c.tcx slot (dispatchCmd c.serial s))))) ∧
  (∀ (it : Item) (s : State) (c : Cmd),
    (Waits 0x28 it s c) →
    (tcxHeld s c.tcx = true) →
    exec (.keyLoad it) s = .next (settle (finishWith (started s c) .held 0 (dispatchCmd c.serial s))))

/-- `FW_STAGE`, `FW_ACTIVATE` (R391 to R394) and the calibration commands (R373, R470).
* a bundle that the host returned, that verifies and is consistent, is the candidate, and the inactive copy is erased for it;
* a bundle that does not verify, is not consistent, or that the host did not return, answers IMAGE_REFUSED;
* a staged bundle whose handoff range takes the running format, with good digests and sections, runs, and with it its measurements and interface version;
* a digest or handoff section that fails rolls it back, the copy marked invalid;
* where a core does not resume, the activation holds intake until it ends;
* with nothing staged it answers INVALID;
* the 8,192 bytes of the set in use are written at the HPA (the first 4,096 where the tunnel or mailbox carries them);
* a set that the host returned and that passes its check is taken, and the NOR area erased for it;
* any other answers INVALID and leaves the set as it is. -/
def Obligations.FirmwareRows : Prop :=
  (∀ (it : Item) (bundle : BundleRead) (s : State) (c : Cmd),
    (Waits 0xE0 it s c) →
    (65536 ≤ wordAt c.words 6 ∧ wordAt c.words 6 ≤ 25165824) →
    (word64 c.words 4 % 4096 = 0) →
    ((s.q.cmds.any fun d => decide (d.opcode = 0xE0 ∧ d.serial ≠ c.serial ∧ 1 ≤ d.phase)) = false) →
    (s.fw.activating = none) →
    ((hpaBytes (dispatchCmd c.serial s) c).isSome = true) →
    (bundle.signed = true) →
    (bundle.consistent = true) →
    (s.ident.minSvn.toNat ≤ bundle.svn.toNat) →
    (norTaken (dispatchCmd c.serial s) c = false) →
    exec (.fwStage it bundle) s = .next (settle (stageProgram (started s c) { dispatchCmd c.serial s with
      fw := { s.fw with candidate := some (readBundle s bundle) } }))) ∧
  (∀ (it : Item) (bundle : BundleRead) (s : State) (c : Cmd),
    (Waits 0xE0 it s c) →
    (65536 ≤ wordAt c.words 6 ∧ wordAt c.words 6 ≤ 25165824) →
    (word64 c.words 4 % 4096 = 0) →
    ((s.q.cmds.any fun d => decide (d.opcode = 0xE0 ∧ d.serial ≠ c.serial ∧ 1 ≤ d.phase)) = false) →
    (s.fw.activating = none) →
    (hpaBytes (dispatchCmd c.serial s) c = none ∨ bundle.signed = false ∨ bundle.svn.toNat < s.ident.minSvn.toNat ∨ bundle.consistent = false) →
    exec (.fwStage it bundle) s = .next (settle (finishWith (started s c) .imageRefused 0 (dispatchCmd c.serial s)))) ∧
  (∀ (it : Item) (s : State) (c : Cmd) (b : BundleCopy),
    (Waits 0xE1 it s c) →
    (s.fw.staging = some b) →
    (s.fw.staged = true) →
    (b.manifest.handoffMin ≤ s.fw.running.manifest.handoff ∧ s.fw.running.manifest.handoff ≤ b.manifest.handoffMax) →
    exec (.fwActivate it true true true) s = .next (settle (activated (started s c) b (dispatchCmd c.serial s)))) ∧
  (∀ (it : Item) (digestsOk sectionsOk resumed : Bool) (s : State) (c : Cmd) (b : BundleCopy),
    (Waits 0xE1 it s c) →
    (s.fw.staging = some b) →
    (s.fw.staged = true) →
    (b.manifest.handoffMin ≤ s.fw.running.manifest.handoff ∧ s.fw.running.manifest.handoff ≤ b.manifest.handoffMax) →
    ((digestsOk && sectionsOk) = false) →
    exec (.fwActivate it digestsOk sectionsOk resumed) s = .next (settle (rollBack c.serial .rolledBack (dispatchCmd c.serial s)))) ∧
  (∀ (it : Item) (s : State) (c : Cmd) (b : BundleCopy),
    (Waits 0xE1 it s c) →
    (s.fw.staging = some b) →
    (s.fw.staged = true) →
    (b.manifest.handoffMin ≤ s.fw.running.manifest.handoff ∧ s.fw.running.manifest.handoff ≤ b.manifest.handoffMax) →
    exec (.fwActivate it true true false) s = .next (settle (modCmd c.serial (fun d => { d with phase := 1, decided := true })
      { dispatchCmd c.serial s with fw := { s.fw with activating := some c.serial }, q := { (dispatchCmd c.serial s).q with intakeHeld := true } }))) ∧
  (∀ (it : Item) (digestsOk sectionsOk resumed : Bool) (s : State) (c : Cmd),
    (Waits 0xE1 it s c) →
    (s.fw.staging = none) →
    exec (.fwActivate it digestsOk sectionsOk resumed) s = .next (settle (finishWith (started s c) .invalid 0 (dispatchCmd c.serial s)))) ∧
  (∀ (it : Item) (s : State) (c : Cmd),
    (Waits 0x30 it s c) →
    (8192 ≤ wordAt c.words 6 ∧ wordAt c.words 6 ≤ 65536) →
    (word64 c.words 4 % 4096 = 0) →
    (norTaken (dispatchCmd c.serial s) c = false) →
    exec (.calExport it) s = .next (settle (finishHpa (started s c) (word64 c.words 4)
      (if hpaCarried c.src (word64 c.words 4) then (shadowBytes s).take 4096 else shadowBytes s) { value := 8192 }
      (modCmd c.serial (fun d => { d with phase := 2 }) (dispatchCmd c.serial s))))) ∧
  (∀ (it : Item) (s : State) (c : Cmd) (l : List Byte),
    (Waits 0x31 it s c) →
    (4096 ≤ wordAt c.words 6 ∧ wordAt c.words 6 ≤ 65536) →
    (word64 c.words 4 % 4096 = 0) →
    (norTaken (dispatchCmd c.serial s) c = false) →
    (hpaBytes (dispatchCmd c.serial s) c = some l) →
    (calOk s.ident.serial l = true) →
    exec (.calImport it) s = .next (settle (norWipe calBase 65536
      (modCmd c.serial (fun d => { d with phase := 2, decided := true }) (dispatchCmd c.serial s))))) ∧
  (∀ (it : Item) (s : State) (c : Cmd) (l : List Byte),
    (Waits 0x31 it s c) →
    (4096 ≤ wordAt c.words 6 ∧ wordAt c.words 6 ≤ 65536) →
    (word64 c.words 4 % 4096 = 0) →
    (norTaken (dispatchCmd c.serial s) c = false) →
    (hpaBytes (dispatchCmd c.serial s) c = some l) →
    (calOk s.ident.serial l = false) →
    exec (.calImport it) s = .next (settle (finishWith (started s c) .invalid 0 (dispatchCmd c.serial s))))

/-- The data commands of chapters 4 and 10 and the admin commands on other commands: R78, R191, R192, R196, R355, R356, R374.
* a copy with a legal request starts, with its push slot bound;
* a push slot that is bound answers HELD;
* SET writes the arrival counter;
* a WAIT for a value that the counter has reached completes, writing NOTIFY where it is asked for;
* an earlier one waits, with room for 64 of its TCX and 4,096 in all;
* a command of the named queue with the CID, not past its decision and abortable, completes ABORTED;
* one that is past its decision or gone answers ALREADY_DONE;
* a fence with nothing before it completes; any other waits for what it covers;
* a compare-and-swap, swap, minimum or maximum at a mapped DVA is asked of the home of its line;
* a fetch-and-add enters a combining group of its home die;
* at a DVA that no segment maps it is a MAP_FAULT of its bytes. -/
def Obligations.CopyCommands : Prop :=
  (∀ (it : Item) (s : State) (c : Cmd) (q : CopyReq) (d : State) (ix : Nat),
    (Waits 0x40 it s c) →
    (q = copyReq c) →
    (d = dispatchCmd c.serial s) →
    (srcSluice d c.src = some ix) →
    (q.cntMode ≠ 3 ∧ (q.push = true → q.src = 0) ∧ (q.push = false → q.slot = 0)) →
    (if flag c.words 3 12 then (tcxOf s q.dstTcx).state = .live ∧ polderBit (hitOf s (srcHid d c.src)) (tcxOf s q.dstTcx).polder = true ∧ adminOf d c.src (tcxOf s q.dstTcx).polder = true else field c.words 3 11 0 = 0) →
    (1 ≤ q.length ∧ q.length ≤ 2 ^ 40 ∧ q.src + q.length ≤ 2 ^ 52 ∧ q.dst + q.length ≤ 2 ^ 52) →
    (q.push = false → rangesOverlap (mappedRanges d c.tcx q.src q.length) (mappedRanges d q.dstTcx q.dst q.length) = false) →
    (q.push = true → slotTaken d ix q.slot = false) →
    (((copiesRunning d).filter fun x => x.tcx = c.tcx).length < 32) →
    (((copiesRunning d).filter fun x => copyDie d x = copyDie d c).length < 256) →
    exec (.copyAsync it) s = .next (settle (modCmd c.serial (fun x => { x with phase := 1 })
      (if q.push then bindSlot (started s c) q.slot q.length d else d)))) ∧
  (∀ (it : Item) (s : State) (c : Cmd) (q : CopyReq) (d : State) (ix : Nat),
    (Waits 0x40 it s c) →
    (q = copyReq c) →
    (d = dispatchCmd c.serial s) →
    (srcSluice d c.src = some ix) →
    (q.cntMode ≠ 3 ∧ q.push = true ∧ q.src = 0) →
    (flag c.words 3 12 = false) →
    (field c.words 3 11 0 = 0) →
    (1 ≤ q.length ∧ q.length ≤ 2 ^ 40 ∧ q.src + q.length ≤ 2 ^ 52 ∧ q.dst + q.length ≤ 2 ^ 52) →
    (slotTaken d ix q.slot = true) →
    exec (.copyAsync it) s = .next (settle (finishWith (started s c) .held 0 d))) ∧
  (∀ (it : Item) (s : State) (c : Cmd),
    (Waits 0x42 it s c) →
    (field c.words 3 31 28 = 1) →
    (field c.words 6 23 0 = 0) →
    (flag c.words 8 31 = true → word64 c.words 7 % 8 = 0) →
    exec (.counterWait it) s = .next (settle (finishWith (started s c) .ok (word64 c.words 4)
      (modTcx c.tcx (fun t => { t with arrival := tabPut t.arrival 0 (field c.words 3 3 0) (word64 c.words 4) }) (dispatchCmd c.serial s))))) ∧
  (∀ (it : Item) (s : State) (c : Cmd),
    (Waits 0x42 it s c) →
    (field c.words 3 31 28 = 0) →
    (field c.words 6 23 0 ≤ 10000000) →
    (flag c.words 8 31 = true → word64 c.words 7 % 8 = 0) →
    (word64 c.words 4 ≤ counterOf s c.tcx (field c.words 3 3 0)) →
    exec (.counterWait it) s = .next (settle (waitSatisfied (started s c) (counterOf s c.tcx (field c.words 3 3 0)) (dispatchCmd c.serial s)))) ∧
  (∀ (it : Item) (s : State) (c : Cmd),
    (Waits 0x42 it s c) →
    (field c.words 3 31 28 = 0) →
    (field c.words 6 23 0 ≤ 10000000) →
    (flag c.words 8 31 = true → word64 c.words 7 % 8 = 0) →
    (counterOf s c.tcx (field c.words 3 3 0) < word64 c.words 4) →
    (((waitsPending (dispatchCmd c.serial s)).filter fun d => d.tcx = c.tcx).length < 64) →
    ((waitsPending (dispatchCmd c.serial s)).length < 4096) →
    exec (.counterWait it) s = .next (settle (modCmd c.serial (fun d => { d with phase := 1 }) (dispatchCmd c.serial s)))) ∧
  (∀ (it : Item) (s : State) (c d : Cmd) (ix : Nat) (src : Src) (t : State),
    (Waits 0x43 it s c) →
    (flag c.words 3 31 = true → field c.words 3 23 16 = 0) →
    (srcSluice (dispatchCmd c.serial s) c.src = some ix) →
    (src = if flag c.words 3 31 then .admin (Fin.ofNat 17 (ix / 16)) (Fin.ofNat 16 (ix % 16)) else pairSrc ix (field c.words 3 23 16)) →
    (t = fetchToTail src ix (if flag c.words 3 31 then none else some (field c.words 3 23 16)) c.host (dispatchCmd c.serial s)) →
    ((t.q.cmds.find? fun x => decide (x.src = src ∧ x.cid = field c.words 3 15 0)) = some d) →
    (unabortable d = false) →
    (pastDecision d = false) →
    exec (.abort it) s = .next (settle (finishWith (started s c) .ok 0 (abortOne d t)))) ∧
  (∀ (it : Item) (s : State) (c : Cmd) (ix : Nat) (src : Src) (t : State),
    (Waits 0x43 it s c) →
    (flag c.words 3 31 = true → field c.words 3 23 16 = 0) →
    (srcSluice (dispatchCmd c.serial s) c.src = some ix) →
    (src = if flag c.words 3 31 then .admin (Fin.ofNat 17 (ix / 16)) (Fin.ofNat 16 (ix % 16)) else pairSrc ix (field c.words 3 23 16)) →
    (t = fetchToTail src ix (if flag c.words 3 31 then none else some (field c.words 3 23 16)) c.host (dispatchCmd c.serial s)) →
    (∀ x, (t.q.cmds.find? fun x => decide (x.src = src ∧ x.cid = field c.words 3 15 0)) = some x →
      unabortable x = false ∧ pastDecision x = true) →
    exec (.abort it) s = .next (settle (finishWith (started s c) .alreadyDone 0 t))) ∧
  (∀ (it : Item) (s : State) (c : Cmd),
    (Waits 0x41 it s c) →
    exec (.fence it) s = .next (settle (
      if fenceCovers (dispatchCmd c.serial s) (started s c) = [] then finishWith (started s c) .ok 0 (dispatchCmd c.serial s)
      else modCmd c.serial (fun d => { d with phase := 1, after := fenceCovers (dispatchCmd c.serial s) (started s c) }) (dispatchCmd c.serial s)))) ∧
  (∀ (it : Item) (s : State) (c : Cmd) (b : Nat) (n tpa : Nat),
    (Waits 0x44 it s c) →
    (b = if field c.words 3 1 0 = 2 then 4 else 8) →
    (2 ≤ field c.words 3 1 0) →
    (1 ≤ field c.words 3 7 4 ∧ field c.words 3 7 4 ≤ 4) →
    (word64 c.words 4 % b = 0) →
    (word64 c.words 6 < 2 ^ (8 * b) ∧ word64 c.words 8 < 2 ^ (8 * b)) →
    (field c.words 3 7 4 ≠ 2 → word64 c.words 8 = 0) →
    (checkByte s c.tcx (word64 c.words 4) .atomic = .at n tpa) →
    (writesLocked s tpa = false) →
    exec (.atomic it) s = .next (settle (requestLine (lineOf tpa)
      { op := .atomic (field c.words 3 7 4) b (word64 c.words 6) (word64 c.words 8), asker := .command c.serial, tpa := tpa }
      (modCmd c.serial (fun d => { d with decided := true, phase := 1, lines := [lineOf tpa] }) (dispatchCmd c.serial s))))) ∧
  (∀ (it : Item) (s : State) (c : Cmd) (b : Nat) (n tpa : Nat),
    (Waits 0x44 it s c) →
    (b = if field c.words 3 1 0 = 2 then 4 else 8) →
    (2 ≤ field c.words 3 1 0) →
    (field c.words 3 7 4 = 0) →
    (word64 c.words 4 % b = 0) →
    (word64 c.words 6 < 2 ^ (8 * b)) →
    (word64 c.words 8 = 0) →
    (checkByte s c.tcx (word64 c.words 4) .atomic = .at n tpa) →
    (writesLocked s tpa = false) →
    exec (.atomic it) s = .next (settle (stageFetchAdd (.command c.serial) tpa b c.tcx (1 + 4 * b) (word64 c.words 6)
      (modCmd c.serial (fun d => { d with decided := true, phase := 1, lines := [lineOf tpa] }) (dispatchCmd c.serial s))))) ∧
  (∀ (it : Item) (s : State) (c : Cmd) (b : Nat),
    (Waits 0x44 it s c) →
    (b = if field c.words 3 1 0 = 2 then 4 else 8) →
    (2 ≤ field c.words 3 1 0) →
    (field c.words 3 7 4 ≤ 4) →
    (word64 c.words 4 % b = 0) →
    (word64 c.words 6 < 2 ^ (8 * b) ∧ word64 c.words 8 < 2 ^ (8 * b)) →
    (field c.words 3 7 4 ≠ 2 → word64 c.words 8 = 0) →
    (checkByte s c.tcx (word64 c.words 4) .atomic = .unmapped) →
    exec (.atomic it) s = .next (settle (concludeRun
      (faultTile 0x3 0xF (word64 c.words 4) b .mapFault true (runOf (started s c) (dispatchCmd c.serial s))) {} (dispatchCmd c.serial s))))

/-- The statistics commands: R108, R148, R184, R208, R234.
* the twelve counters of R148, the state of the polder and a zero;
* the eight counters of R208;
* the seventeen counters of R108;
* the thirteen counters of R234;
* a block written whole is cleared where CLEAR is set, and only then;
* the twelve values of R184 are written, and a PERIOD starts snapshots of them;
* STOP ends them. -/
def Obligations.StatisticsRows : Prop :=
  (∀ (it : Item) (s : State) (c : Cmd),
    (Waits 0x45 it s c) →
    exec (.resilStats it) s = .next (settle (statsRun (started s c)
      (counterBytes (polderOf s c.polder).resilCnt 12 ++ toBytes 8 (resilState (polderOf s c.polder)) ++ toBytes 8 0)
      (fun p => { p with resilCnt := [] }) (dispatchCmd c.serial s)))) ∧
  (∀ (it : Item) (s : State) (c : Cmd),
    (Waits 0x47 it s c) →
    (dvaClear c.words 4 = true) →
    exec (.copyStats it) s = .next (settle (statsRun (started s c)
      (counterBytes (polderOf s c.polder).copyCnt 8) (fun p => { p with copyCnt := [] }) (dispatchCmd c.serial s)))) ∧
  (∀ (it : Item) (s : State) (c : Cmd),
    (Waits 0x4C it s c) →
    exec (.tierStats it) s = .next (settle (statsRun (started s c)
      (counterBytes (polderOf s c.polder).tierCnt 17) (fun p => { p with tierCnt := [] }) (dispatchCmd c.serial s)))) ∧
  (∀ (it : Item) (s : State) (c : Cmd),
    (Waits 0x52 it s c) →
    exec (.lookupStats it) s = .next (settle (statsRun (started s c)
      (counterBytes (polderOf s c.polder).lookupCnt 13) (fun p => { p with lookupCnt := [] }) (dispatchCmd c.serial s)))) ∧
  (∀ (c : Cmd) (block : List Byte) (clear : Polder → Polder) (s : State) (r : Run),
    (r = writeRange (word64 c.words 4) (cleanBytes block)
      (checkWhole (word64 c.words 4) block.length .write 0x3 (fun _ => false) (runOf c s))) →
    statsRun c block clear s = concludeRun
      (if flag c.words 3 0 = true ∧ r.stopped = false then { r with s := modPolder c.polder clear r.s } else r) {} s) ∧
  (∀ (it : Item) (s : State) (c : Cmd) (r : Run),
    (Waits 0x46 it s c) →
    (dvaClear c.words 4 = true) →
    (flag c.words 3 1 = false) →
    (r = writeRange (word64 c.words 4) (cleanBytes (weirBlock s c.tcx))
      (checkWhole (word64 c.words 4) 96 .write 0x3 (fun _ => false) (runOf (started s c) (dispatchCmd c.serial s)))) →
    (r.stopped = false) →
    exec (.weirStats it) s = .next (settle (concludeRun { r with s :=
      { clearWeir c.tcx (flag c.words 3 0) (decide (field c.words 3 31 16 ≠ 0)) r.s with
        weir := { (clearWeir c.tcx (flag c.words 3 0) (decide (field c.words 3 31 16 ≠ 0)) r.s).weir with
          streams := if field c.words 3 31 16 = 0 then (clearWeir c.tcx (flag c.words 3 0) (decide (field c.words 3 31 16 ≠ 0)) r.s).weir.streams
            else tabInsert (clearWeir c.tcx (flag c.words 3 0) (decide (field c.words 3 31 16 ≠ 0)) r.s).weir.streams c.tcx
              { period := field c.words 3 31 16, clear := flag c.words 3 0, dva := BitVec.ofNat 52 (word64 c.words 4) } } } }
      {} (dispatchCmd c.serial s)))) ∧
  (∀ (it : Item) (s : State) (c : Cmd),
    (Waits 0x46 it s c) →
    (dvaClear c.words 4 = true) →
    (flag c.words 3 1 = true) →
    (field c.words 3 31 16 = 0) →
    exec (.weirStats it) s = .next (settle (finishWith (started s c) .ok 0
      { dispatchCmd c.serial s with weir := { s.weir with streams := tabErase s.weir.streams c.tcx } })))

/-- The table commands of chapter 11: R210 to R218, R228 to R231.
* a number that has no table, with legal parameters, gets one whose version 1 is the request's;
* a table is marked, its open version discarded, and the command waits for its pins;
* a full version of the same shape is opened under the next number;
* a delta version over the current base takes its overlay's work-pool space;
* the rows read from SRC are staged in the open delta under the indices read from INDICES;
* the open versions of the named tables become current, the old ones retiring;
* DISCARD takes them away. -/
def Obligations.TableCommands : Prop :=
  (∀ (it : Item) (s : State) (c : Cmd) (fmt width stride : Nat) (v : Version),
    (Waits 0x50 it s c) →
    (field c.words 3 31 28 = 0) →
    (fmt = field c.words 3 15 12) →
    (width = field c.words 4 10 0) →
    (stride = field c.words 4 31 22) →
    (v = versionBlock c.words 1) →
    (tabFind s.tbl.tables (tableKey c.tcx (field c.words 3 21 16)) = none) →
    (s.tbl.tables.length < 8192) →
    (fmt ≤ 5 ∧ 4 ≤ width ∧ width ≤ 1024 ∧ 1 ≤ stride ∧ stride ≤ 512 ∧ rowBytes fmt width ≤ stride * 8) →
    (rowsFit v stride = true) →
    (versionOk s c.tcx fmt width v = true) →
    exec (.tableDefine it) s = .next (settle (finishWith (started s c) .ok 1 (putTable (tableKey c.tcx (field c.words 3 21 16))
      { fmt := fmt, width := width, stride := stride, bias := field c.words 4 21 18, current := v } (dispatchCmd c.serial s))))) ∧
  (∀ (it : Item) (s : State) (c : Cmd) (key : Nat) (t : Table),
    (Waits 0x50 it s c) →
    (key = tableKey c.tcx (field c.words 3 21 16)) →
    (field c.words 3 31 28 = 1) →
    (field c.words 3 15 12 = 0) →
    (((c.words.drop 4).all fun w => decide (w = 0)) = true) →
    (tabFind s.tbl.tables key = some t) →
    (t.destroying = none) →
    exec (.tableDefine it) s = .next (settle (modCmd c.serial (fun d => { d with phase := 1, decided := true })
      (match tabFind (discardOpen key (dispatchCmd c.serial s)).tbl.tables key with
        | some t => putTable key { t with destroying := some c.serial } (discardOpen key (dispatchCmd c.serial s))
        | none => discardOpen key (dispatchCmd c.serial s))))) ∧
  (∀ (it : Item) (s : State) (c : Cmd) (key : Nat) (t : Table) (v : Version),
    (Waits 0x48 it s c) →
    (key = tableKey c.tcx (field c.words 3 21 16)) →
    (tabFind s.tbl.tables key = some t) →
    (v = versionBlock c.words t.next) →
    (field c.words 3 31 28 = 0) →
    (field c.words 4 22 0 = 0) →
    (t.destroying = none ∧ t.opened = none ∧ t.retiring.length ≤ 1) →
    (poolBytes (polderOf s c.polder) ≠ 0) →
    (rowsFit v t.stride = true) →
    (versionOk s c.tcx t.fmt t.width v = true) →
    exec (.tableRefreshBegin it) s = .next (settle (finishWith (started s c) .ok t.next
      (putTable key { t with next := t.next + 1, opened := some v } (dispatchCmd c.serial s))))) ∧
  (∀ (it : Item) (s : State) (c : Cmd) (key rows : Nat) (t : Table) (v : Version),
    (Waits 0x48 it s c) →
    (key = tableKey c.tcx (field c.words 3 21 16)) →
    (tabFind s.tbl.tables key = some t) →
    (v = versionBlock c.words t.next) →
    (rows = field c.words 4 22 0) →
    (field c.words 3 31 28 = 1) →
    (1 ≤ rows ∧ rows ≤ 4194304) →
    (t.destroying = none ∧ t.opened = none ∧ t.retiring = [] ∧ unmerged t.current = false) →
    (v.base = t.current.base) →
    ((polderOf s c.polder).workUsed + overlayBytes rows t.stride ≤ poolBytes (polderOf s c.polder)) →
    (rowsFit v t.stride = true) →
    (versionOk s c.tcx t.fmt t.width v = true) →
    exec (.tableRefreshBegin it) s = .next (settle (finishWith (started s c) .ok t.next
      (putTable key { t with next := t.next + 1, opened := some { v with delta := true, overlayCap := rows, merged := false, pool := overlayBytes rows t.stride } }
        (modPolder c.polder (fun p => { p with workUsed := p.workUsed + overlayBytes rows t.stride }) (dispatchCmd c.serial s)))))) ∧
  (∀ (it : Item) (s : State) (c : Cmd) (key n step size : Nat) (t : Table) (v : Version) (rows ib : CellBytes) (r1 r2 : Run) (o : Tab (List Byte)),
    (Waits 0x51 it s c) →
    (key = tableKey c.tcx (field c.words 3 31 26)) →
    (n = field c.words 8 20 0) →
    (tabFind s.tbl.tables key = some t) →
    (t.opened = some v) →
    (v.delta = true) →
    (1 ≤ n ∧ n ≤ 1048576) →
    (step = t.stride * 8) →
    (size = rowBytes t.fmt t.width) →
    (readRange (word64 c.words 4) ((n - 1) * step + size) (runOf (started s c) (dispatchCmd c.serial s)) = (some rows, r1)) →
    (readRange (word64 c.words 6) (n * 8) r1 = (some ib, r2)) →
    (runBlocked r2 = false) →
    ((rows.any Prod.snd || ib.any Prod.snd) = false) →
    (((indexEntries ib n).any fun e => outOfRange v e.1) = false) →
    (o = (indexEntries ib n).zipIdx.foldl (fun o e => tabInsert o e.1.1 (((rows.drop (e.2 * step)).take size).map Prod.fst)) v.overlay) →
    (o.length ≤ v.overlayCap) →
    exec (.tableWrite it) s = .next (settle (concludeRun
      { r2 with s := putTable key { t with opened := some { v with overlay := o } } r2.s }
      { value := ((indexEntries ib n).map Prod.fst).eraseDups.length } (dispatchCmd c.serial s)))) ∧
  (∀ (it : Item) (s : State) (c : Cmd) (keys : List Nat),
    (Waits 0x49 it s c) →
    (keys = (maskBits 64 (word64 c.words 4)).map (tableKey c.tcx)) →
    (field c.words 3 31 28 = 0) →
    (∀ k ∈ keys, ∃ t v, tabFind s.tbl.tables k = some t ∧ t.opened = some v ∧ v.lost = false) →
    exec (.tableRefreshCommit it) s = .next (settle (finishWith (started s c) .ok keys.length
      (keys.foldl (fun s k => flipTable (if flag c.words 3 7 then some (field c.words 3 3 0) else none) k s) (dispatchCmd c.serial s))))) ∧
  (∀ (it : Item) (s : State) (c : Cmd) (keys : List Nat),
    (Waits 0x49 it s c) →
    (keys = (maskBits 64 (word64 c.words 4)).map (tableKey c.tcx)) →
    (field c.words 3 31 28 = 1) →
    (∀ k ∈ keys, ∃ t v, tabFind s.tbl.tables k = some t ∧ t.opened = some v) →
    exec (.tableRefreshCommit it) s = .next (settle (finishWith (started s c) .ok 0
      (keys.foldl (fun s k => discardOpen k s) (dispatchCmd c.serial s)))))

/-- The commands of chapters 5 and 6: R97 to R100, R125, R126, R377.
* a mapped range is promoted, PROMOTE_PARTIAL where a block found no room;
* the copies of its blocks, or with PIN_ONLY their pins, are removed;
* from the promotion pool a copy goes, its pin only with PIN_ONLY;
* a descriptor that its writer may write takes effect, and a narrowing one completes when no access uses the window;
* any other source answers RIGHTS_FAULT;
* the result word carries LENGTH over the descriptor's first word, and FAULT_DVA its HPA_BASE;
* TRIM of aligned units on channels that are healthy and have their maps unmaps them;
* operation 3 writes the twelve counters of the polder's flash. -/
def Obligations.TierCommands : Prop :=
  (∀ (it : Item) (s : State) (c : Cmd) (r : Run) (l : List Nat) (done : State × Bool),
    (Waits 0x4A it s c) →
    (tierFields c.words = true) →
    (r = tierRun (started s c) (dispatchCmd c.serial s)) →
    (r.stopped = false) →
    (l = (blockTpas s c.tcx (word64 c.words 4) (wordAt c.words 6)).filterMap id) →
    (done = promoteAll c.polder (field c.words 3 2 0) (flag c.words 3 3) l r.s) →
    exec (.tierPromote it) s = .next (settle (finishWith (started s c) (if done.2 then .promotePartial else .ok)
      (l.filter fun tpa => inTier done.1 c.polder (field c.words 3 2 0) tpa).length done.1))) ∧
  (∀ (it : Item) (s : State) (c : Cmd) (r : Run) (l : List Nat) (t : State),
    (Waits 0x4B it s c) →
    (tierFields c.words = true) →
    (r = tierRun (started s c) (dispatchCmd c.serial s)) →
    (r.stopped = false) →
    (l = (blockTpas s c.tcx (word64 c.words 4) (wordAt c.words 6)).filterMap id) →
    (t = l.foldl (demoteBlock c.polder (field c.words 3 2 0) (flag c.words 3 3)) r.s) →
    exec (.tierDemote it) s = .next (settle (finishWith (started s c) .ok
      (l.filter fun tpa => promotable (field c.words 3 2 0) tpa && inTier t c.polder (field c.words 3 2 0) tpa).length t))) ∧
  (∀ (p : Nat) (pinOnly : Bool) (s : State) (tpa : Nat) (b : Promoted),
    (tabFind s.tier.promoted (tpa / 65536) = some b) →
    demoteBlock p 2 pinOnly s tpa =
      if pinOnly = true then { s with tier := { s.tier with promoted := tabInsert s.tier.promoted (tpa / 65536) { b with pin := false } } }
      else if b.installed = true then bumpTier p 0x30 1 (dropPromoted (tpa / 65536) s) else dropPromoted (tpa / 65536) s) ∧
  (∀ (it : Item) (s : State) (c : Cmd) (d : Window) (n : Nat),
    (Waits 0x4D it s c) →
    (d = windowRequest c.words) →
    (n = windowNumber c.words) →
    (windowRights (dispatchCmd c.serial s) c.src d.hid.toNat = true) →
    (d.valid = true → d.length ≠ 0 ∧ d.length.toNat ≤ 0x8000 ∧ (tcxOf s d.owner.toNat).state ≠ .free
      ∧ polderBit (hitOf s d.hid.toNat) (tcxOf s d.owner.toNat).polder = true) →
    exec (.htwWrite it) s = .next (settle (
      let t := { dispatchCmd c.serial s with tier := { s.tier with windows := tabPut s.tier.windows {} n d } }
      if windowNarrows (windowOf s n) d && windowBusy s n then modCmd c.serial (fun x => { x with phase := 1, decided := true }) t
      else finishWith (started s c) .ok 0 t))) ∧
  (∀ (it : Item) (s : State) (c : Cmd),
    (Waits 0x4D it s c) →
    (windowRights (dispatchCmd c.serial s) c.src (windowRequest c.words).hid.toNat = false) →
    exec (.htwWrite it) s = .next (settle (finishWith (started s c) .rightsFault 0 (dispatchCmd c.serial s)))) ∧
  (∀ (it : Item) (s : State) (c : Cmd) (d : Window),
    (Waits 0x4E it s c) →
    (d = windowOf s (windowNumber c.words)) →
    (windowRights (dispatchCmd c.serial s) c.src d.hid.toNat = true) →
    exec (.htwRead it) s = .next (settle (finish c.serial { value := (if d.valid then 2 ^ 31 else 0) + (if d.w then 2 ^ 30 else 0)
      + (if d.r then 2 ^ 29 else 0) + d.owner.toNat * 256 + d.hid.toNat + d.length.toNat * 2 ^ 32, faultDva := d.hpaBase.toNat } (dispatchCmd c.serial s)))) ∧
  (∀ (it : Item) (s : State) (c : Cmd) (u : Nat) (l : List (Nat × Nat)),
    (Waits 0x4F it s c) →
    (field c.words 3 3 0 = 0) →
    (u = field c.words 6 26 0) →
    (flashFields c.words = true) →
    ((checkWhole (word64 c.words 4) (u * 16384) .write 0x3 (fun tpa => decide (regionOf tpa ≠ .flash)) (runOf (started s c) (dispatchCmd c.serial s))).stopped = false) →
    (l = flashRanges s c.tcx (word64 c.words 4) (u * 16384)) →
    (flashAligned s c.tcx 0 (word64 c.words 4) (u * 16384) l = true) →
    (∀ ch ∈ flashChannels (polderOf s c.polder) l, (nandOf s ch).health = .ok ∧ (nandOf s ch).mapLoaded = true) →
    exec (.flashManage it) s = .next (settle (finishWith (started s c) .ok u
      (dropRanges l (unmapUnits (listedUnits s (polderOf s c.polder) l) (dispatchCmd c.serial s)))))) ∧
  (∀ (it : Item) (s : State) (c : Cmd),
    (Waits 0x4F it s c) →
    (field c.words 3 3 0 = 3) →
    (field c.words 6 26 0 = 0) →
    (dvaClear c.words 4 = true) →
    exec (.flashManage it) s = .next (settle (concludeRun
      (writeRange (word64 c.words 4) (cleanBytes (counterBytes (polderOf s c.polder).flashCnt 12))
        (checkWhole (word64 c.words 4) 96 .write 0x3 (fun _ => false) (runOf (started s c) (dispatchCmd c.serial s)))) {} (dispatchCmd c.serial s))))

/-- The lookups of chapter 11 and the sequence commands of chapter 12: R215 to R222, R236 to R249.
* a pooled lookup delivers one row per bag;
* a gather delivers one row per index;
* an undefined table, a version that is gone, or illegal fields answer INVALID;
* a SEQ_POOL over the pinned tables delivers one row per sequence;
* an undefined table or a version that is gone answers INVALID;
* a DECODE_ATTN whose descriptors are legal delivers the outputs of its heads;
* illegal fields answer INVALID. -/
def Obligations.LookupCommands : Prop :=
  (∀ (it : Item) (s : State) (c : Cmd) (t : Table) (v : Version) (m : Cmd × State) (a : LookupArrays × Run) (f : List Fetched × Run),
    (Waits 0x80 it s c) →
    (tabFind s.tbl.tables (tableKey c.tcx (field c.words 3 31 26)) = some t) →
    (pinnedVersion t c.pinned = some v) →
    (lookupValid 0x80 t c.words = true) →
    (m = markLate (started s c) 10 (dispatchCmd c.serial s)) →
    (a = lookupArrays 0x80 (lookupReq c.words) { runOf m.1 m.2 with engine := 2, unit := 0xFF }) →
    ((a.2.stopped || runBlocked a.2) = false) →
    (offsetsOk (lookupReq c.words).indices (lookupOffsets (lookupReq c.words) a.1) = true) →
    (f = fetchRows t v 10 ((lookupReq c.words).ofmt ≠ 0xF) (indexEntries a.1.idx (lookupReq c.words).indices) a.2) →
    ((f.2.stopped || runBlocked f.2) = false) →
    exec (.lookupPooled it) s = .next (settle (
      let done := lookupDeliver 0x80 m.1 t v a.1 f.1 f.2
      concludeRun done.2 done.1 m.2))) ∧
  (∀ (it : Item) (s : State) (c : Cmd) (t : Table) (v : Version) (m : Cmd × State) (a : LookupArrays × Run) (f : List Fetched × Run),
    (Waits 0x81 it s c) →
    (tabFind s.tbl.tables (tableKey c.tcx (field c.words 3 31 26)) = some t) →
    (pinnedVersion t c.pinned = some v) →
    (lookupValid 0x81 t c.words = true) →
    (m = markLate (started s c) 10 (dispatchCmd c.serial s)) →
    (a = lookupArrays 0x81 (lookupReq c.words) { runOf m.1 m.2 with engine := 2, unit := 0xFF }) →
    ((a.2.stopped || runBlocked a.2) = false) →
    (f = fetchRows t v 10 ((lookupReq c.words).ofmt ≠ 0xF) (indexEntries a.1.idx (lookupReq c.words).indices) a.2) →
    ((f.2.stopped || runBlocked f.2) = false) →
    exec (.gatherRows it) s = .next (settle (
      let done := lookupDeliver 0x81 m.1 t v a.1 f.1 f.2
      concludeRun done.2 done.1 m.2))) ∧
  (∀ (it : Item) (s : State) (c : Cmd),
    (Waits 0x80 it s c ∨ Waits 0x81 it s c) →
    (∀ t, tabFind s.tbl.tables (tableKey c.tcx (field c.words 3 31 26)) = some t →
      pinnedVersion t c.pinned = none ∨ lookupValid (hdrOpcode it.words) t c.words = false) →
    exec (if hdrOpcode it.words = 0x80 then .lookupPooled it else .gatherRows it) s =
      .next (settle (finishWith (started s c) .invalid 0 (dispatchCmd c.serial s)))) ∧
  (∀ (it : Item) (s : State) (c : Cmd) (q : SeqReq) (kn vn : Nat) (kt vt : Table) (kv vv : Version) (m : Cmd × State) (a b : CellBytes × Run) (f : List SeqOut × Run),
    (Waits 0x84 it s c) →
    (q = seqReq c.words) →
    (kn = field c.words 3 31 26) →
    (vn = if q.mode = 4 then field c.words 3 25 20 else kn) →
    (pinnedTable s (tableKey c.tcx kn) c.pinned = some (kt, kv)) →
    (pinnedTable s (tableKey c.tcx vn) (if q.mode = 4 then c.pinned2 else c.pinned) = some (vt, vv)) →
    (seqValid c.words vt.width = true) →
    (m = markLate (started s c) 20 (dispatchCmd c.serial s)) →
    (a = readArray q.desc (32 * q.nseq) true { runOf m.1 m.2 with engine := 2 }) →
    (b = readArray q.query (4 * kt.width * q.nseq) (decide (q.mode = 4)) a.2) →
    ((b.2.stopped || runBlocked b.2) = false) →
    ((List.range q.nseq).all (descOk a.1) = true) →
    ((((List.range q.nseq).map (seqDesc a.1)).map (taken q)).sum ≤ 16777216) →
    (f = runSequences kt vt kv vv q a.1 b.1 q.nseq 0 b.2) →
    ((f.2.stopped || runBlocked f.2) = false) →
    exec (.seqPool it) s = .next (settle (
      let done := seqDeliver m.1 kv vv (a.1 ++ b.1) f.1 f.2
      concludeRun done.2 done.1 m.2))) ∧
  (∀ (it : Item) (s : State) (c : Cmd),
    (Waits 0x84 it s c) →
    (pinnedTable s (tableKey c.tcx (field c.words 3 31 26)) c.pinned = none) →
    exec (.seqPool it) s = .next (settle (finishWith (started s c) .invalid 0 (dispatchCmd c.serial s)))) ∧
  (∀ (it : Item) (s : State) (c : Cmd) (q : AttnReq) (m : Cmd × State) (a : CellBytes × Run) (l : List (Nat × Nat × Nat × Bool)) (p : List CellBytes × Run) (b : CellBytes × Run) (f : List AttnOut × Run),
    (Waits 0x86 it s c) →
    (q = attnReq c.words) →
    (attnValid q = true) →
    (m = markLate (started s c) 20 (dispatchCmd c.serial s)) →
    (a = readArray q.desc (16 * q.nseq) true { runOf m.1 m.2 with engine := 0 }) →
    ((a.2.stopped || runBlocked a.2) = false) →
    (l = (List.range q.nseq).map (attnDesc a.1)) →
    (l.any attnDescBad = false) →
    (p = readTables (l.map fun d => (d.1, d.2.1)) a.2) →
    (b = readArray q.query (4 * q.d * attnHeads q * q.nseq) true p.2) →
    ((b.2.stopped || runBlocked b.2) = false) →
    (f = attnSequences q b.1 (attnSeqs l p.1) b.2) →
    ((f.2.stopped || runBlocked f.2) = false) →
    exec (.decodeAttn it) s = .next (settle (
      let done := attnDeliver m.1 (a.1 ++ p.1.flatten ++ b.1) f.1 f.2
      concludeRun done.2 done.1 m.2))) ∧
  (∀ (it : Item) (s : State) (c : Cmd),
    (Waits 0x86 it s c) →
    (attnValid (attnReq c.words) = false) →
    exec (.decodeAttn it) s = .next (settle (finishWith (started s c) .invalid 0 (dispatchCmd c.serial s))))

/-- Searches, launches and collectives: R199 to R203, R260 to R268, R275, R304 to R312.
* a search queues a scan on each flash channel of the lists it probes, and goes on as far as the data allows;
* SEARCH_COMPAT the same, over a compatible index;
* a kernel whose image asks no more cores and local store than there are is placed on them;
* a crown run whose cores are free starts on them, its data and zeros written to its work area;
* the first member of a group opens it with work-pool space;
* another member of the same parameters and a new rank joins it. -/
def Obligations.SearchAndLaunchCommands : Prop :=
  (∀ (it : Item) (s : State) (c : Cmd) (x : SearchRead × Run) (chans : List Nat) (s1 : State) (d : Cmd) (y : SearchRead × Run),
    (Waits 0x88 it s c) →
    (searchReady 0x88 (started s c) (dispatchCmd c.serial s) = some x) →
    (chans = engineChannels (allUnits (dispatchCmd c.serial s) c.tcx x.1.ctx)) →
    (tabFind s.srch.runs c.serial = none) →
    ((spills (started s c) && decide (hdrDeadline c.words ≤ 60)) = false) →
    ((chans.any fun ch => decide ((tabGet s.srch.queued [] ch).length ≥ 32)) = false) →
    (c.pool = 0) →
    (takePool (started s c) (searchPool x.1.ctx.req) (dispatchCmd c.serial s) = some s1) →
    (((queueScans c.serial chans s1).q.cmds.find? fun d => decide (d.serial = c.serial)) = some d) →
    (searchReady 0x88 { d with host := c.host, phase := 1 } (queueScans c.serial chans s1) = some y) →
    exec (.search it) s = .next (settle (searchContinue y.1 { open_ := chans.filter (· < 64) } { d with host := c.host, phase := 1 } y.2 (queueScans c.serial chans s1)))) ∧
  (∀ (it : Item) (s : State) (c : Cmd) (x : SearchRead × Run) (chans : List Nat) (s1 : State) (d : Cmd) (y : SearchRead × Run),
    (Waits 0x89 it s c) →
    (searchReady 0x89 (started s c) (dispatchCmd c.serial s) = some x) →
    (chans = engineChannels (allUnits (dispatchCmd c.serial s) c.tcx x.1.ctx)) →
    (tabFind s.srch.runs c.serial = none) →
    ((spills (started s c) && decide (hdrDeadline c.words ≤ 60)) = false) →
    ((chans.any fun ch => decide ((tabGet s.srch.queued [] ch).length ≥ 32)) = false) →
    (c.pool = 0) →
    (takePool (started s c) (searchPool x.1.ctx.req) (dispatchCmd c.serial s) = some s1) →
    (((queueScans c.serial chans s1).q.cmds.find? fun d => decide (d.serial = c.serial)) = some d) →
    (searchReady 0x89 { d with host := c.host, phase := 1 } (queueScans c.serial chans s1) = some y) →
    exec (.searchCompat it) s = .next (settle (searchContinue y.1 { open_ := chans.filter (· < 64) } { d with host := c.host, phase := 1 } y.2 (queueScans c.serial chans s1)))) ∧
  (∀ (it : Item) (s : State) (c : Cmd) (l : Launch) (r : Run) (n : Nat),
    (Waits 0xA0 it s c) →
    (launchFieldsOk true c.words = true) →
    (launchReady true (started s c) (dispatchCmd c.serial s) = some (l, r)) →
    (n = min (if field c.words 3 7 0 = 0 then l.image.coresMax else field c.words 3 7 0) (usableCores s c.polder).length) →
    (l.image.coresMin ≤ n) →
    (l.image.code + field c.words 8 15 0 ≤ l.image.localBytes) →
    exec (.kernelLaunch it) s = .next (settle (putPlacement c.serial
      { want := n, inputSeg := (List.range 16).find? fun k => l.image.roles.getD k 0 = 1
        phases := l.image.phases.length, counts := l.image.phases.map (·.2), bounds := l.image.phases.map (·.1) } (takeLaunch (started s c) l r)))) ∧
  (∀ (it : Item) (s : State) (c : Cmd) (l : Launch) (r r1 r2 r3 : Run) (n : Nat),
    (Waits 0xA8 it s c) →
    (launchFieldsOk false c.words = true) →
    (launchReady false (started s c) (dispatchCmd c.serial s) = some (l, r)) →
    (n = min (if field c.words 3 7 0 = 0 then l.image.coresMax else field c.words 3 7 0) (usableCrown s c.polder).length) →
    (l.image.coresMin ≤ n ∧ field c.words 19 15 0 < n ∧ l.image.data.length + n * l.image.stack ≤ l.image.work) →
    (n ≤ (freeCrownCores (dispatchCmd c.serial s) c.polder).length) →
    (writesPending s c.tcx = false) →
    (r1 = checkWhole (word64 c.words 16) l.image.work .read 0x2 (fun _ => false) r) →
    (r1.stopped = false) →
    (r2 = checkWhole (word64 c.words 16) l.image.work .write 0x3 (fun _ => false) r1) →
    (r3 = writeRange (word64 c.words 16) (cleanBytes (l.image.data ++ List.replicate (l.image.work - l.image.data.length - n * l.image.stack) 0)) r2) →
    ((r3.stopped || runBlocked r3) = false) →
    exec (.crownRun it) s = .next (settle (putRun c.serial
      { cores := (freeCrownCores (takeLaunch (started s c) l r3) c.polder).take n, exitCore := field c.words 19 15 0
        handler := l.image.handler, seed := BitVec.ofNat 64 (word64 c.words 12) } (takeLaunch (started s c) l r3)))) ∧
  (∀ (op : Nat) (it : Item) (s : State) (c : Cmd) (q : CollReq) (need ix : Nat) (s1 : State),
    (op = 0xC0 ∨ op = 0xC1 ∨ op = 0xC2) →
    (Waits op it s c) →
    (q = collReq c.words) →
    (need = q.count * collBytes op q + collOutput op q) →
    (collValid op c.words = true) →
    (poolBytes (polderOf s c.polder) ≠ 0) →
    (need ≤ poolBytes (polderOf s c.polder)) →
    (srcSluice (dispatchCmd c.serial s) c.src = some ix) →
    (q.push = true → slotTaken s ix q.slot = false) →
    (tabFind s.copy.groups (groupKey c) = none) →
    ((s.copy.groups.filter fun e => e.1 / 2 ^ 32 = c.polder).length < 64) →
    (takePool (started s c) need (dispatchCmd c.serial s) = some s1) →
    exec (if op = 0xC0 then .reduce it else if op = 0xC1 then .gatherHosts it else .filterStream it) s = .next (settle (
      let t := if q.push then bindSlot (started s c) q.slot (collBytes op q) s1 else s1
      modCmd c.serial (fun d => { d with phase := 1 }) { t with copy := { t.copy with groups := tabInsert t.copy.groups (groupKey c) { opcode := op, params := collParams c.words, count := q.count, members := [{ rank := q.rank, serial := c.serial }], full := decide (1 = q.count) } } }))) ∧
  (∀ (op : Nat) (it : Item) (s : State) (c : Cmd) (q : CollReq) (ix : Nat) (g : Group),
    (op = 0xC0 ∨ op = 0xC1 ∨ op = 0xC2) →
    (Waits op it s c) →
    (q = collReq c.words) →
    (collValid op c.words = true) →
    (poolBytes (polderOf s c.polder) ≠ 0) →
    (q.count * collBytes op q + collOutput op q ≤ poolBytes (polderOf s c.polder)) →
    (srcSluice (dispatchCmd c.serial s) c.src = some ix) →
    (q.push = true → slotTaken s ix q.slot = false) →
    (tabFind s.copy.groups (groupKey c) = some g) →
    (g.full = false ∧ g.opcode = op ∧ g.params = collParams c.words) →
    ((g.members.any fun m => decide (m.rank = q.rank)) = false) →
    exec (if op = 0xC0 then .reduce it else if op = 0xC1 then .gatherHosts it else .filterStream it) s = .next (settle (
      let t := if q.push then bindSlot (started s c) q.slot (collBytes op q) (dispatchCmd c.serial s) else dispatchCmd c.serial s
      modCmd c.serial (fun d => { d with phase := 1 }) { t with copy := { t.copy with groups := tabInsert t.copy.groups (groupKey c) { g with members := g.members ++ [{ rank := q.rank, serial := c.serial }], full := decide (g.members.length + 1 = g.count) } } })))

/-- The debug opcodes (R337, R459 to R464).
* DBG_STATUS answers the state in bits 1:0 and the halted cores in bits 29:2;
* DBG_CHALLENGE answers a NONCE, which is the model's free value, and keeps it with its time;
* DBG_UNLOCK to a state further open, with a token that verifies over a NONCE of at most 60 s, makes that the state;
* a token that does not verify, or a NONCE that is used or too old, answers RIGHTS_FAULT, uses the NONCE up and writes EVENT 0x0F;
* DBG_LOCK takes TENANT-SAFE to LOCKED, and leaves LOCKED; in OPEN it answers INVALID;
* a peek that the lock allows delivers the bytes of its space;
* a peek that the lock does not allow answers RIGHTS_FAULT, and so does every poke outside OPEN;
* in OPEN a poke writes the bytes that lie at its HPA and writes EVENT 0x10;
* a core outside any locked sequence halts at once, with result 1;
* a halt inside a locked sequence whose command runs is deferred, and its command stays;
* DBG_RESUME lets a core run again. -/
def Obligations.DebugCommands : Prop :=
  (∀ (it : Item) (s : State) (c : Cmd),
    (Waits 0xF0 it s c) →
    exec (.dbgStatus it) s = .next (settle (finishWith (started s c) .ok (lockCode s.dbg.lock + s.fw.halted.toNat * 4) (dispatchCmd c.serial s)))) ∧
  (∀ (it : Item) (s : State) (c : Cmd),
    (Waits 0xF1 it s c) →
    exec (.dbgChallenge it) s = .next (settle (finishWith (started s c) .ok (Config.nonce s.free).toNat
      (drawFree { dispatchCmd c.serial s with dbg := { s.dbg with nonce := some (Config.nonce s.free, s.time) } })))) ∧
  (∀ (it : Item) (s : State) (c : Cmd) (n : BitVec 64) (t : Nat),
    (Waits 0xF2 it s c) →
    (field c.words 3 1 0 = 1 ∨ field c.words 3 1 0 = 2) →
    (lockCode s.dbg.lock < field c.words 3 1 0) →
    (word64 c.words 7 % 8 = 0) →
    (s.dbg.nonce = some (n, t)) →
    (s.time - t ≤ 1500000000) →
    exec (.dbgUnlock it true) s = .next (settle (finishWith (started s c) .ok 0
      (setLock (if field c.words 3 1 0 = 1 then .tenantSafe else .open_) { dispatchCmd c.serial s with dbg := { s.dbg with nonce := none } })))) ∧
  (∀ (it : Item) (s : State) (c : Cmd) (ok : Bool),
    (Waits 0xF2 it s c) →
    (field c.words 3 1 0 = 1 ∨ field c.words 3 1 0 = 2) →
    (lockCode s.dbg.lock < field c.words 3 1 0) →
    (word64 c.words 7 % 8 = 0) →
    (ok = false ∨ nonceFresh s = false) →
    exec (.dbgUnlock it ok) s = .next (settle (finishWith (started s c) .rightsFault 0
      (writeEvent 0x0F 0 0 64 0 0xFF { dispatchCmd c.serial s with dbg := { s.dbg with nonce := none } })))) ∧
  (∀ (it : Item) (s : State) (c : Cmd),
    (Waits 0xF3 it s c) →
    exec (.dbgLock it) s = .next (settle (match s.dbg.lock with
      | .open_ => finishWith (started s c) .invalid 0 (dispatchCmd c.serial s)
      | .tenantSafe => finishWith (started s c) .ok 0 (setLock .locked (dispatchCmd c.serial s))
      | .locked => finishWith (started s c) .ok 0 (dispatchCmd c.serial s)))) ∧
  (∀ (it : Item) (s : State) (c : Cmd) (d : DebugAddr) (a len : Nat) (p : List Byte × State),
    (Waits 0xF4 it s c) →
    (a = word64 c.words 4 ∧ len = wordAt c.words 6) →
    (s.dbg.lock ≠ .locked ∧ (needsOpen a = true → s.dbg.lock = .open_)) →
    (4 ≤ len ∧ len ≤ 4096 ∧ len % 4 = 0 ∧ debugHpa c = true) →
    (debugAddr s a len = some d) →
    (p = peekBytes d len (dispatchCmd c.serial s)) →
    exec (.dbgPeek it) s = .next (settle (finishHpa (started s c) (word64 c.words 7) p.1 { value := len } p.2))) ∧
  (∀ (it : Item) (s : State) (c : Cmd),
    (Waits 0xF4 it s c ∧ (s.dbg.lock = .locked ∨ needsOpen (word64 c.words 4) = true ∧ s.dbg.lock ≠ .open_) ∨ Waits 0xF5 it s c ∧ s.dbg.lock ≠ .open_) →
    exec (if hdrOpcode it.words = 0xF4 then .dbgPeek it else .dbgPoke it) s = .next (settle (finishWith (started s c) .rightsFault 0 (dispatchCmd c.serial s)))) ∧
  (∀ (it : Item) (s : State) (c : Cmd) (d : DebugAddr) (l : List Byte) (a len : Nat) (p : State × Status),
    (Waits 0xF5 it s c) →
    (a = word64 c.words 4 ∧ len = wordAt c.words 6) →
    (s.dbg.lock = .open_) →
    (4 ≤ len ∧ len ≤ 64 ∧ len % 4 = 0 ∧ word64 c.words 7 % 8 = 0) →
    (debugAddr s a len = some d) →
    (hostBytes c.host (srcHid (dispatchCmd c.serial s) c.src) (word64 c.words 7) len = some l) →
    (p = pokeBytes d l (dispatchCmd c.serial s)) →
    exec (.dbgPoke it) s = .next (settle (finishWith (started s c) p.2 len (writeEvent 0x10 0 0 64 a len p.1)))) ∧
  (∀ (it : Item) (s : State) (c : Cmd) (core : Nat),
    (Waits 0xF6 it s c) →
    (core = field c.words 3 4 0) →
    (core ≤ 27) →
    (haltAllowed s.dbg.lock core = true) →
    exec (.dbgHalt it none) s = .next (settle (finishWith (started s c) .ok 1 (haltCore core (dispatchCmd c.serial s))))) ∧
  (∀ (it : Item) (s : State) (c : Cmd) (core : Nat) (x : Fin 28 × Nat) (t : State),
    (Waits 0xF6 it s c) →
    (core = field c.words 3 4 0) →
    (core ≤ 27) →
    (haltAllowed s.dbg.lock core = true) →
    (x.2 ≠ c.serial) →
    ((s.q.cmds.any fun d => decide (d.serial = x.2)) = true) →
    (t = modCmd c.serial (fun c => { c with phase := 1, decided := true }) (dispatchCmd c.serial s)) →
    exec (.dbgHalt it (some x)) s = .next (settle { t with fw := { t.fw with
      deferred := tabInsert t.fw.deferred core (c.serial, flag c.words 3 8)
      locked := tabInsert t.fw.locked core (x.1.val, x.2) } })) ∧
  (∀ (it : Item) (s : State) (c : Cmd) (core : Nat),
    (Waits 0xF7 it s c) →
    (core = field c.words 3 4 0) →
    (core ≤ 27) →
    (haltAllowed s.dbg.lock core = true) →
    exec (.dbgResume it) s = .next (settle (finishWith (started s c) .ok 0
      { dispatchCmd c.serial s with fw := { s.fw with halted := s.fw.halted &&& ~~~BitVec.ofNat 28 (2 ^ core) } })))
end

