-- ==== Sys2Proof/Laws/Digests.lean ====
section
/-!
SUPPORT. SHA3-256 answers 256 bits, and little-endian bytes spell the number they were made of.
-/

namespace Sys2Proof.Machine

theorem ofBytes_lt (l : List Byte) : ofBytes l < 256 ^ l.length := by
  induction l with
  | nil => simp [ofBytes]
  | cons b l ih =>
    have := b.isLt
    simp only [ofBytes, List.length_cons, Nat.pow_succ]
    omega

@[simp] theorem toBytes_length (n v : Nat) : (toBytes n v).length = n := by
  induction n generalizing v with
  | zero => rfl
  | succ n ih => simp [toBytes, ih]

theorem ofBytes_toBytes (n v : Nat) : ofBytes (toBytes n v) = v % 256 ^ n := by
  induction n generalizing v with
  | zero => simp [toBytes, ofBytes, Nat.mod_one]
  | succ n ih =>
    rw [toBytes, ofBytes, ih, BitVec.toNat_ofNat, show 256 ^ (n + 1) = 256 * 256 ^ n from Nat.pow_succ', Nat.mod_mul]

theorem ofBytes_zeros (n : Nat) : ofBytes (List.replicate n 0) = 0 := by
  induction n with
  | zero => rfl
  | succ n ih => rw [List.replicate_succ, ofBytes, ih]; rfl

theorem rotl64_lt (v n : Nat) (h : v < 2 ^ 64) : rotl64 v n < 2 ^ 64 := by
  unfold rotl64
  split
  · exact h
  · have hk : n % 64 < 64 := Nat.mod_lt _ (by decide)
    generalize n % 64 = k at *
    have e : 2 ^ 64 = 2 ^ (64 - k) * 2 ^ k := by rw [← Nat.pow_add]; congr 1; omega
    have a : (v <<< k) % 2 ^ 64 = (v % 2 ^ (64 - k)) * 2 ^ k := by
      rw [Nat.shiftLeft_eq, e, Nat.mul_mod_mul_right]
    have b : v >>> (64 - k) < 2 ^ k := by
      rw [Nat.shiftRight_eq_div_pow]
      exact Nat.div_lt_of_lt_mul (by rw [← e]; exact h)
    have c : v % 2 ^ (64 - k) + 1 ≤ 2 ^ (64 - k) := Nat.mod_lt _ (Nat.two_pow_pos _)
    have d := Nat.mul_le_mul_right (2 ^ k) c
    rw [Nat.add_mul, ← e] at d
    rw [a]; omega

/-- Every lane is a 64-bit number. -/
def LanesOk (a : List Nat) : Prop := ∀ i, a.getD i 0 < 2 ^ 64

theorem lanesOk_lanes (f : Nat → Nat → Nat) (h : ∀ x y, f x y < 2 ^ 64) : LanesOk (lanes f) := by
  intro i
  unfold lanes
  by_cases hi : i < 25
  · simp only [List.getD_eq_getElem?_getD, List.getElem?_map, List.getElem?_range hi, Option.map_some, Option.getD_some]
    exact h _ _
  · have : ((List.range 25).map fun i => f (i % 5) (i / 5))[i]? = none := by simp; omega
    simp [List.getD_eq_getElem?_getD, this]

theorem lane_lt (a : List Nat) (h : LanesOk a) (x y : Nat) : lane a x y < 2 ^ 64 := h _

theorem keccakRound_ok (a : List Nat) (rc : Nat) (h : LanesOk a) (hr : rc < 2 ^ 64) : LanesOk (keccakRound a rc) := by
  have hl := lane_lt a h
  have hc : ∀ x, (((List.range 5).map fun x => lane a x 0 ^^^ lane a x 1 ^^^ lane a x 2 ^^^ lane a x 3 ^^^ lane a x 4).getD x 0) < 2 ^ 64 := by
    intro x
    by_cases hx : x < 5
    · simp only [List.getD_eq_getElem?_getD, List.getElem?_map, List.getElem?_range hx, Option.map_some, Option.getD_some]
      exact Nat.xor_lt_two_pow (Nat.xor_lt_two_pow (Nat.xor_lt_two_pow (Nat.xor_lt_two_pow (hl _ _) (hl _ _)) (hl _ _)) (hl _ _)) (hl _ _)
    · rw [List.getD_eq_getElem?_getD, List.getElem?_eq_none (by simp; omega)]; simp
  unfold keccakRound
  simp only
  generalize (List.range 5).map (fun x => lane a x 0 ^^^ lane a x 1 ^^^ lane a x 2 ^^^ lane a x 3 ^^^ lane a x 4) = c at *
  have hd : ∀ x, (((List.range 5).map fun x => c.getD ((x + 4) % 5) 0 ^^^ rotl64 (c.getD ((x + 1) % 5) 0) 1).getD x 0) < 2 ^ 64 := by
    intro x
    by_cases hx : x < 5
    · simp only [List.getD_eq_getElem?_getD (l := (List.range 5).map _), List.getElem?_map, List.getElem?_range hx, Option.map_some, Option.getD_some]
      exact Nat.xor_lt_two_pow (hc _) (rotl64_lt _ _ (hc _))
    · rw [List.getD_eq_getElem?_getD, List.getElem?_eq_none (by simp; omega)]; simp
  generalize (List.range 5).map (fun x => c.getD ((x + 4) % 5) 0 ^^^ rotl64 (c.getD ((x + 1) % 5) 0) 1) = d at *
  have ht := lanesOk_lanes (fun x y => rotl64 (lane a x y ^^^ d.getD x 0) (keccakRotations.getD (5 * y + x) 0))
    fun x y => rotl64_lt _ _ (Nat.xor_lt_two_pow (hl _ _) (hd _))
  generalize lanes (fun x y => rotl64 (lane a x y ^^^ d.getD x 0) (keccakRotations.getD (5 * y + x) 0)) = t at *
  have hb := lanesOk_lanes (fun x y => lane t (x + 3 * y) x) fun x y => lane_lt t ht _ _
  generalize lanes (fun x y => lane t (x + 3 * y) x) = b at *
  have he := lanesOk_lanes (fun x y => lane b x y ^^^ ((2 ^ 64 - 1 - lane b (x + 1) y) &&& lane b (x + 2) y))
    fun x y => Nat.xor_lt_two_pow (lane_lt b hb _ _) (Nat.and_lt_two_pow _ (lane_lt b hb _ _))
  generalize lanes (fun x y => lane b x y ^^^ ((2 ^ 64 - 1 - lane b (x + 1) y) &&& lane b (x + 2) y)) = e at *
  cases e with
  | nil => intro i; simp
  | cons h' r =>
    intro i
    cases i with
    | zero => exact Nat.xor_lt_two_pow (he 0) hr
    | succ i => exact he (i + 1)

theorem keccakF_ok (a : List Nat) (h : LanesOk a) : LanesOk (keccakF a) := by
  have hc : ∀ rc ∈ keccakConstants, rc < 2 ^ 64 := by decide
  unfold keccakF
  generalize keccakConstants = l at *
  induction l generalizing a with
  | nil => exact h
  | cons rc l ih =>
    exact ih _ (keccakRound_ok a rc h (hc _ List.mem_cons_self)) fun x hx => hc x (List.mem_cons_of_mem _ hx)

theorem absorb_ok (n : Nat) (l : List Byte) (a : List Nat) (h : LanesOk a) : LanesOk (absorb n l a) := by
  induction n generalizing l a with
  | zero => exact h
  | succ n ih =>
    refine ih _ _ (keccakF_ok _ fun i => ?_)
    have hb : ∀ j, ofBytes (((l.take 136).drop (8 * j)).take 8) < 2 ^ 64 := fun j =>
      Nat.lt_of_lt_of_le (ofBytes_lt _) (by
        have : (((l.take 136).drop (8 * j)).take 8).length ≤ 8 := by simp [List.length_take]
        calc 256 ^ _ ≤ 256 ^ 8 := Nat.pow_le_pow_right (by decide) this
          _ = 2 ^ 64 := by decide)
    have hi := h i
    simp only [List.getD_eq_getElem?_getD, List.getElem?_mapIdx] at hi ⊢
    cases g : a[i]? with
    | none => simp
    | some v =>
      simp only [g, Option.map_some, Option.getD_some] at hi ⊢
      exact Nat.xor_lt_two_pow hi (hb i)

/-- A SHA3-256 digest has 256 bits. -/
theorem sha3_lt (l : List Byte) : sha3 l < 2 ^ 256 := by
  have h : LanesOk (absorb ((shaPad l).length / 136) (shaPad l) (List.replicate 25 0)) := by
    refine absorb_ok _ _ _ fun i => ?_
    simp only [List.getD_eq_getElem?_getD, List.getElem?_replicate]
    split <;> simp
  unfold sha3
  simp only
  have h0 := h 0; have h1 := h 1; have h2 := h 2; have h3 := h 3
  omega

end Sys2Proof.Machine
end

