-- ==== Sys2Proof/Laws/Tab.lean ====
section
/-!
SUPPORT. What the operations on sparse tables do: an entry read after a write, and the canonical form kept by every one.
-/

namespace Sys2Proof.Machine

variable {α : Type}

@[simp] theorem tabFind_nil (k : Nat) : tabFind ([] : Tab α) k = none := rfl

/-- What is found under a key is listed. -/
theorem tabFind_mem (t : Tab α) (k : Nat) (v : α) (h : tabFind t k = some v) : (k, v) ∈ t := by
  induction t with
  | nil => cases h
  | cons e t ih =>
    obtain ⟨k', v'⟩ := e
    unfold tabFind at h
    split at h
    · next hk => cases h; subst hk; exact List.mem_cons_self
    · exact List.mem_cons_of_mem _ (ih h)

theorem tabFind_insert_same (t : Tab α) (k : Nat) (v : α) : tabFind (tabInsert t k v) k = some v := by
  induction t with
  | nil => simp [tabInsert, tabFind]
  | cons e t ih =>
    obtain ⟨k', v'⟩ := e
    simp only [tabInsert]
    split
    · next h => simp only [tabFind, if_neg (Nat.ne_of_lt h)]; exact ih
    · split <;> simp [tabFind]

/-- A second write under one key replaces the first. -/
theorem tabInsert_twice (t : Tab α) (k : Nat) (a b : α) : tabInsert (tabInsert t k a) k b = tabInsert t k b := by
  induction t with
  | nil => simp [tabInsert]
  | cons e t ih =>
    obtain ⟨k', v'⟩ := e
    simp only [tabInsert]
    split
    · simp_all [tabInsert]
    · split <;> simp_all [tabInsert]

theorem tabFind_insert_other (t : Tab α) (k j : Nat) (v : α) (h : j ≠ k) : tabFind (tabInsert t k v) j = tabFind t j := by
  induction t with
  | nil => simp [tabInsert, tabFind, Ne.symm h]
  | cons e t ih =>
    obtain ⟨k', v'⟩ := e
    simp only [tabInsert]
    split
    · simp only [tabFind, ih]
    · split
      · next h2 => subst h2; simp [tabFind, Ne.symm h]
      · simp [tabFind, Ne.symm h]

theorem tabFind_erase_same (t : Tab α) (k : Nat) : tabFind (tabErase t k) k = none := by
  induction t with
  | nil => rfl
  | cons e t ih =>
    obtain ⟨k', v'⟩ := e
    simp only [tabErase, List.filter] at ih ⊢
    split
    · next h => simp only [decide_eq_true_eq] at h; simp only [tabFind, if_neg h]; exact ih
    · exact ih

theorem tabFind_erase_other (t : Tab α) (k j : Nat) (h : j ≠ k) : tabFind (tabErase t k) j = tabFind t j := by
  induction t with
  | nil => rfl
  | cons e t ih =>
    obtain ⟨k', v'⟩ := e
    simp only [tabErase, List.filter] at ih ⊢
    split
    · simp only [tabFind, ih]
    · next h2 =>
      have h3 : k' = k := by simpa using h2
      subst h3
      simp only [tabFind, if_neg (Ne.symm h)]; exact ih

theorem tabWfFrom_mono [DecidableEq α] {d : α} {t : Tab α} {lo lo' : Nat} (h : tabWfFrom d lo t = true) (hl : lo' ≤ lo) :
    tabWfFrom d lo' t = true := by
  cases t with
  | nil => rfl
  | cons e t =>
    obtain ⟨k, v⟩ := e
    simp only [tabWfFrom, Bool.and_eq_true, decide_eq_true_eq] at h ⊢
    exact ⟨⟨by omega, h.1.2⟩, h.2⟩

theorem tabWf_insert [DecidableEq α] {d : α} {t : Tab α} {lo k : Nat} {v : α} (h : tabWfFrom d lo t = true) (hk : lo ≤ k)
    (hv : v ≠ d) : tabWfFrom d lo (tabInsert t k v) = true := by
  induction t generalizing lo with
  | nil => simp [tabInsert, tabWfFrom, hk, hv]
  | cons e t ih =>
    obtain ⟨k', v'⟩ := e
    simp only [tabWfFrom, Bool.and_eq_true, decide_eq_true_eq] at h
    simp only [tabInsert]
    split
    · simp only [tabWfFrom, Bool.and_eq_true, decide_eq_true_eq]
      exact ⟨h.1, ih h.2 (by omega)⟩
    · split
      · next h2 =>
        subst h2
        simp only [tabWfFrom, Bool.and_eq_true, decide_eq_true_eq]
        exact ⟨⟨hk, hv⟩, h.2⟩
      · simp only [tabWfFrom, Bool.and_eq_true, decide_eq_true_eq]
        exact ⟨⟨hk, hv⟩, ⟨by omega, h.1.2⟩, h.2⟩

theorem tabWfFrom_filter [DecidableEq α] {d : α} {t : Tab α} {lo : Nat} (p : Nat × α → Bool) (h : tabWfFrom d lo t = true) :
    tabWfFrom d lo (t.filter p) = true := by
  induction t generalizing lo with
  | nil => rfl
  | cons e t ih =>
    obtain ⟨k', v'⟩ := e
    simp only [tabWfFrom, Bool.and_eq_true, decide_eq_true_eq] at h
    simp only [List.filter]
    split
    · simp only [tabWfFrom, Bool.and_eq_true, decide_eq_true_eq]; exact ⟨h.1, ih h.2⟩
    · exact tabWfFrom_mono (ih h.2) (by omega)

theorem tabWf_erase [DecidableEq α] {d : α} {t : Tab α} {lo : Nat} (k : Nat) (h : tabWfFrom d lo t = true) :
    tabWfFrom d lo (tabErase t k) = true := tabWfFrom_filter _ h

/-- A write keeps the canonical form: the default removes the entry. -/
theorem tabWf_put [DecidableEq α] {d : α} {t : Tab α} (k : Nat) (v : α) (h : tabWf t d = true) : tabWf (tabPut t d k v) d = true := by
  unfold tabPut
  split
  · exact tabWf_erase k h
  · exact tabWf_insert h (Nat.zero_le k) (by assumption)

theorem tabWf_filter [DecidableEq α] {d : α} {t : Tab α} (p : Nat → α → Bool) (h : tabWf t d = true) :
    tabWf (tabFilter t p) d = true := tabWfFrom_filter _ h

/-- Reading after a write to the same key. -/
theorem tabGet_put_same [DecidableEq α] (t : Tab α) (d : α) (k : Nat) (v : α) : tabGet (tabPut t d k v) d k = v := by
  unfold tabGet tabPut
  split
  · next hv => rw [tabFind_erase_same, hv]; rfl
  · rw [tabFind_insert_same]; rfl

/-- A write leaves every other key alone. -/
theorem tabGet_put_other [DecidableEq α] (t : Tab α) (d : α) (k j : Nat) (v : α) (h : j ≠ k) :
    tabGet (tabPut t d k v) d j = tabGet t d j := by
  unfold tabGet tabPut
  split
  · rw [tabFind_erase_other t k j h]
  · rw [tabFind_insert_other t k j v h]

/-- What a filter by keys leaves. -/
theorem tabFind_filter (t : Tab α) (q : Nat → Bool) (k : Nat) :
    tabFind (tabFilter t fun j _ => q j) k = if q k then tabFind t k else none := by
  induction t with
  | nil => simp [tabFilter, tabFind]
  | cons e t ih =>
    obtain ⟨j, v⟩ := e
    unfold tabFilter at ih ⊢
    by_cases hq : q j = true <;> by_cases hj : j = k <;> simp_all [tabFind]

theorem tabGet_filter (t : Tab α) (d : α) (q : Nat → Bool) (k : Nat) :
    tabGet (tabFilter t fun j _ => q j) d k = if q k then tabGet t d k else d := by
  unfold tabGet
  rw [tabFind_filter]
  split <;> rfl

end Sys2Proof.Machine
end

