-- ==== Sys2Proof/Laws/State.lean ====
section
/-!
SUPPORT. What each named update of the state leaves alone, field by field.
-/

namespace Sys2Proof.Machine

@[simp] theorem emit_polders (e : Emit) (s : State) : (emit e s).polders = s.polders := rfl
@[simp] theorem emit_tcxs (e : Emit) (s : State) : (emit e s).tcxs = s.tcxs := rfl
@[simp] theorem emit_segs (e : Emit) (s : State) : (emit e s).segs = s.segs := rfl
@[simp] theorem emit_hit (e : Emit) (s : State) : (emit e s).hit = s.hit := rfl
@[simp] theorem emit_coh (e : Emit) (s : State) : (emit e s).coh = s.coh := rfl
@[simp] theorem emit_mem (e : Emit) (s : State) : (emit e s).mem = s.mem := rfl
@[simp] theorem emit_res (e : Emit) (s : State) : (emit e s).res = s.res := rfl
@[simp] theorem emit_tier (e : Emit) (s : State) : (emit e s).tier = s.tier := rfl
@[simp] theorem emit_ftl (e : Emit) (s : State) : (emit e s).ftl = s.ftl := rfl
@[simp] theorem emit_key (e : Emit) (s : State) : (emit e s).key = s.key := rfl
@[simp] theorem emit_weir (e : Emit) (s : State) : (emit e s).weir = s.weir := rfl
@[simp] theorem emit_copy (e : Emit) (s : State) : (emit e s).copy = s.copy := rfl
@[simp] theorem emit_tbl (e : Emit) (s : State) : (emit e s).tbl = s.tbl := rfl
@[simp] theorem emit_srch (e : Emit) (s : State) : (emit e s).srch = s.srch := rfl
@[simp] theorem emit_eng (e : Emit) (s : State) : (emit e s).eng = s.eng := rfl
@[simp] theorem emit_q (e : Emit) (s : State) : (emit e s).q = s.q := rfl
@[simp] theorem emit_fw (e : Emit) (s : State) : (emit e s).fw = s.fw := rfl
@[simp] theorem emit_tray (e : Emit) (s : State) : (emit e s).tray = s.tray := rfl
@[simp] theorem emit_port (e : Emit) (s : State) : (emit e s).port = s.port := rfl
@[simp] theorem emit_pwr (e : Emit) (s : State) : (emit e s).pwr = s.pwr := rfl
@[simp] theorem emit_flt (e : Emit) (s : State) : (emit e s).flt = s.flt := rfl
@[simp] theorem emit_recorder (e : Emit) (s : State) : (emit e s).recorder = s.recorder := rfl
@[simp] theorem emit_dbg (e : Emit) (s : State) : (emit e s).dbg = s.dbg := rfl
@[simp] theorem emit_ident (e : Emit) (s : State) : (emit e s).ident = s.ident := rfl
@[simp] theorem emit_pins (e : Emit) (s : State) : (emit e s).pins = s.pins := rfl
@[simp] theorem emit_regs (e : Emit) (s : State) : (emit e s).regs = s.regs := rfl
@[simp] theorem emit_time (e : Emit) (s : State) : (emit e s).time = s.time := rfl
@[simp] theorem emit_beat (e : Emit) (s : State) : (emit e s).beat = s.beat := rfl
@[simp] theorem emit_pending (e : Emit) (s : State) : (emit e s).pending = s.pending := rfl
@[simp] theorem emit_free (e : Emit) (s : State) : (emit e s).free = s.free := rfl

@[simp] theorem setPolder_tcxs (p : Nat) (v : Polder) (s : State) : (setPolder p v s).tcxs = s.tcxs := rfl
@[simp] theorem setPolder_segs (p : Nat) (v : Polder) (s : State) : (setPolder p v s).segs = s.segs := rfl
@[simp] theorem setPolder_hit (p : Nat) (v : Polder) (s : State) : (setPolder p v s).hit = s.hit := rfl
@[simp] theorem setPolder_coh (p : Nat) (v : Polder) (s : State) : (setPolder p v s).coh = s.coh := rfl
@[simp] theorem setPolder_mem (p : Nat) (v : Polder) (s : State) : (setPolder p v s).mem = s.mem := rfl
@[simp] theorem setPolder_res (p : Nat) (v : Polder) (s : State) : (setPolder p v s).res = s.res := rfl
@[simp] theorem setPolder_tier (p : Nat) (v : Polder) (s : State) : (setPolder p v s).tier = s.tier := rfl
@[simp] theorem setPolder_ftl (p : Nat) (v : Polder) (s : State) : (setPolder p v s).ftl = s.ftl := rfl
@[simp] theorem setPolder_key (p : Nat) (v : Polder) (s : State) : (setPolder p v s).key = s.key := rfl
@[simp] theorem setPolder_weir (p : Nat) (v : Polder) (s : State) : (setPolder p v s).weir = s.weir := rfl
@[simp] theorem setPolder_copy (p : Nat) (v : Polder) (s : State) : (setPolder p v s).copy = s.copy := rfl
@[simp] theorem setPolder_tbl (p : Nat) (v : Polder) (s : State) : (setPolder p v s).tbl = s.tbl := rfl
@[simp] theorem setPolder_srch (p : Nat) (v : Polder) (s : State) : (setPolder p v s).srch = s.srch := rfl
@[simp] theorem setPolder_eng (p : Nat) (v : Polder) (s : State) : (setPolder p v s).eng = s.eng := rfl
@[simp] theorem setPolder_q (p : Nat) (v : Polder) (s : State) : (setPolder p v s).q = s.q := rfl
@[simp] theorem setPolder_fw (p : Nat) (v : Polder) (s : State) : (setPolder p v s).fw = s.fw := rfl
@[simp] theorem setPolder_tray (p : Nat) (v : Polder) (s : State) : (setPolder p v s).tray = s.tray := rfl
@[simp] theorem setPolder_port (p : Nat) (v : Polder) (s : State) : (setPolder p v s).port = s.port := rfl
@[simp] theorem setPolder_pwr (p : Nat) (v : Polder) (s : State) : (setPolder p v s).pwr = s.pwr := rfl
@[simp] theorem setPolder_flt (p : Nat) (v : Polder) (s : State) : (setPolder p v s).flt = s.flt := rfl
@[simp] theorem setPolder_recorder (p : Nat) (v : Polder) (s : State) : (setPolder p v s).recorder = s.recorder := rfl
@[simp] theorem setPolder_dbg (p : Nat) (v : Polder) (s : State) : (setPolder p v s).dbg = s.dbg := rfl
@[simp] theorem setPolder_ident (p : Nat) (v : Polder) (s : State) : (setPolder p v s).ident = s.ident := rfl
@[simp] theorem setPolder_pins (p : Nat) (v : Polder) (s : State) : (setPolder p v s).pins = s.pins := rfl
@[simp] theorem setPolder_regs (p : Nat) (v : Polder) (s : State) : (setPolder p v s).regs = s.regs := rfl
@[simp] theorem setPolder_time (p : Nat) (v : Polder) (s : State) : (setPolder p v s).time = s.time := rfl
@[simp] theorem setPolder_beat (p : Nat) (v : Polder) (s : State) : (setPolder p v s).beat = s.beat := rfl
@[simp] theorem setPolder_pending (p : Nat) (v : Polder) (s : State) : (setPolder p v s).pending = s.pending := rfl
@[simp] theorem setPolder_out (p : Nat) (v : Polder) (s : State) : (setPolder p v s).out = s.out := rfl
@[simp] theorem setPolder_free (p : Nat) (v : Polder) (s : State) : (setPolder p v s).free = s.free := rfl

@[simp] theorem setTcx_polders (t : Nat) (v : Tcx) (s : State) : (setTcx t v s).polders = s.polders := rfl
@[simp] theorem setTcx_segs (t : Nat) (v : Tcx) (s : State) : (setTcx t v s).segs = s.segs := rfl
@[simp] theorem setTcx_hit (t : Nat) (v : Tcx) (s : State) : (setTcx t v s).hit = s.hit := rfl
@[simp] theorem setTcx_coh (t : Nat) (v : Tcx) (s : State) : (setTcx t v s).coh = s.coh := rfl
@[simp] theorem setTcx_mem (t : Nat) (v : Tcx) (s : State) : (setTcx t v s).mem = s.mem := rfl
@[simp] theorem setTcx_res (t : Nat) (v : Tcx) (s : State) : (setTcx t v s).res = s.res := rfl
@[simp] theorem setTcx_tier (t : Nat) (v : Tcx) (s : State) : (setTcx t v s).tier = s.tier := rfl
@[simp] theorem setTcx_ftl (t : Nat) (v : Tcx) (s : State) : (setTcx t v s).ftl = s.ftl := rfl
@[simp] theorem setTcx_key (t : Nat) (v : Tcx) (s : State) : (setTcx t v s).key = s.key := rfl
@[simp] theorem setTcx_weir (t : Nat) (v : Tcx) (s : State) : (setTcx t v s).weir = s.weir := rfl
@[simp] theorem setTcx_copy (t : Nat) (v : Tcx) (s : State) : (setTcx t v s).copy = s.copy := rfl
@[simp] theorem setTcx_tbl (t : Nat) (v : Tcx) (s : State) : (setTcx t v s).tbl = s.tbl := rfl
@[simp] theorem setTcx_srch (t : Nat) (v : Tcx) (s : State) : (setTcx t v s).srch = s.srch := rfl
@[simp] theorem setTcx_eng (t : Nat) (v : Tcx) (s : State) : (setTcx t v s).eng = s.eng := rfl
@[simp] theorem setTcx_q (t : Nat) (v : Tcx) (s : State) : (setTcx t v s).q = s.q := rfl
@[simp] theorem setTcx_fw (t : Nat) (v : Tcx) (s : State) : (setTcx t v s).fw = s.fw := rfl
@[simp] theorem setTcx_tray (t : Nat) (v : Tcx) (s : State) : (setTcx t v s).tray = s.tray := rfl
@[simp] theorem setTcx_port (t : Nat) (v : Tcx) (s : State) : (setTcx t v s).port = s.port := rfl
@[simp] theorem setTcx_pwr (t : Nat) (v : Tcx) (s : State) : (setTcx t v s).pwr = s.pwr := rfl
@[simp] theorem setTcx_flt (t : Nat) (v : Tcx) (s : State) : (setTcx t v s).flt = s.flt := rfl
@[simp] theorem setTcx_recorder (t : Nat) (v : Tcx) (s : State) : (setTcx t v s).recorder = s.recorder := rfl
@[simp] theorem setTcx_dbg (t : Nat) (v : Tcx) (s : State) : (setTcx t v s).dbg = s.dbg := rfl
@[simp] theorem setTcx_ident (t : Nat) (v : Tcx) (s : State) : (setTcx t v s).ident = s.ident := rfl
@[simp] theorem setTcx_pins (t : Nat) (v : Tcx) (s : State) : (setTcx t v s).pins = s.pins := rfl
@[simp] theorem setTcx_regs (t : Nat) (v : Tcx) (s : State) : (setTcx t v s).regs = s.regs := rfl
@[simp] theorem setTcx_time (t : Nat) (v : Tcx) (s : State) : (setTcx t v s).time = s.time := rfl
@[simp] theorem setTcx_beat (t : Nat) (v : Tcx) (s : State) : (setTcx t v s).beat = s.beat := rfl
@[simp] theorem setTcx_pending (t : Nat) (v : Tcx) (s : State) : (setTcx t v s).pending = s.pending := rfl
@[simp] theorem setTcx_out (t : Nat) (v : Tcx) (s : State) : (setTcx t v s).out = s.out := rfl
@[simp] theorem setTcx_free (t : Nat) (v : Tcx) (s : State) : (setTcx t v s).free = s.free := rfl

@[simp] theorem setSeg_polders (t n : Nat) (v : Segment) (s : State) : (setSeg t n v s).polders = s.polders := rfl
@[simp] theorem setSeg_tcxs (t n : Nat) (v : Segment) (s : State) : (setSeg t n v s).tcxs = s.tcxs := rfl
@[simp] theorem setSeg_hit (t n : Nat) (v : Segment) (s : State) : (setSeg t n v s).hit = s.hit := rfl
@[simp] theorem setSeg_coh (t n : Nat) (v : Segment) (s : State) : (setSeg t n v s).coh = s.coh := rfl
@[simp] theorem setSeg_mem (t n : Nat) (v : Segment) (s : State) : (setSeg t n v s).mem = s.mem := rfl
@[simp] theorem setSeg_res (t n : Nat) (v : Segment) (s : State) : (setSeg t n v s).res = s.res := rfl
@[simp] theorem setSeg_tier (t n : Nat) (v : Segment) (s : State) : (setSeg t n v s).tier = s.tier := rfl
@[simp] theorem setSeg_ftl (t n : Nat) (v : Segment) (s : State) : (setSeg t n v s).ftl = s.ftl := rfl
@[simp] theorem setSeg_key (t n : Nat) (v : Segment) (s : State) : (setSeg t n v s).key = s.key := rfl
@[simp] theorem setSeg_weir (t n : Nat) (v : Segment) (s : State) : (setSeg t n v s).weir = s.weir := rfl
@[simp] theorem setSeg_copy (t n : Nat) (v : Segment) (s : State) : (setSeg t n v s).copy = s.copy := rfl
@[simp] theorem setSeg_tbl (t n : Nat) (v : Segment) (s : State) : (setSeg t n v s).tbl = s.tbl := rfl
@[simp] theorem setSeg_srch (t n : Nat) (v : Segment) (s : State) : (setSeg t n v s).srch = s.srch := rfl
@[simp] theorem setSeg_eng (t n : Nat) (v : Segment) (s : State) : (setSeg t n v s).eng = s.eng := rfl
@[simp] theorem setSeg_q (t n : Nat) (v : Segment) (s : State) : (setSeg t n v s).q = s.q := rfl
@[simp] theorem setSeg_fw (t n : Nat) (v : Segment) (s : State) : (setSeg t n v s).fw = s.fw := rfl
@[simp] theorem setSeg_tray (t n : Nat) (v : Segment) (s : State) : (setSeg t n v s).tray = s.tray := rfl
@[simp] theorem setSeg_port (t n : Nat) (v : Segment) (s : State) : (setSeg t n v s).port = s.port := rfl
@[simp] theorem setSeg_pwr (t n : Nat) (v : Segment) (s : State) : (setSeg t n v s).pwr = s.pwr := rfl
@[simp] theorem setSeg_flt (t n : Nat) (v : Segment) (s : State) : (setSeg t n v s).flt = s.flt := rfl
@[simp] theorem setSeg_recorder (t n : Nat) (v : Segment) (s : State) : (setSeg t n v s).recorder = s.recorder := rfl
@[simp] theorem setSeg_dbg (t n : Nat) (v : Segment) (s : State) : (setSeg t n v s).dbg = s.dbg := rfl
@[simp] theorem setSeg_ident (t n : Nat) (v : Segment) (s : State) : (setSeg t n v s).ident = s.ident := rfl
@[simp] theorem setSeg_pins (t n : Nat) (v : Segment) (s : State) : (setSeg t n v s).pins = s.pins := rfl
@[simp] theorem setSeg_regs (t n : Nat) (v : Segment) (s : State) : (setSeg t n v s).regs = s.regs := rfl
@[simp] theorem setSeg_time (t n : Nat) (v : Segment) (s : State) : (setSeg t n v s).time = s.time := rfl
@[simp] theorem setSeg_beat (t n : Nat) (v : Segment) (s : State) : (setSeg t n v s).beat = s.beat := rfl
@[simp] theorem setSeg_pending (t n : Nat) (v : Segment) (s : State) : (setSeg t n v s).pending = s.pending := rfl
@[simp] theorem setSeg_out (t n : Nat) (v : Segment) (s : State) : (setSeg t n v s).out = s.out := rfl
@[simp] theorem setSeg_free (t n : Nat) (v : Segment) (s : State) : (setSeg t n v s).free = s.free := rfl

@[simp] theorem setHit_polders (h : Nat) (v : HitEntry) (s : State) : (setHit h v s).polders = s.polders := rfl
@[simp] theorem setHit_tcxs (h : Nat) (v : HitEntry) (s : State) : (setHit h v s).tcxs = s.tcxs := rfl
@[simp] theorem setHit_segs (h : Nat) (v : HitEntry) (s : State) : (setHit h v s).segs = s.segs := rfl
@[simp] theorem setHit_coh (h : Nat) (v : HitEntry) (s : State) : (setHit h v s).coh = s.coh := rfl
@[simp] theorem setHit_mem (h : Nat) (v : HitEntry) (s : State) : (setHit h v s).mem = s.mem := rfl
@[simp] theorem setHit_res (h : Nat) (v : HitEntry) (s : State) : (setHit h v s).res = s.res := rfl
@[simp] theorem setHit_tier (h : Nat) (v : HitEntry) (s : State) : (setHit h v s).tier = s.tier := rfl
@[simp] theorem setHit_ftl (h : Nat) (v : HitEntry) (s : State) : (setHit h v s).ftl = s.ftl := rfl
@[simp] theorem setHit_key (h : Nat) (v : HitEntry) (s : State) : (setHit h v s).key = s.key := rfl
@[simp] theorem setHit_weir (h : Nat) (v : HitEntry) (s : State) : (setHit h v s).weir = s.weir := rfl
@[simp] theorem setHit_copy (h : Nat) (v : HitEntry) (s : State) : (setHit h v s).copy = s.copy := rfl
@[simp] theorem setHit_tbl (h : Nat) (v : HitEntry) (s : State) : (setHit h v s).tbl = s.tbl := rfl
@[simp] theorem setHit_srch (h : Nat) (v : HitEntry) (s : State) : (setHit h v s).srch = s.srch := rfl
@[simp] theorem setHit_eng (h : Nat) (v : HitEntry) (s : State) : (setHit h v s).eng = s.eng := rfl
@[simp] theorem setHit_q (h : Nat) (v : HitEntry) (s : State) : (setHit h v s).q = s.q := rfl
@[simp] theorem setHit_fw (h : Nat) (v : HitEntry) (s : State) : (setHit h v s).fw = s.fw := rfl
@[simp] theorem setHit_tray (h : Nat) (v : HitEntry) (s : State) : (setHit h v s).tray = s.tray := rfl
@[simp] theorem setHit_port (h : Nat) (v : HitEntry) (s : State) : (setHit h v s).port = s.port := rfl
@[simp] theorem setHit_pwr (h : Nat) (v : HitEntry) (s : State) : (setHit h v s).pwr = s.pwr := rfl
@[simp] theorem setHit_flt (h : Nat) (v : HitEntry) (s : State) : (setHit h v s).flt = s.flt := rfl
@[simp] theorem setHit_recorder (h : Nat) (v : HitEntry) (s : State) : (setHit h v s).recorder = s.recorder := rfl
@[simp] theorem setHit_dbg (h : Nat) (v : HitEntry) (s : State) : (setHit h v s).dbg = s.dbg := rfl
@[simp] theorem setHit_ident (h : Nat) (v : HitEntry) (s : State) : (setHit h v s).ident = s.ident := rfl
@[simp] theorem setHit_pins (h : Nat) (v : HitEntry) (s : State) : (setHit h v s).pins = s.pins := rfl
@[simp] theorem setHit_regs (h : Nat) (v : HitEntry) (s : State) : (setHit h v s).regs = s.regs := rfl
@[simp] theorem setHit_time (h : Nat) (v : HitEntry) (s : State) : (setHit h v s).time = s.time := rfl
@[simp] theorem setHit_beat (h : Nat) (v : HitEntry) (s : State) : (setHit h v s).beat = s.beat := rfl
@[simp] theorem setHit_pending (h : Nat) (v : HitEntry) (s : State) : (setHit h v s).pending = s.pending := rfl
@[simp] theorem setHit_out (h : Nat) (v : HitEntry) (s : State) : (setHit h v s).out = s.out := rfl
@[simp] theorem setHit_free (h : Nat) (v : HitEntry) (s : State) : (setHit h v s).free = s.free := rfl

@[simp] theorem setNand_polders (n : Nat) (v : Nand) (s : State) : (setNand n v s).polders = s.polders := rfl
@[simp] theorem setNand_tcxs (n : Nat) (v : Nand) (s : State) : (setNand n v s).tcxs = s.tcxs := rfl
@[simp] theorem setNand_segs (n : Nat) (v : Nand) (s : State) : (setNand n v s).segs = s.segs := rfl
@[simp] theorem setNand_hit (n : Nat) (v : Nand) (s : State) : (setNand n v s).hit = s.hit := rfl
@[simp] theorem setNand_coh (n : Nat) (v : Nand) (s : State) : (setNand n v s).coh = s.coh := rfl
@[simp] theorem setNand_mem (n : Nat) (v : Nand) (s : State) : (setNand n v s).mem = s.mem := rfl
@[simp] theorem setNand_res (n : Nat) (v : Nand) (s : State) : (setNand n v s).res = s.res := rfl
@[simp] theorem setNand_tier (n : Nat) (v : Nand) (s : State) : (setNand n v s).tier = s.tier := rfl
@[simp] theorem setNand_key (n : Nat) (v : Nand) (s : State) : (setNand n v s).key = s.key := rfl
@[simp] theorem setNand_weir (n : Nat) (v : Nand) (s : State) : (setNand n v s).weir = s.weir := rfl
@[simp] theorem setNand_copy (n : Nat) (v : Nand) (s : State) : (setNand n v s).copy = s.copy := rfl
@[simp] theorem setNand_tbl (n : Nat) (v : Nand) (s : State) : (setNand n v s).tbl = s.tbl := rfl
@[simp] theorem setNand_srch (n : Nat) (v : Nand) (s : State) : (setNand n v s).srch = s.srch := rfl
@[simp] theorem setNand_eng (n : Nat) (v : Nand) (s : State) : (setNand n v s).eng = s.eng := rfl
@[simp] theorem setNand_q (n : Nat) (v : Nand) (s : State) : (setNand n v s).q = s.q := rfl
@[simp] theorem setNand_fw (n : Nat) (v : Nand) (s : State) : (setNand n v s).fw = s.fw := rfl
@[simp] theorem setNand_tray (n : Nat) (v : Nand) (s : State) : (setNand n v s).tray = s.tray := rfl
@[simp] theorem setNand_port (n : Nat) (v : Nand) (s : State) : (setNand n v s).port = s.port := rfl
@[simp] theorem setNand_pwr (n : Nat) (v : Nand) (s : State) : (setNand n v s).pwr = s.pwr := rfl
@[simp] theorem setNand_flt (n : Nat) (v : Nand) (s : State) : (setNand n v s).flt = s.flt := rfl
@[simp] theorem setNand_recorder (n : Nat) (v : Nand) (s : State) : (setNand n v s).recorder = s.recorder := rfl
@[simp] theorem setNand_dbg (n : Nat) (v : Nand) (s : State) : (setNand n v s).dbg = s.dbg := rfl
@[simp] theorem setNand_ident (n : Nat) (v : Nand) (s : State) : (setNand n v s).ident = s.ident := rfl
@[simp] theorem setNand_pins (n : Nat) (v : Nand) (s : State) : (setNand n v s).pins = s.pins := rfl
@[simp] theorem setNand_regs (n : Nat) (v : Nand) (s : State) : (setNand n v s).regs = s.regs := rfl
@[simp] theorem setNand_time (n : Nat) (v : Nand) (s : State) : (setNand n v s).time = s.time := rfl
@[simp] theorem setNand_beat (n : Nat) (v : Nand) (s : State) : (setNand n v s).beat = s.beat := rfl
@[simp] theorem setNand_pending (n : Nat) (v : Nand) (s : State) : (setNand n v s).pending = s.pending := rfl
@[simp] theorem setNand_out (n : Nat) (v : Nand) (s : State) : (setNand n v s).out = s.out := rfl
@[simp] theorem setNand_free (n : Nat) (v : Nand) (s : State) : (setNand n v s).free = s.free := rfl

@[simp] theorem modCmd_polders (k : Nat) (f : Cmd → Cmd) (s : State) : (modCmd k f s).polders = s.polders := rfl
@[simp] theorem modCmd_tcxs (k : Nat) (f : Cmd → Cmd) (s : State) : (modCmd k f s).tcxs = s.tcxs := rfl
@[simp] theorem modCmd_segs (k : Nat) (f : Cmd → Cmd) (s : State) : (modCmd k f s).segs = s.segs := rfl
@[simp] theorem modCmd_hit (k : Nat) (f : Cmd → Cmd) (s : State) : (modCmd k f s).hit = s.hit := rfl
@[simp] theorem modCmd_coh (k : Nat) (f : Cmd → Cmd) (s : State) : (modCmd k f s).coh = s.coh := rfl
@[simp] theorem modCmd_mem (k : Nat) (f : Cmd → Cmd) (s : State) : (modCmd k f s).mem = s.mem := rfl
@[simp] theorem modCmd_res (k : Nat) (f : Cmd → Cmd) (s : State) : (modCmd k f s).res = s.res := rfl
@[simp] theorem modCmd_tier (k : Nat) (f : Cmd → Cmd) (s : State) : (modCmd k f s).tier = s.tier := rfl
@[simp] theorem modCmd_ftl (k : Nat) (f : Cmd → Cmd) (s : State) : (modCmd k f s).ftl = s.ftl := rfl
@[simp] theorem modCmd_key (k : Nat) (f : Cmd → Cmd) (s : State) : (modCmd k f s).key = s.key := rfl
@[simp] theorem modCmd_weir (k : Nat) (f : Cmd → Cmd) (s : State) : (modCmd k f s).weir = s.weir := rfl
@[simp] theorem modCmd_copy (k : Nat) (f : Cmd → Cmd) (s : State) : (modCmd k f s).copy = s.copy := rfl
@[simp] theorem modCmd_tbl (k : Nat) (f : Cmd → Cmd) (s : State) : (modCmd k f s).tbl = s.tbl := rfl
@[simp] theorem modCmd_srch (k : Nat) (f : Cmd → Cmd) (s : State) : (modCmd k f s).srch = s.srch := rfl
@[simp] theorem modCmd_eng (k : Nat) (f : Cmd → Cmd) (s : State) : (modCmd k f s).eng = s.eng := rfl
@[simp] theorem modCmd_fw (k : Nat) (f : Cmd → Cmd) (s : State) : (modCmd k f s).fw = s.fw := rfl
@[simp] theorem modCmd_tray (k : Nat) (f : Cmd → Cmd) (s : State) : (modCmd k f s).tray = s.tray := rfl
@[simp] theorem modCmd_port (k : Nat) (f : Cmd → Cmd) (s : State) : (modCmd k f s).port = s.port := rfl
@[simp] theorem modCmd_pwr (k : Nat) (f : Cmd → Cmd) (s : State) : (modCmd k f s).pwr = s.pwr := rfl
@[simp] theorem modCmd_flt (k : Nat) (f : Cmd → Cmd) (s : State) : (modCmd k f s).flt = s.flt := rfl
@[simp] theorem modCmd_recorder (k : Nat) (f : Cmd → Cmd) (s : State) : (modCmd k f s).recorder = s.recorder := rfl
@[simp] theorem modCmd_dbg (k : Nat) (f : Cmd → Cmd) (s : State) : (modCmd k f s).dbg = s.dbg := rfl
@[simp] theorem modCmd_ident (k : Nat) (f : Cmd → Cmd) (s : State) : (modCmd k f s).ident = s.ident := rfl
@[simp] theorem modCmd_pins (k : Nat) (f : Cmd → Cmd) (s : State) : (modCmd k f s).pins = s.pins := rfl
@[simp] theorem modCmd_regs (k : Nat) (f : Cmd → Cmd) (s : State) : (modCmd k f s).regs = s.regs := rfl
@[simp] theorem modCmd_time (k : Nat) (f : Cmd → Cmd) (s : State) : (modCmd k f s).time = s.time := rfl
@[simp] theorem modCmd_beat (k : Nat) (f : Cmd → Cmd) (s : State) : (modCmd k f s).beat = s.beat := rfl
@[simp] theorem modCmd_pending (k : Nat) (f : Cmd → Cmd) (s : State) : (modCmd k f s).pending = s.pending := rfl
@[simp] theorem modCmd_out (k : Nat) (f : Cmd → Cmd) (s : State) : (modCmd k f s).out = s.out := rfl
@[simp] theorem modCmd_free (k : Nat) (f : Cmd → Cmd) (s : State) : (modCmd k f s).free = s.free := rfl

@[simp] theorem putRun_polders (k : Nat) (r : CrownRun) (s : State) : (putRun k r s).polders = s.polders := rfl
@[simp] theorem putRun_tcxs (k : Nat) (r : CrownRun) (s : State) : (putRun k r s).tcxs = s.tcxs := rfl
@[simp] theorem putRun_segs (k : Nat) (r : CrownRun) (s : State) : (putRun k r s).segs = s.segs := rfl
@[simp] theorem putRun_hit (k : Nat) (r : CrownRun) (s : State) : (putRun k r s).hit = s.hit := rfl
@[simp] theorem putRun_coh (k : Nat) (r : CrownRun) (s : State) : (putRun k r s).coh = s.coh := rfl
@[simp] theorem putRun_mem (k : Nat) (r : CrownRun) (s : State) : (putRun k r s).mem = s.mem := rfl
@[simp] theorem putRun_res (k : Nat) (r : CrownRun) (s : State) : (putRun k r s).res = s.res := rfl
@[simp] theorem putRun_tier (k : Nat) (r : CrownRun) (s : State) : (putRun k r s).tier = s.tier := rfl
@[simp] theorem putRun_ftl (k : Nat) (r : CrownRun) (s : State) : (putRun k r s).ftl = s.ftl := rfl
@[simp] theorem putRun_key (k : Nat) (r : CrownRun) (s : State) : (putRun k r s).key = s.key := rfl
@[simp] theorem putRun_weir (k : Nat) (r : CrownRun) (s : State) : (putRun k r s).weir = s.weir := rfl
@[simp] theorem putRun_copy (k : Nat) (r : CrownRun) (s : State) : (putRun k r s).copy = s.copy := rfl
@[simp] theorem putRun_tbl (k : Nat) (r : CrownRun) (s : State) : (putRun k r s).tbl = s.tbl := rfl
@[simp] theorem putRun_srch (k : Nat) (r : CrownRun) (s : State) : (putRun k r s).srch = s.srch := rfl
@[simp] theorem putRun_q (k : Nat) (r : CrownRun) (s : State) : (putRun k r s).q = s.q := rfl
@[simp] theorem putRun_fw (k : Nat) (r : CrownRun) (s : State) : (putRun k r s).fw = s.fw := rfl
@[simp] theorem putRun_tray (k : Nat) (r : CrownRun) (s : State) : (putRun k r s).tray = s.tray := rfl
@[simp] theorem putRun_port (k : Nat) (r : CrownRun) (s : State) : (putRun k r s).port = s.port := rfl
@[simp] theorem putRun_pwr (k : Nat) (r : CrownRun) (s : State) : (putRun k r s).pwr = s.pwr := rfl
@[simp] theorem putRun_flt (k : Nat) (r : CrownRun) (s : State) : (putRun k r s).flt = s.flt := rfl
@[simp] theorem putRun_recorder (k : Nat) (r : CrownRun) (s : State) : (putRun k r s).recorder = s.recorder := rfl
@[simp] theorem putRun_dbg (k : Nat) (r : CrownRun) (s : State) : (putRun k r s).dbg = s.dbg := rfl
@[simp] theorem putRun_ident (k : Nat) (r : CrownRun) (s : State) : (putRun k r s).ident = s.ident := rfl
@[simp] theorem putRun_pins (k : Nat) (r : CrownRun) (s : State) : (putRun k r s).pins = s.pins := rfl
@[simp] theorem putRun_regs (k : Nat) (r : CrownRun) (s : State) : (putRun k r s).regs = s.regs := rfl
@[simp] theorem putRun_time (k : Nat) (r : CrownRun) (s : State) : (putRun k r s).time = s.time := rfl
@[simp] theorem putRun_beat (k : Nat) (r : CrownRun) (s : State) : (putRun k r s).beat = s.beat := rfl
@[simp] theorem putRun_pending (k : Nat) (r : CrownRun) (s : State) : (putRun k r s).pending = s.pending := rfl
@[simp] theorem putRun_out (k : Nat) (r : CrownRun) (s : State) : (putRun k r s).out = s.out := rfl
@[simp] theorem putRun_free (k : Nat) (r : CrownRun) (s : State) : (putRun k r s).free = s.free := rfl

@[simp] theorem modCluster_polders (cl : Nat) (f : Cluster → Cluster) (s : State) : (modCluster cl f s).polders = s.polders := rfl
@[simp] theorem modCluster_tcxs (cl : Nat) (f : Cluster → Cluster) (s : State) : (modCluster cl f s).tcxs = s.tcxs := rfl
@[simp] theorem modCluster_segs (cl : Nat) (f : Cluster → Cluster) (s : State) : (modCluster cl f s).segs = s.segs := rfl
@[simp] theorem modCluster_hit (cl : Nat) (f : Cluster → Cluster) (s : State) : (modCluster cl f s).hit = s.hit := rfl
@[simp] theorem modCluster_coh (cl : Nat) (f : Cluster → Cluster) (s : State) : (modCluster cl f s).coh = s.coh := rfl
@[simp] theorem modCluster_mem (cl : Nat) (f : Cluster → Cluster) (s : State) : (modCluster cl f s).mem = s.mem := rfl
@[simp] theorem modCluster_res (cl : Nat) (f : Cluster → Cluster) (s : State) : (modCluster cl f s).res = s.res := rfl
@[simp] theorem modCluster_tier (cl : Nat) (f : Cluster → Cluster) (s : State) : (modCluster cl f s).tier = s.tier := rfl
@[simp] theorem modCluster_ftl (cl : Nat) (f : Cluster → Cluster) (s : State) : (modCluster cl f s).ftl = s.ftl := rfl
@[simp] theorem modCluster_key (cl : Nat) (f : Cluster → Cluster) (s : State) : (modCluster cl f s).key = s.key := rfl
@[simp] theorem modCluster_weir (cl : Nat) (f : Cluster → Cluster) (s : State) : (modCluster cl f s).weir = s.weir := rfl
@[simp] theorem modCluster_copy (cl : Nat) (f : Cluster → Cluster) (s : State) : (modCluster cl f s).copy = s.copy := rfl
@[simp] theorem modCluster_tbl (cl : Nat) (f : Cluster → Cluster) (s : State) : (modCluster cl f s).tbl = s.tbl := rfl
@[simp] theorem modCluster_srch (cl : Nat) (f : Cluster → Cluster) (s : State) : (modCluster cl f s).srch = s.srch := rfl
@[simp] theorem modCluster_eng (cl : Nat) (f : Cluster → Cluster) (s : State) : (modCluster cl f s).eng = s.eng := rfl
@[simp] theorem modCluster_q (cl : Nat) (f : Cluster → Cluster) (s : State) : (modCluster cl f s).q = s.q := rfl
@[simp] theorem modCluster_fw (cl : Nat) (f : Cluster → Cluster) (s : State) : (modCluster cl f s).fw = s.fw := rfl
@[simp] theorem modCluster_tray (cl : Nat) (f : Cluster → Cluster) (s : State) : (modCluster cl f s).tray = s.tray := rfl
@[simp] theorem modCluster_port (cl : Nat) (f : Cluster → Cluster) (s : State) : (modCluster cl f s).port = s.port := rfl
@[simp] theorem modCluster_flt (cl : Nat) (f : Cluster → Cluster) (s : State) : (modCluster cl f s).flt = s.flt := rfl
@[simp] theorem modCluster_recorder (cl : Nat) (f : Cluster → Cluster) (s : State) : (modCluster cl f s).recorder = s.recorder := rfl
@[simp] theorem modCluster_dbg (cl : Nat) (f : Cluster → Cluster) (s : State) : (modCluster cl f s).dbg = s.dbg := rfl
@[simp] theorem modCluster_ident (cl : Nat) (f : Cluster → Cluster) (s : State) : (modCluster cl f s).ident = s.ident := rfl
@[simp] theorem modCluster_pins (cl : Nat) (f : Cluster → Cluster) (s : State) : (modCluster cl f s).pins = s.pins := rfl
@[simp] theorem modCluster_regs (cl : Nat) (f : Cluster → Cluster) (s : State) : (modCluster cl f s).regs = s.regs := rfl
@[simp] theorem modCluster_time (cl : Nat) (f : Cluster → Cluster) (s : State) : (modCluster cl f s).time = s.time := rfl
@[simp] theorem modCluster_beat (cl : Nat) (f : Cluster → Cluster) (s : State) : (modCluster cl f s).beat = s.beat := rfl
@[simp] theorem modCluster_pending (cl : Nat) (f : Cluster → Cluster) (s : State) : (modCluster cl f s).pending = s.pending := rfl
@[simp] theorem modCluster_out (cl : Nat) (f : Cluster → Cluster) (s : State) : (modCluster cl f s).out = s.out := rfl
@[simp] theorem modCluster_free (cl : Nat) (f : Cluster → Cluster) (s : State) : (modCluster cl f s).free = s.free := rfl

@[simp] theorem drawFree_polders  (s : State) : (drawFree  s).polders = s.polders := rfl
@[simp] theorem drawFree_tcxs  (s : State) : (drawFree  s).tcxs = s.tcxs := rfl
@[simp] theorem drawFree_segs  (s : State) : (drawFree  s).segs = s.segs := rfl
@[simp] theorem drawFree_hit  (s : State) : (drawFree  s).hit = s.hit := rfl
@[simp] theorem drawFree_coh  (s : State) : (drawFree  s).coh = s.coh := rfl
@[simp] theorem drawFree_mem  (s : State) : (drawFree  s).mem = s.mem := rfl
@[simp] theorem drawFree_res  (s : State) : (drawFree  s).res = s.res := rfl
@[simp] theorem drawFree_tier  (s : State) : (drawFree  s).tier = s.tier := rfl
@[simp] theorem drawFree_ftl  (s : State) : (drawFree  s).ftl = s.ftl := rfl
@[simp] theorem drawFree_key  (s : State) : (drawFree  s).key = s.key := rfl
@[simp] theorem drawFree_weir  (s : State) : (drawFree  s).weir = s.weir := rfl
@[simp] theorem drawFree_copy  (s : State) : (drawFree  s).copy = s.copy := rfl
@[simp] theorem drawFree_tbl  (s : State) : (drawFree  s).tbl = s.tbl := rfl
@[simp] theorem drawFree_srch  (s : State) : (drawFree  s).srch = s.srch := rfl
@[simp] theorem drawFree_eng  (s : State) : (drawFree  s).eng = s.eng := rfl
@[simp] theorem drawFree_q  (s : State) : (drawFree  s).q = s.q := rfl
@[simp] theorem drawFree_fw  (s : State) : (drawFree  s).fw = s.fw := rfl
@[simp] theorem drawFree_tray  (s : State) : (drawFree  s).tray = s.tray := rfl
@[simp] theorem drawFree_port  (s : State) : (drawFree  s).port = s.port := rfl
@[simp] theorem drawFree_pwr  (s : State) : (drawFree  s).pwr = s.pwr := rfl
@[simp] theorem drawFree_flt  (s : State) : (drawFree  s).flt = s.flt := rfl
@[simp] theorem drawFree_recorder  (s : State) : (drawFree  s).recorder = s.recorder := rfl
@[simp] theorem drawFree_dbg  (s : State) : (drawFree  s).dbg = s.dbg := rfl
@[simp] theorem drawFree_ident  (s : State) : (drawFree  s).ident = s.ident := rfl
@[simp] theorem drawFree_pins  (s : State) : (drawFree  s).pins = s.pins := rfl
@[simp] theorem drawFree_regs  (s : State) : (drawFree  s).regs = s.regs := rfl
@[simp] theorem drawFree_time  (s : State) : (drawFree  s).time = s.time := rfl
@[simp] theorem drawFree_beat  (s : State) : (drawFree  s).beat = s.beat := rfl
@[simp] theorem drawFree_pending  (s : State) : (drawFree  s).pending = s.pending := rfl
@[simp] theorem drawFree_out  (s : State) : (drawFree  s).out = s.out := rfl

@[simp] theorem dispatchCmd_polders (k : Nat) (s : State) : (dispatchCmd k s).polders = s.polders := rfl
@[simp] theorem dispatchCmd_tcxs (k : Nat) (s : State) : (dispatchCmd k s).tcxs = s.tcxs := rfl
@[simp] theorem dispatchCmd_segs (k : Nat) (s : State) : (dispatchCmd k s).segs = s.segs := rfl
@[simp] theorem dispatchCmd_hit (k : Nat) (s : State) : (dispatchCmd k s).hit = s.hit := rfl
@[simp] theorem dispatchCmd_coh (k : Nat) (s : State) : (dispatchCmd k s).coh = s.coh := rfl
@[simp] theorem dispatchCmd_mem (k : Nat) (s : State) : (dispatchCmd k s).mem = s.mem := rfl
@[simp] theorem dispatchCmd_res (k : Nat) (s : State) : (dispatchCmd k s).res = s.res := rfl
@[simp] theorem dispatchCmd_tier (k : Nat) (s : State) : (dispatchCmd k s).tier = s.tier := rfl
@[simp] theorem dispatchCmd_ftl (k : Nat) (s : State) : (dispatchCmd k s).ftl = s.ftl := rfl
@[simp] theorem dispatchCmd_key (k : Nat) (s : State) : (dispatchCmd k s).key = s.key := rfl
@[simp] theorem dispatchCmd_weir (k : Nat) (s : State) : (dispatchCmd k s).weir = s.weir := rfl
@[simp] theorem dispatchCmd_copy (k : Nat) (s : State) : (dispatchCmd k s).copy = s.copy := rfl
@[simp] theorem dispatchCmd_tbl (k : Nat) (s : State) : (dispatchCmd k s).tbl = s.tbl := rfl
@[simp] theorem dispatchCmd_srch (k : Nat) (s : State) : (dispatchCmd k s).srch = s.srch := rfl
@[simp] theorem dispatchCmd_eng (k : Nat) (s : State) : (dispatchCmd k s).eng = s.eng := rfl
@[simp] theorem dispatchCmd_fw (k : Nat) (s : State) : (dispatchCmd k s).fw = s.fw := rfl
@[simp] theorem dispatchCmd_tray (k : Nat) (s : State) : (dispatchCmd k s).tray = s.tray := rfl
@[simp] theorem dispatchCmd_port (k : Nat) (s : State) : (dispatchCmd k s).port = s.port := rfl
@[simp] theorem dispatchCmd_pwr (k : Nat) (s : State) : (dispatchCmd k s).pwr = s.pwr := rfl
@[simp] theorem dispatchCmd_flt (k : Nat) (s : State) : (dispatchCmd k s).flt = s.flt := rfl
@[simp] theorem dispatchCmd_recorder (k : Nat) (s : State) : (dispatchCmd k s).recorder = s.recorder := rfl
@[simp] theorem dispatchCmd_dbg (k : Nat) (s : State) : (dispatchCmd k s).dbg = s.dbg := rfl
@[simp] theorem dispatchCmd_ident (k : Nat) (s : State) : (dispatchCmd k s).ident = s.ident := rfl
@[simp] theorem dispatchCmd_pins (k : Nat) (s : State) : (dispatchCmd k s).pins = s.pins := rfl
@[simp] theorem dispatchCmd_regs (k : Nat) (s : State) : (dispatchCmd k s).regs = s.regs := rfl
@[simp] theorem dispatchCmd_time (k : Nat) (s : State) : (dispatchCmd k s).time = s.time := rfl
@[simp] theorem dispatchCmd_beat (k : Nat) (s : State) : (dispatchCmd k s).beat = s.beat := rfl
@[simp] theorem dispatchCmd_pending (k : Nat) (s : State) : (dispatchCmd k s).pending = s.pending := rfl
@[simp] theorem dispatchCmd_out (k : Nat) (s : State) : (dispatchCmd k s).out = s.out := rfl
@[simp] theorem dispatchCmd_free (k : Nat) (s : State) : (dispatchCmd k s).free = s.free := rfl

@[simp] theorem modPolder_tcxs (p : Nat) (f : Polder → Polder) (s : State) : (modPolder p f s).tcxs = s.tcxs := rfl
@[simp] theorem modPolder_segs (p : Nat) (f : Polder → Polder) (s : State) : (modPolder p f s).segs = s.segs := rfl
@[simp] theorem modPolder_hit (p : Nat) (f : Polder → Polder) (s : State) : (modPolder p f s).hit = s.hit := rfl
@[simp] theorem modPolder_coh (p : Nat) (f : Polder → Polder) (s : State) : (modPolder p f s).coh = s.coh := rfl
@[simp] theorem modPolder_mem (p : Nat) (f : Polder → Polder) (s : State) : (modPolder p f s).mem = s.mem := rfl
@[simp] theorem modPolder_res (p : Nat) (f : Polder → Polder) (s : State) : (modPolder p f s).res = s.res := rfl
@[simp] theorem modPolder_tier (p : Nat) (f : Polder → Polder) (s : State) : (modPolder p f s).tier = s.tier := rfl
@[simp] theorem modPolder_ftl (p : Nat) (f : Polder → Polder) (s : State) : (modPolder p f s).ftl = s.ftl := rfl
@[simp] theorem modPolder_key (p : Nat) (f : Polder → Polder) (s : State) : (modPolder p f s).key = s.key := rfl
@[simp] theorem modPolder_weir (p : Nat) (f : Polder → Polder) (s : State) : (modPolder p f s).weir = s.weir := rfl
@[simp] theorem modPolder_copy (p : Nat) (f : Polder → Polder) (s : State) : (modPolder p f s).copy = s.copy := rfl
@[simp] theorem modPolder_tbl (p : Nat) (f : Polder → Polder) (s : State) : (modPolder p f s).tbl = s.tbl := rfl
@[simp] theorem modPolder_srch (p : Nat) (f : Polder → Polder) (s : State) : (modPolder p f s).srch = s.srch := rfl
@[simp] theorem modPolder_eng (p : Nat) (f : Polder → Polder) (s : State) : (modPolder p f s).eng = s.eng := rfl
@[simp] theorem modPolder_q (p : Nat) (f : Polder → Polder) (s : State) : (modPolder p f s).q = s.q := rfl
@[simp] theorem modPolder_fw (p : Nat) (f : Polder → Polder) (s : State) : (modPolder p f s).fw = s.fw := rfl
@[simp] theorem modPolder_tray (p : Nat) (f : Polder → Polder) (s : State) : (modPolder p f s).tray = s.tray := rfl
@[simp] theorem modPolder_port (p : Nat) (f : Polder → Polder) (s : State) : (modPolder p f s).port = s.port := rfl
@[simp] theorem modPolder_pwr (p : Nat) (f : Polder → Polder) (s : State) : (modPolder p f s).pwr = s.pwr := rfl
@[simp] theorem modPolder_flt (p : Nat) (f : Polder → Polder) (s : State) : (modPolder p f s).flt = s.flt := rfl
@[simp] theorem modPolder_recorder (p : Nat) (f : Polder → Polder) (s : State) : (modPolder p f s).recorder = s.recorder := rfl
@[simp] theorem modPolder_dbg (p : Nat) (f : Polder → Polder) (s : State) : (modPolder p f s).dbg = s.dbg := rfl
@[simp] theorem modPolder_ident (p : Nat) (f : Polder → Polder) (s : State) : (modPolder p f s).ident = s.ident := rfl
@[simp] theorem modPolder_pins (p : Nat) (f : Polder → Polder) (s : State) : (modPolder p f s).pins = s.pins := rfl
@[simp] theorem modPolder_regs (p : Nat) (f : Polder → Polder) (s : State) : (modPolder p f s).regs = s.regs := rfl
@[simp] theorem modPolder_time (p : Nat) (f : Polder → Polder) (s : State) : (modPolder p f s).time = s.time := rfl
@[simp] theorem modPolder_beat (p : Nat) (f : Polder → Polder) (s : State) : (modPolder p f s).beat = s.beat := rfl
@[simp] theorem modPolder_pending (p : Nat) (f : Polder → Polder) (s : State) : (modPolder p f s).pending = s.pending := rfl
@[simp] theorem modPolder_out (p : Nat) (f : Polder → Polder) (s : State) : (modPolder p f s).out = s.out := rfl
@[simp] theorem modPolder_free (p : Nat) (f : Polder → Polder) (s : State) : (modPolder p f s).free = s.free := rfl

@[simp] theorem modTcx_polders (t : Nat) (f : Tcx → Tcx) (s : State) : (modTcx t f s).polders = s.polders := rfl
@[simp] theorem modTcx_segs (t : Nat) (f : Tcx → Tcx) (s : State) : (modTcx t f s).segs = s.segs := rfl
@[simp] theorem modTcx_hit (t : Nat) (f : Tcx → Tcx) (s : State) : (modTcx t f s).hit = s.hit := rfl
@[simp] theorem modTcx_coh (t : Nat) (f : Tcx → Tcx) (s : State) : (modTcx t f s).coh = s.coh := rfl
@[simp] theorem modTcx_mem (t : Nat) (f : Tcx → Tcx) (s : State) : (modTcx t f s).mem = s.mem := rfl
@[simp] theorem modTcx_res (t : Nat) (f : Tcx → Tcx) (s : State) : (modTcx t f s).res = s.res := rfl
@[simp] theorem modTcx_tier (t : Nat) (f : Tcx → Tcx) (s : State) : (modTcx t f s).tier = s.tier := rfl
@[simp] theorem modTcx_ftl (t : Nat) (f : Tcx → Tcx) (s : State) : (modTcx t f s).ftl = s.ftl := rfl
@[simp] theorem modTcx_key (t : Nat) (f : Tcx → Tcx) (s : State) : (modTcx t f s).key = s.key := rfl
@[simp] theorem modTcx_weir (t : Nat) (f : Tcx → Tcx) (s : State) : (modTcx t f s).weir = s.weir := rfl
@[simp] theorem modTcx_copy (t : Nat) (f : Tcx → Tcx) (s : State) : (modTcx t f s).copy = s.copy := rfl
@[simp] theorem modTcx_tbl (t : Nat) (f : Tcx → Tcx) (s : State) : (modTcx t f s).tbl = s.tbl := rfl
@[simp] theorem modTcx_srch (t : Nat) (f : Tcx → Tcx) (s : State) : (modTcx t f s).srch = s.srch := rfl
@[simp] theorem modTcx_eng (t : Nat) (f : Tcx → Tcx) (s : State) : (modTcx t f s).eng = s.eng := rfl
@[simp] theorem modTcx_q (t : Nat) (f : Tcx → Tcx) (s : State) : (modTcx t f s).q = s.q := rfl
@[simp] theorem modTcx_fw (t : Nat) (f : Tcx → Tcx) (s : State) : (modTcx t f s).fw = s.fw := rfl
@[simp] theorem modTcx_tray (t : Nat) (f : Tcx → Tcx) (s : State) : (modTcx t f s).tray = s.tray := rfl
@[simp] theorem modTcx_port (t : Nat) (f : Tcx → Tcx) (s : State) : (modTcx t f s).port = s.port := rfl
@[simp] theorem modTcx_pwr (t : Nat) (f : Tcx → Tcx) (s : State) : (modTcx t f s).pwr = s.pwr := rfl
@[simp] theorem modTcx_flt (t : Nat) (f : Tcx → Tcx) (s : State) : (modTcx t f s).flt = s.flt := rfl
@[simp] theorem modTcx_recorder (t : Nat) (f : Tcx → Tcx) (s : State) : (modTcx t f s).recorder = s.recorder := rfl
@[simp] theorem modTcx_dbg (t : Nat) (f : Tcx → Tcx) (s : State) : (modTcx t f s).dbg = s.dbg := rfl
@[simp] theorem modTcx_ident (t : Nat) (f : Tcx → Tcx) (s : State) : (modTcx t f s).ident = s.ident := rfl
@[simp] theorem modTcx_pins (t : Nat) (f : Tcx → Tcx) (s : State) : (modTcx t f s).pins = s.pins := rfl
@[simp] theorem modTcx_regs (t : Nat) (f : Tcx → Tcx) (s : State) : (modTcx t f s).regs = s.regs := rfl
@[simp] theorem modTcx_time (t : Nat) (f : Tcx → Tcx) (s : State) : (modTcx t f s).time = s.time := rfl
@[simp] theorem modTcx_beat (t : Nat) (f : Tcx → Tcx) (s : State) : (modTcx t f s).beat = s.beat := rfl
@[simp] theorem modTcx_pending (t : Nat) (f : Tcx → Tcx) (s : State) : (modTcx t f s).pending = s.pending := rfl
@[simp] theorem modTcx_out (t : Nat) (f : Tcx → Tcx) (s : State) : (modTcx t f s).out = s.out := rfl
@[simp] theorem modTcx_free (t : Nat) (f : Tcx → Tcx) (s : State) : (modTcx t f s).free = s.free := rfl

@[simp] theorem modHit_polders (h : Nat) (f : HitEntry → HitEntry) (s : State) : (modHit h f s).polders = s.polders := rfl
@[simp] theorem modHit_tcxs (h : Nat) (f : HitEntry → HitEntry) (s : State) : (modHit h f s).tcxs = s.tcxs := rfl
@[simp] theorem modHit_segs (h : Nat) (f : HitEntry → HitEntry) (s : State) : (modHit h f s).segs = s.segs := rfl
@[simp] theorem modHit_coh (h : Nat) (f : HitEntry → HitEntry) (s : State) : (modHit h f s).coh = s.coh := rfl
@[simp] theorem modHit_mem (h : Nat) (f : HitEntry → HitEntry) (s : State) : (modHit h f s).mem = s.mem := rfl
@[simp] theorem modHit_res (h : Nat) (f : HitEntry → HitEntry) (s : State) : (modHit h f s).res = s.res := rfl
@[simp] theorem modHit_tier (h : Nat) (f : HitEntry → HitEntry) (s : State) : (modHit h f s).tier = s.tier := rfl
@[simp] theorem modHit_ftl (h : Nat) (f : HitEntry → HitEntry) (s : State) : (modHit h f s).ftl = s.ftl := rfl
@[simp] theorem modHit_key (h : Nat) (f : HitEntry → HitEntry) (s : State) : (modHit h f s).key = s.key := rfl
@[simp] theorem modHit_weir (h : Nat) (f : HitEntry → HitEntry) (s : State) : (modHit h f s).weir = s.weir := rfl
@[simp] theorem modHit_copy (h : Nat) (f : HitEntry → HitEntry) (s : State) : (modHit h f s).copy = s.copy := rfl
@[simp] theorem modHit_tbl (h : Nat) (f : HitEntry → HitEntry) (s : State) : (modHit h f s).tbl = s.tbl := rfl
@[simp] theorem modHit_srch (h : Nat) (f : HitEntry → HitEntry) (s : State) : (modHit h f s).srch = s.srch := rfl
@[simp] theorem modHit_eng (h : Nat) (f : HitEntry → HitEntry) (s : State) : (modHit h f s).eng = s.eng := rfl
@[simp] theorem modHit_q (h : Nat) (f : HitEntry → HitEntry) (s : State) : (modHit h f s).q = s.q := rfl
@[simp] theorem modHit_fw (h : Nat) (f : HitEntry → HitEntry) (s : State) : (modHit h f s).fw = s.fw := rfl
@[simp] theorem modHit_tray (h : Nat) (f : HitEntry → HitEntry) (s : State) : (modHit h f s).tray = s.tray := rfl
@[simp] theorem modHit_port (h : Nat) (f : HitEntry → HitEntry) (s : State) : (modHit h f s).port = s.port := rfl
@[simp] theorem modHit_pwr (h : Nat) (f : HitEntry → HitEntry) (s : State) : (modHit h f s).pwr = s.pwr := rfl
@[simp] theorem modHit_flt (h : Nat) (f : HitEntry → HitEntry) (s : State) : (modHit h f s).flt = s.flt := rfl
@[simp] theorem modHit_recorder (h : Nat) (f : HitEntry → HitEntry) (s : State) : (modHit h f s).recorder = s.recorder := rfl
@[simp] theorem modHit_dbg (h : Nat) (f : HitEntry → HitEntry) (s : State) : (modHit h f s).dbg = s.dbg := rfl
@[simp] theorem modHit_ident (h : Nat) (f : HitEntry → HitEntry) (s : State) : (modHit h f s).ident = s.ident := rfl
@[simp] theorem modHit_pins (h : Nat) (f : HitEntry → HitEntry) (s : State) : (modHit h f s).pins = s.pins := rfl
@[simp] theorem modHit_regs (h : Nat) (f : HitEntry → HitEntry) (s : State) : (modHit h f s).regs = s.regs := rfl
@[simp] theorem modHit_time (h : Nat) (f : HitEntry → HitEntry) (s : State) : (modHit h f s).time = s.time := rfl
@[simp] theorem modHit_beat (h : Nat) (f : HitEntry → HitEntry) (s : State) : (modHit h f s).beat = s.beat := rfl
@[simp] theorem modHit_pending (h : Nat) (f : HitEntry → HitEntry) (s : State) : (modHit h f s).pending = s.pending := rfl
@[simp] theorem modHit_out (h : Nat) (f : HitEntry → HitEntry) (s : State) : (modHit h f s).out = s.out := rfl
@[simp] theorem modHit_free (h : Nat) (f : HitEntry → HitEntry) (s : State) : (modHit h f s).free = s.free := rfl

@[simp] theorem modNand_polders (n : Nat) (f : Nand → Nand) (s : State) : (modNand n f s).polders = s.polders := rfl
@[simp] theorem modNand_tcxs (n : Nat) (f : Nand → Nand) (s : State) : (modNand n f s).tcxs = s.tcxs := rfl
@[simp] theorem modNand_segs (n : Nat) (f : Nand → Nand) (s : State) : (modNand n f s).segs = s.segs := rfl
@[simp] theorem modNand_hit (n : Nat) (f : Nand → Nand) (s : State) : (modNand n f s).hit = s.hit := rfl
@[simp] theorem modNand_coh (n : Nat) (f : Nand → Nand) (s : State) : (modNand n f s).coh = s.coh := rfl
@[simp] theorem modNand_mem (n : Nat) (f : Nand → Nand) (s : State) : (modNand n f s).mem = s.mem := rfl
@[simp] theorem modNand_res (n : Nat) (f : Nand → Nand) (s : State) : (modNand n f s).res = s.res := rfl
@[simp] theorem modNand_tier (n : Nat) (f : Nand → Nand) (s : State) : (modNand n f s).tier = s.tier := rfl
@[simp] theorem modNand_key (n : Nat) (f : Nand → Nand) (s : State) : (modNand n f s).key = s.key := rfl
@[simp] theorem modNand_weir (n : Nat) (f : Nand → Nand) (s : State) : (modNand n f s).weir = s.weir := rfl
@[simp] theorem modNand_copy (n : Nat) (f : Nand → Nand) (s : State) : (modNand n f s).copy = s.copy := rfl
@[simp] theorem modNand_tbl (n : Nat) (f : Nand → Nand) (s : State) : (modNand n f s).tbl = s.tbl := rfl
@[simp] theorem modNand_srch (n : Nat) (f : Nand → Nand) (s : State) : (modNand n f s).srch = s.srch := rfl
@[simp] theorem modNand_eng (n : Nat) (f : Nand → Nand) (s : State) : (modNand n f s).eng = s.eng := rfl
@[simp] theorem modNand_q (n : Nat) (f : Nand → Nand) (s : State) : (modNand n f s).q = s.q := rfl
@[simp] theorem modNand_fw (n : Nat) (f : Nand → Nand) (s : State) : (modNand n f s).fw = s.fw := rfl
@[simp] theorem modNand_tray (n : Nat) (f : Nand → Nand) (s : State) : (modNand n f s).tray = s.tray := rfl
@[simp] theorem modNand_port (n : Nat) (f : Nand → Nand) (s : State) : (modNand n f s).port = s.port := rfl
@[simp] theorem modNand_pwr (n : Nat) (f : Nand → Nand) (s : State) : (modNand n f s).pwr = s.pwr := rfl
@[simp] theorem modNand_flt (n : Nat) (f : Nand → Nand) (s : State) : (modNand n f s).flt = s.flt := rfl
@[simp] theorem modNand_recorder (n : Nat) (f : Nand → Nand) (s : State) : (modNand n f s).recorder = s.recorder := rfl
@[simp] theorem modNand_dbg (n : Nat) (f : Nand → Nand) (s : State) : (modNand n f s).dbg = s.dbg := rfl
@[simp] theorem modNand_ident (n : Nat) (f : Nand → Nand) (s : State) : (modNand n f s).ident = s.ident := rfl
@[simp] theorem modNand_pins (n : Nat) (f : Nand → Nand) (s : State) : (modNand n f s).pins = s.pins := rfl
@[simp] theorem modNand_regs (n : Nat) (f : Nand → Nand) (s : State) : (modNand n f s).regs = s.regs := rfl
@[simp] theorem modNand_time (n : Nat) (f : Nand → Nand) (s : State) : (modNand n f s).time = s.time := rfl
@[simp] theorem modNand_beat (n : Nat) (f : Nand → Nand) (s : State) : (modNand n f s).beat = s.beat := rfl
@[simp] theorem modNand_pending (n : Nat) (f : Nand → Nand) (s : State) : (modNand n f s).pending = s.pending := rfl
@[simp] theorem modNand_out (n : Nat) (f : Nand → Nand) (s : State) : (modNand n f s).out = s.out := rfl
@[simp] theorem modNand_free (n : Nat) (f : Nand → Nand) (s : State) : (modNand n f s).free = s.free := rfl

/-- Changing a sluice that exists. -/
theorem modSluice_some {s : State} {ix : Nat} {sl : Sluice} (f : Sluice → Sluice) (h : findSluice s ix = some sl) :
    modSluice ix f s = { s with q := { s.q with sluices := tabInsert s.q.sluices ix (f sl) } } := by
  unfold findSluice at h
  simp only [modSluice, h]

@[simp] theorem modSluice_polders (ix : Nat) (f : Sluice → Sluice) (s : State) : (modSluice ix f s).polders = s.polders := by
  unfold modSluice; split <;> rfl
@[simp] theorem modSluice_tcxs (ix : Nat) (f : Sluice → Sluice) (s : State) : (modSluice ix f s).tcxs = s.tcxs := by
  unfold modSluice; split <;> rfl
@[simp] theorem modSluice_segs (ix : Nat) (f : Sluice → Sluice) (s : State) : (modSluice ix f s).segs = s.segs := by
  unfold modSluice; split <;> rfl
@[simp] theorem modSluice_hit (ix : Nat) (f : Sluice → Sluice) (s : State) : (modSluice ix f s).hit = s.hit := by
  unfold modSluice; split <;> rfl
@[simp] theorem modSluice_coh (ix : Nat) (f : Sluice → Sluice) (s : State) : (modSluice ix f s).coh = s.coh := by
  unfold modSluice; split <;> rfl
@[simp] theorem modSluice_mem (ix : Nat) (f : Sluice → Sluice) (s : State) : (modSluice ix f s).mem = s.mem := by
  unfold modSluice; split <;> rfl
@[simp] theorem modSluice_res (ix : Nat) (f : Sluice → Sluice) (s : State) : (modSluice ix f s).res = s.res := by
  unfold modSluice; split <;> rfl
@[simp] theorem modSluice_tier (ix : Nat) (f : Sluice → Sluice) (s : State) : (modSluice ix f s).tier = s.tier := by
  unfold modSluice; split <;> rfl
@[simp] theorem modSluice_ftl (ix : Nat) (f : Sluice → Sluice) (s : State) : (modSluice ix f s).ftl = s.ftl := by
  unfold modSluice; split <;> rfl
@[simp] theorem modSluice_key (ix : Nat) (f : Sluice → Sluice) (s : State) : (modSluice ix f s).key = s.key := by
  unfold modSluice; split <;> rfl
@[simp] theorem modSluice_weir (ix : Nat) (f : Sluice → Sluice) (s : State) : (modSluice ix f s).weir = s.weir := by
  unfold modSluice; split <;> rfl
@[simp] theorem modSluice_copy (ix : Nat) (f : Sluice → Sluice) (s : State) : (modSluice ix f s).copy = s.copy := by
  unfold modSluice; split <;> rfl
@[simp] theorem modSluice_tbl (ix : Nat) (f : Sluice → Sluice) (s : State) : (modSluice ix f s).tbl = s.tbl := by
  unfold modSluice; split <;> rfl
@[simp] theorem modSluice_srch (ix : Nat) (f : Sluice → Sluice) (s : State) : (modSluice ix f s).srch = s.srch := by
  unfold modSluice; split <;> rfl
@[simp] theorem modSluice_eng (ix : Nat) (f : Sluice → Sluice) (s : State) : (modSluice ix f s).eng = s.eng := by
  unfold modSluice; split <;> rfl
@[simp] theorem modSluice_fw (ix : Nat) (f : Sluice → Sluice) (s : State) : (modSluice ix f s).fw = s.fw := by
  unfold modSluice; split <;> rfl
@[simp] theorem modSluice_tray (ix : Nat) (f : Sluice → Sluice) (s : State) : (modSluice ix f s).tray = s.tray := by
  unfold modSluice; split <;> rfl
@[simp] theorem modSluice_port (ix : Nat) (f : Sluice → Sluice) (s : State) : (modSluice ix f s).port = s.port := by
  unfold modSluice; split <;> rfl
@[simp] theorem modSluice_pwr (ix : Nat) (f : Sluice → Sluice) (s : State) : (modSluice ix f s).pwr = s.pwr := by
  unfold modSluice; split <;> rfl
@[simp] theorem modSluice_flt (ix : Nat) (f : Sluice → Sluice) (s : State) : (modSluice ix f s).flt = s.flt := by
  unfold modSluice; split <;> rfl
@[simp] theorem modSluice_recorder (ix : Nat) (f : Sluice → Sluice) (s : State) : (modSluice ix f s).recorder = s.recorder := by
  unfold modSluice; split <;> rfl
@[simp] theorem modSluice_dbg (ix : Nat) (f : Sluice → Sluice) (s : State) : (modSluice ix f s).dbg = s.dbg := by
  unfold modSluice; split <;> rfl
@[simp] theorem modSluice_ident (ix : Nat) (f : Sluice → Sluice) (s : State) : (modSluice ix f s).ident = s.ident := by
  unfold modSluice; split <;> rfl
@[simp] theorem modSluice_pins (ix : Nat) (f : Sluice → Sluice) (s : State) : (modSluice ix f s).pins = s.pins := by
  unfold modSluice; split <;> rfl
@[simp] theorem modSluice_regs (ix : Nat) (f : Sluice → Sluice) (s : State) : (modSluice ix f s).regs = s.regs := by
  unfold modSluice; split <;> rfl
@[simp] theorem modSluice_time (ix : Nat) (f : Sluice → Sluice) (s : State) : (modSluice ix f s).time = s.time := by
  unfold modSluice; split <;> rfl
@[simp] theorem modSluice_beat (ix : Nat) (f : Sluice → Sluice) (s : State) : (modSluice ix f s).beat = s.beat := by
  unfold modSluice; split <;> rfl
@[simp] theorem modSluice_pending (ix : Nat) (f : Sluice → Sluice) (s : State) : (modSluice ix f s).pending = s.pending := by
  unfold modSluice; split <;> rfl
@[simp] theorem modSluice_out (ix : Nat) (f : Sluice → Sluice) (s : State) : (modSluice ix f s).out = s.out := by
  unfold modSluice; split <;> rfl
@[simp] theorem modSluice_free (ix : Nat) (f : Sluice → Sluice) (s : State) : (modSluice ix f s).free = s.free := by
  unfold modSluice; split <;> rfl

/-- A polder, context or host reads back as it was written. -/
@[simp] theorem polderOf_setPolder (p : Nat) (v : Polder) (s : State) : polderOf (setPolder p v s) p = v := tabGet_put_same _ _ _ _
@[simp] theorem tcxOf_setTcx (t : Nat) (v : Tcx) (s : State) : tcxOf (setTcx t v s) t = v := tabGet_put_same _ _ _ _
@[simp] theorem segOf_setSeg (t n : Nat) (v : Segment) (s : State) : segOf (setSeg t n v s) t n = v := tabGet_put_same _ _ _ _
@[simp] theorem hitOf_setHit (h : Nat) (v : HitEntry) (s : State) : hitOf (setHit h v s) h = v := tabGet_put_same _ _ _ _
@[simp] theorem nandOf_setNand (n : Nat) (v : Nand) (s : State) : nandOf (setNand n v s) n = v := tabGet_put_same _ _ _ _

end Sys2Proof.Machine
end

