-- ==== Sys2Proof/Laws/Flash.lean ====
section
/-!
SUPPORT. Reading a channel or a die back after it was changed.
-/

namespace Sys2Proof.Machine

theorem nandOf_modNand (ch : Nat) (f : Nand → Nand) (s : State) : nandOf (modNand ch f s) ch = f (nandOf s ch) :=
  tabGet_put_same _ _ _ _

theorem dieOf_modDie (ch d : Nat) (f : Die → Die) (s : State) : dieOf (modDie ch d f s) ch d = f (dieOf s ch d) := by
  unfold dieOf modDie
  rw [nandOf_modNand]
  exact tabGet_put_same _ _ _ _

theorem dieOf_modDie_other (ch d e : Nat) (f : Die → Die) (s : State) (h : e ≠ d) : dieOf (modDie ch d f s) ch e = dieOf s ch e := by
  unfold dieOf modDie
  rw [nandOf_modNand]
  exact tabGet_put_other _ _ _ _ _ h

theorem nandOf_bumpFlash (p off n ch : Nat) (s : State) : nandOf (bumpFlash p off n s) ch = nandOf s ch := rfl
theorem dieOf_bumpFlash (p off n ch d : Nat) (s : State) : dieOf (bumpFlash p off n s) ch d = dieOf s ch d := rfl

end Sys2Proof.Machine
end

