-- ==== Sys2Proof/Laws/Memory.lean ====
section
/-!
SUPPORT. The bytes of the tray: every operation that writes them keeps the canonical form, a byte written reads back, and the
other bytes stay.
-/

namespace Sys2Proof.Machine

theorem setByte_wf {s : State} (cell : Nat) (b : Byte) (h : Memory.wf s.mem = true) : Memory.wf (setByte cell b s).mem = true :=
  tabWf_put cell b h

/-- Reading a byte after it was written. -/
theorem setByte_get_same (s : State) (cell : Nat) (b : Byte) : tabGet (setByte cell b s).mem.bytes 0 cell = b :=
  tabGet_put_same _ _ cell b

/-- A write of one byte leaves every other byte alone. -/
theorem setByte_get_other (s : State) (cell j : Nat) (b : Byte) (h : j ≠ cell) :
    tabGet (setByte cell b s).mem.bytes 0 j = tabGet s.mem.bytes 0 j := tabGet_put_other _ _ _ _ _ h

@[simp] theorem setPoison_bytes (c : Nat) (x : PoisonCause) (s : State) : (setPoison c x s).mem.bytes = s.mem.bytes := rfl
@[simp] theorem clearPoison_bytes (c : Nat) (s : State) : (clearPoison c s).mem.bytes = s.mem.bytes := rfl
@[simp] theorem bumpResil_mem (p off n : Nat) (s : State) : (bumpResil p off n s).mem = s.mem := rfl

theorem setBytes_wf (cell : Nat) (l : List (Nat × Byte)) {s : State} (h : Memory.wf s.mem = true) :
    Memory.wf (l.foldl (fun s b => setByte (cell * 64 + b.1) b.2 s) s).mem = true := by
  induction l generalizing s with
  | nil => exact h
  | cons b l ih => exact ih (setByte_wf _ _ h)

/-- A write of a line keeps the canonical form (Table 7.3). -/
theorem writeLineBytes_wf (line : Nat) (bytes : List (Nat × Byte)) (poison : Bool) {s : State} (h : Memory.wf s.mem = true) :
    Memory.wf (writeLineBytes line bytes poison s).1.mem = true := by
  have hb := setBytes_wf (cellOf s (line * 64) / 64) bytes h
  unfold writeLineBytes
  dsimp only
  split
  · exact h
  · split <;> split <;> (try split) <;> (try split) <;> exact hb

@[simp] theorem writeCached_mem (line : Nat) (s : State) : (writeCached line s).mem = s.mem := rfl

@[simp] theorem writePromoted_mem (line : Nat) (s : State) : (writePromoted line s).mem = s.mem := by
  unfold writePromoted
  dsimp only
  split
  · rfl
  · split
    · rfl
    · split <;> rfl

/-- A write at the home of a line keeps the canonical form (R73, R95). -/
theorem homeWrite_wf (line : Nat) (bytes : List (Nat × Byte)) (poison : Bool) {s : State} (h : Memory.wf s.mem = true) :
    Memory.wf (homeWrite line bytes poison s).1.mem = true :=
  writeLineBytes_wf line bytes poison (by rw [writeCached_mem, writePromoted_mem]; exact h)

theorem setPoisons_bytes (l : List Nat) (f : Nat → Nat) (x : PoisonCause) (s : State) :
    (l.foldl (fun s i => setPoison (f i) x s) s).mem.bytes = s.mem.bytes := by
  induction l generalizing s with
  | nil => rfl
  | cons i l ih => exact (ih _).trans rfl

/-- Opening a flash unit for its first write keeps the canonical form (R119). -/
theorem openUnit_wf (tpa : Nat) {s : State} (h : Memory.wf s.mem = true) : Memory.wf (openUnit s tpa).mem = true := by
  unfold openUnit
  dsimp only
  split
  · show tabWf _ _ = true
    rw [setPoisons_bytes]; exact h
  · split
    · exact tabWf_filter (t := s.mem.bytes) (fun k _ => decide (k < 2 ^ 60 ∨ (k - 2 ^ 60) / 16384 ≠ unitOf s tpa)) h
    · exact h

@[simp] theorem putMap_mem (u : Nat) (e : MapEntry) (s : State) : (putMap u e s).mem = s.mem := by
  unfold putMap leaveBlock
  dsimp only
  split <;> rfl

theorem putMaps_mem (l : List Nat) (e : MapEntry) (s : State) : (l.foldl (fun s u => putMap u e s) s).mem = s.mem := by
  induction l generalizing s with
  | nil => rfl
  | cons u l ih => exact (ih _).trans (putMap_mem _ _ _)

/-- Units that become UNMAPPED leave the canonical form (R126). -/
theorem unmapUnits_wf (l : List Nat) {s : State} (h : Memory.wf s.mem = true) : Memory.wf (unmapUnits l s).mem = true := by
  unfold unmapUnits
  dsimp only
  rw [putMaps_mem]
  exact tabWf_filter (t := s.mem.bytes) (fun k _ => decide (k < 2 ^ 60) || !l.contains ((k - 2 ^ 60) / 16384)) h

/-- A fill, a scrub or a start-up zero-fill keeps the canonical form. -/
theorem zeroTpa_wf (a len : Nat) {s : State} (h : Memory.wf s.mem = true) : Memory.wf (zeroTpa a len s).mem = true := by
  unfold zeroTpa
  split
  · split
    · exact h
    · exact unmapUnits_wf _ h
  · exact tabWf_filter (t := s.mem.bytes) (fun k _ => decide (k < a ∨ a + len ≤ k)) h

/-- A byte inside a range that becomes zero, where the range is not on flash. -/
theorem zeroTpa_inside (a len j : Nat) (s : State) (hr : regionOf a ≠ .flash) (h1 : a ≤ j) (h2 : j < a + len) :
    tabGet (zeroTpa a len s).mem.bytes 0 j = 0 := by
  unfold zeroTpa
  rw [if_neg hr]
  have h := tabGet_filter s.mem.bytes (0 : Byte) (fun k => decide (k < a ∨ a + len ≤ k)) j
  exact h.trans (if_neg (by simp; omega))

/-- A byte that is zero stays so while ranges become zero. -/
theorem zeroTpa_stays (a len j : Nat) (s : State) (h : tabGet s.mem.bytes 0 j = 0) :
    tabGet (zeroTpa a len s).mem.bytes 0 j = 0 := by
  unfold zeroTpa
  split
  · split
    · exact h
    · show tabGet (unmapUnits _ s).mem.bytes 0 j = 0
      unfold unmapUnits
      dsimp only
      rw [putMaps_mem]
      refine (tabGet_filter s.mem.bytes (0 : Byte) (fun k => decide (k < 2 ^ 60) || !_) j).trans ?_
      split
      · exact h
      · rfl
  · refine (tabGet_filter s.mem.bytes (0 : Byte) (fun k => decide (k < a ∨ a + len ≤ k)) j).trans ?_
    split
    · exact h
    · rfl

theorem zeroTpas_stay (l : List (Nat × Nat)) (j : Nat) (s : State) (h : tabGet s.mem.bytes 0 j = 0) :
    tabGet (l.foldl (fun s r => if r.2 = 0 then s else zeroTpa r.1 r.2 s) s).mem.bytes 0 j = 0 := by
  induction l generalizing s with
  | nil => exact h
  | cons r l ih =>
    refine ih _ ?_
    dsimp only
    split
    · exact h
    · exact zeroTpa_stays _ _ _ _ h

theorem putBytes_wf (l : List Nat) (f : Nat → Nat) (g : Nat → Byte) {m : Tab Byte} (h : tabWf m 0 = true) :
    tabWf (l.foldl (fun m i => tabPut m 0 (f i) (g i)) m) 0 = true := by
  induction l generalizing m with
  | nil => exact h
  | cons i l ih => exact ih (tabWf_put _ _ h)

/-- A journalled write that did not survive keeps the canonical form (R448). -/
theorem undoWrite_wf (w : FlashWrite) {s : State} (h : Memory.wf s.mem = true) : Memory.wf (undoWrite w s).mem = true :=
  putBytes_wf _ _ _ h

/-- A device reset keeps what lies on flash, in canonical form (Table 19.8). -/
theorem afterDeviceReset_wf {s : State} (h : Memory.wf s.mem = true) : Memory.wf (afterDeviceReset s).mem = true := by
  exact tabWf_filter (t := s.mem.bytes) (fun k _ => decide (2 ^ 60 ≤ k)) h

theorem afterTerpReset_wf {s : State} (h : Memory.wf s.mem = true) : Memory.wf (afterTerpReset s).mem = true :=
  afterDeviceReset_wf h

/-- Memory after reset lists nothing. -/
theorem reset_wf : Memory.wf State.reset.mem = true := rfl

end Sys2Proof.Machine
end

