-- ==== Sys2Proof/Laws/Settle.lean ====
section
/-!
SUPPORT. What follows every command's effect: the form of `exec`, what settling a quiet state changes, and the states that
the clusters are left in.
-/

namespace Sys2Proof.Machine

/-- Every command answers a next state, in which what can go on has gone on. -/
theorem exec_settled (c : Instr) (s : State) : ∃ x, exec c s = .next (settle x) := by
  cases c <;> exact ⟨_, rfl⟩

theorem modCluster_same (cl : Nat) (f : Cluster → Cluster) (s : State) :
    clusterOf (modCluster cl f s) cl = f (clusterOf s cl) := tabGet_put_same _ _ _ _

theorem modCluster_other (cl j : Nat) (f : Cluster → Cluster) (s : State) (h : j ≠ cl) :
    clusterOf (modCluster cl f s) j = clusterOf s j := tabGet_put_other _ _ _ _ _ h

@[simp] theorem modCluster_busy (cl j : Nat) (f : Cluster → Cluster) (s : State) :
    clusterBusy (modCluster cl f s) j = clusterBusy s j := rfl

/-- Settling a cluster changes nothing but the table of clusters. -/
theorem settleCluster_frame (cl : Nat) (s : State) :
    settleCluster cl s = { s with pwr := { s.pwr with clusters := (settleCluster cl s).pwr.clusters } } := by
  unfold settleCluster requestWake
  dsimp only
  repeat' split
  all_goals rfl

theorem settleCluster_busy (cl j : Nat) (s : State) : clusterBusy (settleCluster cl s) j = clusterBusy s j := by
  rw [settleCluster_frame]; rfl

theorem settleCluster_other (cl j : Nat) (s : State) (h : j ≠ cl) : clusterOf (settleCluster cl s) j = clusterOf s j := by
  unfold settleCluster requestWake
  dsimp only
  repeat' split
  all_goals first | rfl | exact modCluster_other _ _ _ _ h

theorem foldClusters_frame (l : List Nat) (s : State) :
    l.foldl (fun s cl => settleCluster cl s) s
      = { s with pwr := { s.pwr with clusters := (l.foldl (fun s cl => settleCluster cl s) s).pwr.clusters } } := by
  induction l generalizing s with
  | nil => rfl
  | cons cl l ih =>
    simp only [List.foldl_cons]
    rw [ih]
    rw [settleCluster_frame]

theorem settleClusters_frame (s : State) :
    settleClusters s = { s with pwr := { s.pwr with clusters := (settleClusters s).pwr.clusters } } := by
  unfold settleClusters
  exact foldClusters_frame _ s

/-- Where nothing is in progress, only the clusters and `PWR_WARN_N` follow a command's effect. -/
theorem settle_of_quiet {s : State} (h : quiet s = true) :
    settle s = { s with
      pwr := { s.pwr with clusters := (settleClusters s).pwr.clusters }
      pins := { s.pins with pwrWarn := s.pins.terpUp && (s.pins.booting || s.fw.terpOnly || s.pwr.warnNow || s.flt.lossHeld) } } := by
  unfold settle
  rw [if_pos h]
  have h := settleClusters_frame s
  generalize settleClusters s = x at h
  rw [h]
  rfl

end Sys2Proof.Machine
end

