-- ==== Sys2Proof/Laws/Flows.lean ====
section
/-!
SUPPORT. Requests at the home of a line that nothing else concerns, and how one of them ends in an otherwise quiet device.
-/

namespace Sys2Proof.Machine

/-- An idle line has no holder. -/
theorem LineIdle.holders {s : State} {line : Nat} (h : LineIdle line s) : hostHoldersOf s line = [] := by
  unfold hostHoldersOf; rw [h.2.1]

theorem LineIdle.owner {s : State} {line : Nat} (h : LineIdle line s) : hostOwner s line = none := by
  unfold hostOwner; rw [h.2.1]

theorem LineIdle.noLoss {s : State} {line : Nat} (h : LineIdle line s) : setLost s line = false := by
  unfold setLost; rw [h.2.2]; simp

/-- Training the predictor changes nothing but the predictor. -/
theorem trainPredictor_frame (line : Nat) (req : LineReq) (w : Bool) (s : State) :
    trainPredictor line req w s = { s with coh := { s.coh with predictor := (trainPredictor line req w s).coh.predictor } } := by
  unfold trainPredictor
  dsimp only
  split <;> rfl

/-- A request for an idle line is in service at once: no snoop goes out. -/
theorem startFlow_idle {s : State} {line : Nat} (req : LineReq) (h : LineIdle line s) :
    startFlow line req [] s = { s with coh := { s.coh with
      predictor := (trainPredictor line req false s).coh.predictor
      flows := tabInsert s.coh.flows line { req := req, medium := needsMedium s line req, opened := s.time } } } := by
  have h1 : reportOwner line req s = s := by unfold reportOwner; rw [h.owner]
  have h2 : sweepAhead line s = s := by unfold sweepAhead; rw [h.2.1]
  unfold startFlow
  simp only [h1, h2, ne_eq, not_true_eq_false, decide_false]
  have ht := trainPredictor_frame line req false s
  generalize hp : (trainPredictor line req false s).coh.predictor = p at ht ⊢
  rw [ht]
  have hs : ∀ p', slotOf { s with coh := { s.coh with predictor := p' } } line = none := fun _ => h.2.1
  have h3 : ∀ p', dropCrown line { s with coh := { s.coh with predictor := p' } } = { s with coh := { s.coh with predictor := p' } } := by
    intro p'; unfold dropCrown; rw [hs]
  have h4 : ∀ p', probeTargets { s with coh := { s.coh with predictor := p' } } line req = [] := by
    intro p'
    have : setLost { s with coh := { s.coh with predictor := p' } } line = false := h.noLoss
    unfold probeTargets; rw [this]; simp
  have h5 : ∀ p', snoopTargets { s with coh := { s.coh with predictor := p' } } line req = [] := by
    intro p'
    have a : hostHoldersOf { s with coh := { s.coh with predictor := p' } } line = [] := h.holders
    have b : hostOwner { s with coh := { s.coh with predictor := p' } } line = none := h.owner
    unfold snoopTargets
    rw [a, b]
    dsimp only
    split
    · rfl
    · split <;> simp
  simp only [h3, ite_self, h4, h5, if_true, sendSnoops, List.foldl_nil, not_true_eq_false, decide_false]
  rfl

theorem requestLine_idle {s : State} {line : Nat} (req : LineReq) (h : LineIdle line s) :
    requestLine line req s = { s with coh := { s.coh with
      predictor := (trainPredictor line req false s).coh.predictor
      flows := tabInsert s.coh.flows line { req := req, medium := needsMedium s line req, opened := s.time } } } := by
  unfold requestLine
  rw [h.1]
  exact startFlow_idle req h

/-- A pass over a quiet device changes nothing. -/
theorem settlePass_quiet {s : State} (h : quiet s = true) : settlePass s = s := by
  simp only [quiet, Bool.and_eq_true, List.isEmpty_iff] at h
  obtain ⟨⟨⟨⟨⟨⟨⟨h1, h2⟩, h3⟩, h4⟩, h5⟩, h6⟩, h7⟩, h8⟩ := h
  simp [settlePass, settleFlows, runFlows, settleTables, settleRemaps, settleReopens, settleTiles, settleMembers, stepGroups,
    settleKernels, settleRuns, settleHalts, settleDeletes, settleFences, settleCmds, windowsDone, h1, h2, h3, h4, h5, h6, h7, h8]

/-- All but the flows of a quiet device has nothing to do. -/
theorem settleRest_quiet {s : State} (h : quiet s = true) (x : State) (hx : settleFlows x = s) : settlePass x = s := by
  have h' := settlePass_quiet h
  have hf : settleFlows s = s := by
    simp only [quiet, Bool.and_eq_true, List.isEmpty_iff] at h
    simp [settleFlows, runFlows, h.1.1.1.1.1.1.2]
  unfold settlePass at h' ⊢
  rw [hf] at h'
  rw [hx]
  exact h'

theorem settlePasses_succ (n : Nat) (s : State) :
    settlePasses (n + 1) s = if progressed s (settlePass s) then settlePasses n (settlePass s) else settlePass s := rfl

theorem settlePasses_quiet {s : State} (h : quiet s = true) (fuel : Nat) : settlePasses fuel s = s := by
  cases fuel with
  | zero => rfl
  | succ n => simp [settlePasses, settlePass_quiet h, progressed]

/-- A request that nothing holds up, alone in an otherwise quiet device: it ends, and the device is quiet again. -/
theorem settle_flow {s s' : State} {line : Nat} {f : Flow} (hs : s.coh.flows = [(line, f)]) (hp : f.probe = false)
    (hr : flowReady f = true) (hq : f.queue = []) (hm : f.members = []) (hc : f.conflicts = [])
    (hd : completeReq line f s = some s') (he : quiet { s' with coh := { s'.coh with flows := tabErase s'.coh.flows line } } = true) :
    settle s = settle { s' with coh := { s'.coh with flows := tabErase s'.coh.flows line } } := by
  have hend : endFlow line f s = some { s' with coh := { s'.coh with flows := tabErase s'.coh.flows line } } := by
    simp [endFlow, hp, hd, serveMembers, hm, hc, hq]
  generalize hx : ({ s' with coh := { s'.coh with flows := tabErase s'.coh.flows line } } : State) = x at he hend ⊢
  have hxf : x.coh.flows = [] := by
    simp only [quiet, Bool.and_eq_true, List.isEmpty_iff] at he; exact he.1.1.1.1.1.1.2
  have hfl : settleFlows s = x := by
    simp [settleFlows, hs, hq, runFlows, endFirst, hr, hend, hxf]
  have hpass := settleRest_quiet he s hfl
  have hnq : quiet s = false := by simp [quiet, hs]
  have hprog : progressed s x = true := by simp [progressed, hs, hxf]
  have h1 : (if quiet s then s else settlePasses (4 * s.q.cmds.length + 8) s) = x := by
    rw [hnq, if_neg Bool.false_ne_true, show 4 * s.q.cmds.length + 8 = (4 * s.q.cmds.length + 7) + 1 from rfl]
    rw [settlePasses_succ, hpass, if_pos hprog]
    exact settlePasses_quiet he _
  have h2 : (if quiet x then x else settlePasses (4 * x.q.cmds.length + 8) x) = x := if_pos he
  exact congrArg (fun y => settlePins (settleClusters y)) (h1.trans h2.symm)

/-! ### Writes at the home leave the flows alone -/

theorem setBytes_coh (cell : Nat) (l : List (Nat × Byte)) (s : State) (c : CohSt) :
    l.foldl (fun s b => setByte (cell * 64 + b.1) b.2 s) { s with coh := c }
      = { l.foldl (fun s b => setByte (cell * 64 + b.1) b.2 s) s with coh := c } := by
  induction l generalizing s with
  | nil => rfl
  | cons b l ih => exact ih (setByte (cell * 64 + b.1) b.2 s)

theorem setBytes_frame (cell : Nat) (l : List (Nat × Byte)) (s : State) :
    l.foldl (fun s b => setByte (cell * 64 + b.1) b.2 s) s
      = { s with mem := (l.foldl (fun s b => setByte (cell * 64 + b.1) b.2 s) s).mem } := by
  induction l generalizing s with
  | nil => rfl
  | cons b l ih => rw [List.foldl_cons, ih]; rfl

theorem writeLineBytes_coh (line : Nat) (bytes : List (Nat × Byte)) (poison : Bool) (s : State) (c : CohSt) :
    writeLineBytes line bytes poison { s with coh := c }
      = ({ (writeLineBytes line bytes poison s).1 with coh := c }, (writeLineBytes line bytes poison s).2) := by
  have hd : ∀ c, lineDead { s with coh := c } (line * 64) = lineDead s (line * 64) := fun _ => rfl
  have hm : ∀ c, lineMarked { s with coh := c } (line * 64) = lineMarked s (line * 64) := fun _ => rfl
  have hc : ∀ c, cellOf { s with coh := c } (line * 64) = cellOf s (line * 64) := fun _ => rfl
  unfold writeLineBytes
  dsimp only
  rw [hd, hm, hc, setBytes_coh]
  repeat' split
  all_goals rfl

theorem homeWrite_coh (line : Nat) (bytes : List (Nat × Byte)) (poison : Bool) (s : State) (c : CohSt) :
    homeWrite line bytes poison { s with coh := c }
      = ({ (homeWrite line bytes poison s).1 with coh := c }, (homeWrite line bytes poison s).2) := by
  have hp : writePromoted line { s with coh := c } = { writePromoted line s with coh := c } := by
    unfold writePromoted
    dsimp only
    repeat' split
    all_goals rfl
  unfold homeWrite
  rw [hp]
  exact writeLineBytes_coh line bytes poison (writeCached line (writePromoted line s)) c

theorem sendS2m_coh (port ld tpa : Nat) (e : Emit) (s : State) (c : CohSt) :
    sendS2m port ld tpa e { s with coh := c } = { sendS2m port ld tpa e s with coh := c } := by
  unfold sendS2m
  dsimp only
  split <;> rfl

@[simp] theorem sendS2m_quiet (port ld tpa : Nat) (e : Emit) (s : State) : quiet (sendS2m port ld tpa e s) = quiet s := by
  unfold sendS2m
  split <;> rfl

theorem writeLineBytes_frame (line : Nat) (bytes : List (Nat × Byte)) (poison : Bool) (s : State) :
    ∃ m p, (writeLineBytes line bytes poison s).1 = { s with mem := m, polders := p } := by
  unfold writeLineBytes
  dsimp only
  rw [setBytes_frame]
  by_cases h1 : lineDead s (line * 64) = true
  · rw [if_pos h1]; exact ⟨_, _, rfl⟩
  · rw [if_neg h1]
    split <;> split <;> (try split) <;> (try split) <;> exact ⟨_, _, rfl⟩

/-- A write at the home touches only memory, polder counters, promoted blocks and row caches. -/
theorem homeWrite_frame (line : Nat) (bytes : List (Nat × Byte)) (poison : Bool) (s : State) :
    ∃ m p t b, (homeWrite line bytes poison s).1 = { s with mem := m, polders := p, tier := t, tbl := { s.tbl with cache := b } } := by
  have h1 : ∃ p t, writePromoted line s = { s with polders := p, tier := t } := by
    unfold writePromoted
    dsimp only
    repeat' split
    all_goals exact ⟨_, _, rfl⟩
  obtain ⟨p, t, h1⟩ := h1
  unfold homeWrite writeCached
  rw [h1]
  obtain ⟨m, p, h⟩ := writeLineBytes_frame line bytes poison
    { s with polders := p, tier := t, tbl := { s.tbl with cache := tabMap s.tbl.cache [] fun _ ways => ways.filter fun w => w.line ≠ line } }
  exact ⟨m, p, t, _, h⟩

@[simp] theorem homeWrite_quiet (line : Nat) (bytes : List (Nat × Byte)) (poison : Bool) (s : State) :
    quiet (homeWrite line bytes poison s).1 = quiet s := by
  obtain ⟨m, p, t, b, h⟩ := homeWrite_frame line bytes poison s
  rw [h]; rfl

end Sys2Proof.Machine
end

