-- ==== Sys2Proof/Laws/Items.lean ====
section
/-!
SUPPORT. What the row of an item does when its command waits: it is dispatched and its meaning runs.
-/

namespace Sys2Proof.Machine

theorem modCmd_id (k : Nat) (f : Cmd → Cmd) (s : State) (h : ∀ d ∈ s.q.cmds, d.serial = k → f d = d) : modCmd k f s = s := by
  have hm : (s.q.cmds.map fun c => if c.serial = k then f c else c) = s.q.cmds := by
    conv_rhs => rw [← List.map_id s.q.cmds]
    refine List.map_congr_left fun d hd => ?_
    by_cases hk : d.serial = k
    · simp [hk, h d hd hk]
    · simp [hk]
  unfold modCmd
  rw [hm]

theorem find_map_serial (l : List Cmd) (k : Nat) (f : Cmd → Cmd) (c : Cmd) (hf : ∀ d, (f d).serial = d.serial)
    (h : l.find? (fun d => decide (d.serial = k)) = some c) :
    (l.map fun d => if d.serial = k then f d else d).find? (fun d => decide (d.serial = k)) = some (f c) := by
  induction l with
  | nil => simp at h
  | cons d l ih =>
    by_cases hd : d.serial = k
    · simp [hd] at h; subst h; simp [hd, hf]
    · simp [hd] at h; simp [hd, ih h]

/-- The command that waits is found by its serial. -/
theorem Waits.found {op : Nat} {it : Item} {s : State} {c : Cmd} (h : Waits op it s c) :
    s.q.cmds.find? (fun d => decide (d.serial = c.serial)) = some c := by
  obtain ⟨-, -, hp, -, -, -, hu⟩ := h
  have hm : c ∈ s.q.cmds := List.mem_of_find?_eq_some hp
  cases hf : s.q.cmds.find? (fun d => decide (d.serial = c.serial)) with
  | none => exact absurd (by simp) (List.find?_eq_none.mp hf c hm)
  | some d =>
    have hd := List.find?_some hf
    rw [hu d (List.mem_of_find?_eq_some hf) (by simpa using hd)]

/-- After its dispatch the command is found as it was started. -/
theorem Waits.found_started {op : Nat} {it : Item} {s : State} {c : Cmd} (h : Waits op it s c) :
    (dispatchCmd c.serial s).q.cmds.find? (fun d => decide (d.serial = c.serial)) = some (started s c) :=
  find_map_serial _ _ (fun d => { d with waiting := false, modes := (polderOf s d.polder).modes, arith := s.fw.running.manifest.arith })
    c (fun _ => rfl) h.found

/-- The row of an item whose command waits: it is dispatched, and its meaning runs. -/
theorem runItem_waiting {op : Nat} {it : Item} {s : State} {c : Cmd} (body : Cmd → State → State) (h : Waits op it s c) :
    runItem op it body s = body (started s c) (dispatchCmd c.serial s) := by
  have hs := h.found_started
  obtain ⟨h1, h2, h3, h4, h5, h6, h7⟩ := h
  have hi : modCmd c.serial (fun d => { d with host := it.host }) s = s :=
    modCmd_id _ _ _ fun d hd hk => by rw [h7 d hd hk, ← h4]
  unfold runItem
  simp only [h1, h2, h3, h4, hi, h5, h6, hs, if_true, if_false, Bool.true_eq_false, ne_eq, not_true_eq_false, or_self]

end Sys2Proof.Machine
end

