-- ==== Sys2Proof/Laws/Links.lean ====
section
/-!
SUPPORT. Reading a port, a link or a levee back after it was changed.
-/

namespace Sys2Proof.Machine

theorem portAt_modPort (p : Nat) (f : Port → Port) (s : State) : portAt (modPort p f s) p = f (portAt s p) :=
  tabGet_put_same _ _ _ _

theorem portAt_modPort_other (p q : Nat) (f : Port → Port) (s : State) (h : q ≠ p) : portAt (modPort p f s) q = portAt s q :=
  tabGet_put_other _ _ _ _ _ h

theorem linkAt_modLink (p l : Nat) (f : Link → Link) (s : State) : linkAt (modLink p l f s) p l = f (linkAt s p l) := by
  unfold linkAt modLink
  rw [portAt_modPort]
  exact tabGet_put_same _ _ _ _

theorem portAt_modLink_width (p l : Nat) (f : Link → Link) (s : State) : (portAt (modLink p l f s) p).width = (portAt s p).width := by
  unfold modLink
  rw [portAt_modPort]

/-- A change of a port's enable bit leaves its links as they are. -/
theorem linkAt_modPort_enable (p l : Nat) (e : Bool) (s : State) :
    linkAt (modPort p (fun x => { x with enable := e }) s) p l = linkAt s p l := by
  unfold linkAt
  rw [portAt_modPort]

theorem leveeOf_modLevee (k : Nat) (f : Levee → Levee) (s : State) : leveeOf (modLevee k f s) k = f (leveeOf s k) :=
  tabGet_put_same _ _ _ _

end Sys2Proof.Machine
end

