-- ==== Sys2Proof/Laws/Records.lean ====
section
/-!
SUPPORT. What writing a record or a notice leaves alone (R441, R452 to R456).
-/

namespace Sys2Proof.Machine

/-- Raising a bit of TERP_IRQ_STATUS touches the registers and what leaves the device. -/
theorem raiseIrq_frame (n : Nat) (s : State) : raiseIrq n s = { s with regs := (raiseIrq n s).regs, out := (raiseIrq n s).out } := by
  unfold raiseIrq raiseIbi
  dsimp only
  repeat' split
  all_goals rfl

theorem putRecord_frame (p : Bool) (e : Record) (s : State) :
    putRecord p e s = { s with recorder := (putRecord p e s).recorder, regs := (putRecord p e s).regs, out := (putRecord p e s).out } := by
  unfold putRecord
  dsimp only
  split
  · rw [raiseIrq_frame]
  · rfl

/-- An event record touches the recorder, the registers and what leaves the device. -/
theorem writeEvent_frame (code unit tcx polder addr detail : Nat) (s : State) :
    writeEvent code unit tcx polder addr detail s = { s with
      recorder := (writeEvent code unit tcx polder addr detail s).recorder
      regs := (writeEvent code unit tcx polder addr detail s).regs
      out := (writeEvent code unit tcx polder addr detail s).out } := by
  unfold writeEvent writeRecord
  dsimp only
  rw [putRecord_frame]

theorem writeNotice_frame (sub : Subject) (count addr time : Nat) (s : State) :
    writeNotice sub count addr time s = { s with
      recorder := (writeNotice sub count addr time s).recorder
      regs := (writeNotice sub count addr time s).regs
      flt := { s.flt with noticeSeq := s.flt.noticeSeq + 1 }
      out := (writeNotice sub count addr time s).out } := by
  unfold writeNotice
  dsimp only
  rw [putRecord_frame]

/-- A notice touches the recorder, the registers, the windows and SEQ of notices, and what leaves the device. -/
theorem notifyFm_frame (sub : Subject) (addr : Nat) (s : State) :
    notifyFm sub addr s = { s with
      recorder := (notifyFm sub addr s).recorder
      regs := (notifyFm sub addr s).regs
      flt := { s.flt with windows := (notifyFm sub addr s).flt.windows, noticeSeq := (notifyFm sub addr s).flt.noticeSeq }
      out := (notifyFm sub addr s).out } := by
  unfold notifyFm
  split
  · rfl
  · dsimp only
    rw [writeNotice_frame]

@[simp] theorem writeEvent_polders (a b c d e f : Nat) (s : State) : (writeEvent a b c d e f s).polders = s.polders := by rw [writeEvent_frame]
@[simp] theorem writeEvent_tcxs (a b c d e f : Nat) (s : State) : (writeEvent a b c d e f s).tcxs = s.tcxs := by rw [writeEvent_frame]
@[simp] theorem writeEvent_segs (a b c d e f : Nat) (s : State) : (writeEvent a b c d e f s).segs = s.segs := by rw [writeEvent_frame]
@[simp] theorem writeEvent_hit (a b c d e f : Nat) (s : State) : (writeEvent a b c d e f s).hit = s.hit := by rw [writeEvent_frame]
@[simp] theorem writeEvent_coh (a b c d e f : Nat) (s : State) : (writeEvent a b c d e f s).coh = s.coh := by rw [writeEvent_frame]
@[simp] theorem writeEvent_mem (a b c d e f : Nat) (s : State) : (writeEvent a b c d e f s).mem = s.mem := by rw [writeEvent_frame]
@[simp] theorem writeEvent_res (a b c d e f : Nat) (s : State) : (writeEvent a b c d e f s).res = s.res := by rw [writeEvent_frame]
@[simp] theorem writeEvent_tier (a b c d e f : Nat) (s : State) : (writeEvent a b c d e f s).tier = s.tier := by rw [writeEvent_frame]
@[simp] theorem writeEvent_ftl (a b c d e f : Nat) (s : State) : (writeEvent a b c d e f s).ftl = s.ftl := by rw [writeEvent_frame]
@[simp] theorem writeEvent_key (a b c d e f : Nat) (s : State) : (writeEvent a b c d e f s).key = s.key := by rw [writeEvent_frame]
@[simp] theorem writeEvent_weir (a b c d e f : Nat) (s : State) : (writeEvent a b c d e f s).weir = s.weir := by rw [writeEvent_frame]
@[simp] theorem writeEvent_copy (a b c d e f : Nat) (s : State) : (writeEvent a b c d e f s).copy = s.copy := by rw [writeEvent_frame]
@[simp] theorem writeEvent_tbl (a b c d e f : Nat) (s : State) : (writeEvent a b c d e f s).tbl = s.tbl := by rw [writeEvent_frame]
@[simp] theorem writeEvent_srch (a b c d e f : Nat) (s : State) : (writeEvent a b c d e f s).srch = s.srch := by rw [writeEvent_frame]
@[simp] theorem writeEvent_eng (a b c d e f : Nat) (s : State) : (writeEvent a b c d e f s).eng = s.eng := by rw [writeEvent_frame]
@[simp] theorem writeEvent_q (a b c d e f : Nat) (s : State) : (writeEvent a b c d e f s).q = s.q := by rw [writeEvent_frame]
@[simp] theorem writeEvent_fw (a b c d e f : Nat) (s : State) : (writeEvent a b c d e f s).fw = s.fw := by rw [writeEvent_frame]
@[simp] theorem writeEvent_tray (a b c d e f : Nat) (s : State) : (writeEvent a b c d e f s).tray = s.tray := by rw [writeEvent_frame]
@[simp] theorem writeEvent_port (a b c d e f : Nat) (s : State) : (writeEvent a b c d e f s).port = s.port := by rw [writeEvent_frame]
@[simp] theorem writeEvent_pwr (a b c d e f : Nat) (s : State) : (writeEvent a b c d e f s).pwr = s.pwr := by rw [writeEvent_frame]
@[simp] theorem writeEvent_flt (a b c d e f : Nat) (s : State) : (writeEvent a b c d e f s).flt = s.flt := by rw [writeEvent_frame]
@[simp] theorem writeEvent_dbg (a b c d e f : Nat) (s : State) : (writeEvent a b c d e f s).dbg = s.dbg := by rw [writeEvent_frame]
@[simp] theorem writeEvent_ident (a b c d e f : Nat) (s : State) : (writeEvent a b c d e f s).ident = s.ident := by rw [writeEvent_frame]
@[simp] theorem writeEvent_pins (a b c d e f : Nat) (s : State) : (writeEvent a b c d e f s).pins = s.pins := by rw [writeEvent_frame]
@[simp] theorem writeEvent_time (a b c d e f : Nat) (s : State) : (writeEvent a b c d e f s).time = s.time := by rw [writeEvent_frame]
@[simp] theorem writeEvent_beat (a b c d e f : Nat) (s : State) : (writeEvent a b c d e f s).beat = s.beat := by rw [writeEvent_frame]
@[simp] theorem writeEvent_pending (a b c d e f : Nat) (s : State) : (writeEvent a b c d e f s).pending = s.pending := by rw [writeEvent_frame]
@[simp] theorem writeEvent_free (a b c d e f : Nat) (s : State) : (writeEvent a b c d e f s).free = s.free := by rw [writeEvent_frame]
@[simp] theorem notifyFm_polders (a : Subject) (b : Nat) (s : State) : (notifyFm a b s).polders = s.polders := by rw [notifyFm_frame]
@[simp] theorem notifyFm_tcxs (a : Subject) (b : Nat) (s : State) : (notifyFm a b s).tcxs = s.tcxs := by rw [notifyFm_frame]
@[simp] theorem notifyFm_segs (a : Subject) (b : Nat) (s : State) : (notifyFm a b s).segs = s.segs := by rw [notifyFm_frame]
@[simp] theorem notifyFm_hit (a : Subject) (b : Nat) (s : State) : (notifyFm a b s).hit = s.hit := by rw [notifyFm_frame]
@[simp] theorem notifyFm_coh (a : Subject) (b : Nat) (s : State) : (notifyFm a b s).coh = s.coh := by rw [notifyFm_frame]
@[simp] theorem notifyFm_mem (a : Subject) (b : Nat) (s : State) : (notifyFm a b s).mem = s.mem := by rw [notifyFm_frame]
@[simp] theorem notifyFm_res (a : Subject) (b : Nat) (s : State) : (notifyFm a b s).res = s.res := by rw [notifyFm_frame]
@[simp] theorem notifyFm_tier (a : Subject) (b : Nat) (s : State) : (notifyFm a b s).tier = s.tier := by rw [notifyFm_frame]
@[simp] theorem notifyFm_ftl (a : Subject) (b : Nat) (s : State) : (notifyFm a b s).ftl = s.ftl := by rw [notifyFm_frame]
@[simp] theorem notifyFm_key (a : Subject) (b : Nat) (s : State) : (notifyFm a b s).key = s.key := by rw [notifyFm_frame]
@[simp] theorem notifyFm_weir (a : Subject) (b : Nat) (s : State) : (notifyFm a b s).weir = s.weir := by rw [notifyFm_frame]
@[simp] theorem notifyFm_copy (a : Subject) (b : Nat) (s : State) : (notifyFm a b s).copy = s.copy := by rw [notifyFm_frame]
@[simp] theorem notifyFm_tbl (a : Subject) (b : Nat) (s : State) : (notifyFm a b s).tbl = s.tbl := by rw [notifyFm_frame]
@[simp] theorem notifyFm_srch (a : Subject) (b : Nat) (s : State) : (notifyFm a b s).srch = s.srch := by rw [notifyFm_frame]
@[simp] theorem notifyFm_eng (a : Subject) (b : Nat) (s : State) : (notifyFm a b s).eng = s.eng := by rw [notifyFm_frame]
@[simp] theorem notifyFm_q (a : Subject) (b : Nat) (s : State) : (notifyFm a b s).q = s.q := by rw [notifyFm_frame]
@[simp] theorem notifyFm_fw (a : Subject) (b : Nat) (s : State) : (notifyFm a b s).fw = s.fw := by rw [notifyFm_frame]
@[simp] theorem notifyFm_tray (a : Subject) (b : Nat) (s : State) : (notifyFm a b s).tray = s.tray := by rw [notifyFm_frame]
@[simp] theorem notifyFm_port (a : Subject) (b : Nat) (s : State) : (notifyFm a b s).port = s.port := by rw [notifyFm_frame]
@[simp] theorem notifyFm_pwr (a : Subject) (b : Nat) (s : State) : (notifyFm a b s).pwr = s.pwr := by rw [notifyFm_frame]
@[simp] theorem notifyFm_dbg (a : Subject) (b : Nat) (s : State) : (notifyFm a b s).dbg = s.dbg := by rw [notifyFm_frame]
@[simp] theorem notifyFm_ident (a : Subject) (b : Nat) (s : State) : (notifyFm a b s).ident = s.ident := by rw [notifyFm_frame]
@[simp] theorem notifyFm_pins (a : Subject) (b : Nat) (s : State) : (notifyFm a b s).pins = s.pins := by rw [notifyFm_frame]
@[simp] theorem notifyFm_time (a : Subject) (b : Nat) (s : State) : (notifyFm a b s).time = s.time := by rw [notifyFm_frame]
@[simp] theorem notifyFm_beat (a : Subject) (b : Nat) (s : State) : (notifyFm a b s).beat = s.beat := by rw [notifyFm_frame]
@[simp] theorem notifyFm_pending (a : Subject) (b : Nat) (s : State) : (notifyFm a b s).pending = s.pending := by rw [notifyFm_frame]
@[simp] theorem notifyFm_free (a : Subject) (b : Nat) (s : State) : (notifyFm a b s).free = s.free := by rw [notifyFm_frame]
@[simp] theorem notifyFm_levees (a : Subject) (b : Nat) (s : State) : (notifyFm a b s).flt.levees = s.flt.levees := by rw [notifyFm_frame]

end Sys2Proof.Machine
end

