-- ==== Sys2Proof/WellFormed.lean ====
section
/-!
DEFINITION. Which commands are well formed: lists of the lengths that the fields they stand for have.
-/

namespace Sys2Proof

/-- An item is one to four entries of 64 bytes (R347). -/
def Item.wf (it : Item) : Bool := decide (it.words.length % 16 = 0 ∧ 16 ≤ it.words.length ∧ it.words.length ≤ 64)

/-- Five digests: SEC, PMC, SCH, cluster control cores, manifest (R166). -/
def BundleRead.wf (b : BundleRead) : Bool := decide (b.digests.length = 5)

/-- 16 serial bytes and twelve die records of four words (R472). -/
def TerpInputs.wf (f : TerpInputs) : Bool :=
  decide (f.serial.length = 16 ∧ f.dies.length = 12) && f.dies.all fun d => decide (d.length = 4)

/-- 24 DDR and 64 NAND channels (R27). -/
def TrayInputs.wf (t : TrayInputs) : Bool := decide (t.ddr.length = 24 ∧ t.nand.length = 64) && t.copyA.wf && t.copyB.wf

/-- The item of a command of Table 18.1. -/
def Instr.item? : Instr → Option Item
  | .identify it | .versionHandshake it | .qpCreate it | .qpDelete it | .qpFlush it | .polderCreate it | .polderModeSet it
  | .polderDrain it | .hitWrite it | .hitRead it | .tenantCreate it | .tenantReset it | .policerSet it | .segWrite it
  | .segSync it | .keyLoad it | .calExport it | .calImport it | .copyAsync it | .fence it | .counterWait it | .abort it
  | .atomic it | .resilStats it | .weirStats it | .copyStats it | .tableRefreshBegin it | .tableRefreshCommit it
  | .tierPromote it | .tierDemote it | .tierStats it | .htwWrite it | .htwRead it | .flashManage it | .tableDefine it
  | .tableWrite it | .lookupStats it | .lookupPooled it | .gatherRows it | .seqPool it | .decodeAttn it | .search it
  | .searchCompat it | .kernelLaunch it | .crownRun it | .digestSetup it | .reduce it | .gatherHosts it | .filterStream it
  | .fwStage it _ | .fwActivate it _ _ _ | .recFreeze it | .recRead it | .recThaw it | .dbgStatus it | .dbgChallenge it
  | .dbgUnlock it _ | .dbgLock it | .dbgPeek it | .dbgPoke it | .dbgHalt it _ | .dbgResume it => some it
  | _ => none

/-- The lengths of every list that a command carries. -/
def Instr.wf (i : Instr) : Bool :=
  (i.item?.all Item.wf) &&
    match i with
    | .fwStage _ b => b.wf
    | .entryFetch _ _ _ ws _ => decide (ws.length % 16 = 0)
    | .crownSubmit _ _ ws => decide (ws.length % 16 = 0 ∧ 16 ≤ ws.length ∧ ws.length ≤ 64)
    | .fmTunnelItem ws => decide (ws.length % 16 = 0 ∧ 16 ≤ ws.length ∧ ws.length ≤ 64)
    | .jtagDbgmbox ws _ _ _ => decide (ws.length = 16)
    | .engineWrite _ _ data _ => decide (1 ≤ data.length ∧ data.length ≤ 65536)
    | .pushSlotWrite _ _ _ offset data => decide (1 ≤ data.length ∧ offset.toNat + data.length ≤ 65536)
    | .flashWriteArrival _ _ data _ => decide (1 ≤ data.length)
    | .terpSupplyValid f => f.wf
    | .sysResetRelease t => t.wf
    | .setLdAllocations _ _ division => decide (division.length = 16)
    | _ => true

end Sys2Proof
end

