-- ==== Sys2Proof/Tests/Slice0.lean ====
section
/-!
SUPPORT. Ill-formed commands that WellFormed refuses, small tests whose expected results are the spec's own numbers, and a
state and operands that meet the hypotheses of each statement of Certificates/Slice0.
-/

set_option maxRecDepth 4000

namespace Sys2Proof.Tests

open Sys2Proof.Machine

/-! ### Ill-formed commands -/

def tBundle (n : Nat) : BundleRead := ⟨0, 0, 0, 0, 0, 0, 0, true, true, List.replicate n 0⟩
def tItemOf (n : Nat) : Item := ⟨.admin 0 0, List.replicate n 0, []⟩
def tTerpOf (serial dies words : Nat) : TerpInputs := ⟨List.replicate serial 0, List.replicate dies (List.replicate words 0), 0, false, 0, true, true⟩
def tDdrFit : DdrFit := ⟨0, 0, 0, true, true⟩
def tNandFit : NandFit := ⟨0, 0, true, true, 0, true⟩
def tTrayOf (ddr nand a b : Nat) : TrayInputs := ⟨List.replicate ddr tDdrFit, List.replicate nand tNandFit, 0, 0, true, tBundle a, tBundle b⟩
def tRef : EngineRef := ⟨0, 0, 0, 0, 0⟩

theorem test_wf_item_empty : (Instr.identify (tItemOf 0)).wf = false := by decide
theorem test_wf_item_ragged : (Instr.identify (tItemOf 17)).wf = false := by decide
theorem test_wf_item_long : (Instr.identify (tItemOf 80)).wf = false := by decide
theorem test_wf_item_one : (Instr.identify (tItemOf 16)).wf = true := by decide
theorem test_wf_bundle : (Instr.fwStage (tItemOf 16) (tBundle 4)).wf = false := by decide
theorem test_wf_fetch : (Instr.entryFetch 0 0 none [0] []).wf = false := by decide
theorem test_wf_submit : (Instr.crownSubmit 0 0 []).wf = false := by decide
theorem test_wf_tunnel : (Instr.fmTunnelItem []).wf = false := by decide
theorem test_wf_mailbox : (Instr.jtagDbgmbox [] [] false none).wf = false := by decide
theorem test_wf_engine_write : (Instr.engineWrite tRef 0 [] false).wf = false := by decide
theorem test_wf_push_empty : (Instr.pushSlotWrite 0 0 0 0 []).wf = false := by decide
theorem test_wf_push_end : (Instr.pushSlotWrite 0 0 0 0xFFFF [0, 0]).wf = false := by decide
theorem test_wf_flash_write : (Instr.flashWriteArrival 0 0 [] false).wf = false := by decide
theorem test_wf_serial : (Instr.terpSupplyValid (tTerpOf 15 12 4)).wf = false := by decide
theorem test_wf_dies : (Instr.terpSupplyValid (tTerpOf 16 11 4)).wf = false := by decide
theorem test_wf_die_words : (Instr.terpSupplyValid (tTerpOf 16 12 3)).wf = false := by decide
theorem test_wf_ddr : (Instr.sysResetRelease (tTrayOf 23 64 5 5)).wf = false := by decide
theorem test_wf_nand : (Instr.sysResetRelease (tTrayOf 24 63 5 5)).wf = false := by decide
theorem test_wf_copy_a : (Instr.sysResetRelease (tTrayOf 24 64 4 5)).wf = false := by decide
theorem test_wf_copy_b : (Instr.sysResetRelease (tTrayOf 24 64 5 4)).wf = false := by decide
theorem test_wf_tray : (Instr.sysResetRelease (tTrayOf 24 64 5 5)).wf = true := by decide
theorem test_wf_division : (Instr.setLdAllocations false 0 []).wf = false := by decide

/-! ### The spec's own numbers -/

/-- R291: with W = −4, 1.3125 and −0.40625 enter as 21 and −6 units; the sum is 15 units. -/
theorem test_ofa_units : ofaUnits (-4) (.fin false 21 (-4)) = 21 ∧ ofaUnits (-4) (.fin true 13 (-5)) = -6 := by decide
theorem test_ofa_sum : ofaResult (-4) [.fin true 13 (-5), .fin false 21 (-4)] = .fin false 15 (-4) := by decide
/-- Chapter 14: FP32 1 + 2^−8 lies halfway between two BF16 numbers; round to nearest even gives 1.0. -/
theorem test_bf16_even : fpEncode bf16 (.fin false 257 (-8)) = 0x3F80 := by decide
/-- R284: the canonical NaNs. -/
theorem test_nans : [fp32, bf16, fp16, fpE4M3, fpE5M2].map fpNan = [0x7FC00000, 0x7FC0, 0x7E00, 0x7F, 0x7E] := by decide
/-- R284, Table 14.4: 449 rounds to 448 in E4M3, 65,520 overflows FP16, and a negative zero keeps its sign. -/
theorem test_conversions : fpEncode fpE4M3 (.fin false 449 0) = 0x7E ∧ fpEncode fp16 (.fin false 65520 0) = 0x7C00 ∧ fpEncode fp32 (.fin true 0 0) = 0x80000000 := by decide
/-- R188: behind +3 on 100 the batch +1, +5, +2 finds 103; the counter ends at 111. -/
theorem test_batch_sum : atomicNew 0 8 103 (1 + 5 + 2) 0 = 111 := by decide
/-- Table 2.3, R112, R139: DRAM block 11 of ten channels, and the second stripe's first block of nine active ones. -/
theorem test_interleave : interleave 4096 10 (11 * 4096 + 5) = (1, 4096 + 5) := by decide
theorem test_parity : parityPlace 10 (8 * 4096 + 7) = (9, 7) ∧ parityPlace 10 (9 * 4096) = (0, 4096) := by decide
/-- Table 2.2: the first and last addresses of the regions. -/
theorem test_regions : [0, 0x0BFFFFFFFFFF, 0x0C0000000000, 0x100000000000, 0x1047FFFFFFFF, 0x104800000000].map regionOf
    = [.dram, .dram, .reserved, .hbm, .hbm, .reserved] := by decide
theorem test_regions_high : [0x180000000000, 0x18009EFFFFFF, 0x18009F000000, 0x200000000000, 0x11FFFFFFFFFFF, 0x1200000000000, 0x3000000000000].map regionOf
    = [.row, .row, .reserved, .flash, .flash, .reserved, .host] := by decide
/-- Table 18.8: codes and ranks. -/
theorem test_status_codes : [Status.ok, .aborted, .mapFault, .poisoned, .fenced, .held, .invalid].map statusCode = [0, 0x10, 0x20, 0x30, 0x50, 0x61, 0xF0] := by decide
theorem test_status_rank : statusOf [.late, .mapFault, .poisoned] = .mapFault ∧ statusOf [.late, .aborted, .rightsFault] = .aborted := by decide
/-- Table 27.1: spill points 1,940 µs and 140 µs after the origin, at 25 ticks a microsecond. -/
theorem test_spill_point : spillPoint { serial := 1, src := .jtag, words := [0, 0x07D00000] } 60 = 1940 * 25 ∧ spillPoint { serial := 1, src := .jtag, words := [0, 0x00960000] } 10 = 140 * 25 := by decide
/-- Chapter 27: mode words 0x5C95_0000 and 0x5CD6_0000 are legal; REPRODUCIBLE with spillway is not (R328). -/
theorem test_modes : reservedAxes 0x5C950000 = [] ∧ reservedAxes 0x5CD60000 = [] ∧ illegalAxes 0x5CD60000 0xFFF 0 1 = [] ∧ illegalAxes 0x5CD50000 0xFFF 0 1 = [4, 7] := by decide
/-- R502: the check values of CRC-32 and CRC-32C over "123456789". -/
theorem test_crc : crc32 [0x31, 0x32, 0x33, 0x34, 0x35, 0x36, 0x37, 0x38, 0x39] = 0xCBF43926 ∧ crc32c [0x31, 0x32, 0x33, 0x34, 0x35, 0x36, 0x37, 0x38, 0x39] = 0xE3069283 := by decide +kernel
/-- R421, R324: one idle step is a tick, and the 64th tick raises the beat. -/
theorem test_tick : (tick { State.reset with time := 63 }).beat = 1 ∧ (tick { State.reset with time := 64 }).beat = 0 := by decide
/-- A command at the front leaves the queue. -/
theorem test_front : (match step { State.reset with pending := [.jtagTapReset, .jtagTapReset] } with | .next t => t.pending.length | _ => 9) = 1 := by decide
/-- R28: one 128 GiB DIMM on each of 24 channels and 64 NAND channels give S = 3; 16 NAND channels give S = 1. -/
def tTrayWith (n : Nat) : TrayInputs := ⟨List.replicate 24 ⟨1, 128, 0, true, true⟩, List.replicate n ⟨16, 0, true, true, 0, true⟩ ++ List.replicate (64 - n) tNandFit, 4096, 0, true, tBundle 5, tBundle 5⟩
theorem test_share : (trayOf (tTrayWith 64)).share = 3 ∧ (trayOf (tTrayWith 16)).share = 1 ∧ (trayOf (tTrayWith 64)).dimmGib = 128 := by decide +kernel
/-- R27: L is 3,604 GiB for 4 TiB raw; C is 125 GiB in the first case. -/
theorem test_capacity : nandUsable { State.reset with tray := { nandGib := 4096 } } = 3604 ∧ dimmUsable { State.reset with tray := { dimmGib := 128, share := 3 } } = 125 := by decide

/-! ### States for the witnesses -/

def tRing : Ring := { cqDev := false }
def tSl : Sluice := { hid := 7, adminEnable := true, adminReady := true, state := .ready, qps := [(3, tRing)] }
def tSluice : State := { State.reset with q := { sluices := [(1, tSl)], bound := [(1, 7)] } }
def tRingHeld : Ring := { cqHead := 5, cqTail := 4, held := [([0, 0, 0, 0, 0, 0, 0, 0], false)] }
def tSlHeld : Sluice := { tSl with qps := [(3, tRingHeld)] }
def tUp : PortSt := { ports := [(0, { links := [(0, { state := .l0 })] })] }
def tHeldUp : State := { tSluice with q := { tSluice.q with sluices := [(1, tSlHeld)] }, port := tUp }
def tRingPart : Ring := { sqTail := 1, partialAt := some 0, partialWords := BitVec.ofNat 32 0x5A000100 :: List.replicate 15 0 }
def tSlPart : Sluice := { tSl with qps := [(3, tRingPart)] }
def tPart : State := { tSluice with q := { tSluice.q with sluices := [(1, tSlPart)] } }
def tRingIrq : Ring := { irqEn := true, vector := 9, aggTime := 4, aggCount := 8, uncovered := 2 }
def tSlIrq : Sluice := { tSl with qps := [(3, tRingIrq)], unmasked := [9] }
def tIrq : State := { tSluice with q := { tSluice.q with sluices := [(1, tSlIrq)] } }
def tItem (w0 w1 : Nat) (rest : List Nat) (n : Nat) : List Word :=
  (w0 :: w1 :: 0x5A00 :: rest ++ List.replicate (16 * n - 3 - rest.length) 0).map (BitVec.ofNat 32)
def tIdentify : List Word := tItem 0x01 5 [] 1
def tFence : List Word := tItem 0x41 5 [] 1
def tRingOne : Ring := { sqTail := 1 }
def tSlOne : Sluice := { tSl with qps := [(3, tRingOne)] }
def tOne : State := { tSluice with q := { tSluice.q with sluices := [(1, tSlOne)] } }
def tSlOff : Sluice := { tSl with adminEnable := false, adminReady := false }
def tAdminOff : State := { tSluice with q := { tSluice.q with sluices := [(1, tSlOff)] } }
/-- TCX 0, live in polder 0, in which everything is granted to HID 7; its DRAM and the row store. -/
def tPolder : Polder := { state := .live, modes := 0x01000000, cores := 0xFF, crown := 1, dramRange := ⟨0, 2 ^ 30, 2 ^ 30⟩, ddr := 1 }
def tLive : State := { tSluice with
  polders := [(0, tPolder)], tcxs := [(0, { state := .live })]
  hit := [(7, { valid := true, admin := true, mask := BitVec.allOnes 64 })] }
/-- A state in which the command of an item waits. -/
def tWait (s : State) (it : Item) : State := { s with q := { s.q with cmds := [newCmd s it], next := s.q.next + 1 } }
def tWaitIdentify : State := tWait tSluice ⟨.admin 0 1, tIdentify, []⟩
def tCmdIdentify : Cmd := newCmd tSluice ⟨.admin 0 1, tIdentify, []⟩
def tPoolWait : State := { tWait tLive ⟨.data 0 1 3, tFence, []⟩ with res := { poolWaiters := [1] } }
def tCmdPool : Cmd := newCmd tLive ⟨.data 0 1 3, tFence, []⟩
def tRun : CrownRun := { cores := [0, 1] }
def tRunCmd : Cmd := { serial := 1, src := .data 0 1 3, words := tItem 0xA8 9 [] 2, opcode := 0xA8, cid := 9, polder := 0, phase := 2 }
def tRunWith (r : CrownRun) : State := { tLive with q := { tLive.q with cmds := [tRunCmd], next := 2 }, eng := { runs := [(1, r)] } }
def tRunState : State := tRunWith tRun
def tRunDone : State := tRunWith { tRun with done := [(5, [1])] }
def tRunOut : State := tRunWith { tRun with outstanding := [(2, 5)] }
def tRunLogged : State := tRunWith { tRun with logTick := [(0, 1)] }
def tRunLast : State := tRunWith { tRun with exits := [(1, 0)] }
def tReq : MemReq := { port := 0, ld := 1, tag := 3, tpa := 0, bi := false, stream := none }
def tHost : State := { tLive with hit := [(7, { valid := true, mask := BitVec.allOnes 64, ranges := [{ a := true, w := true, r := true, length := 1 }] })] }
def tDirSlot : DirSlot := { state := .owned, ids := [7, 9] }
def tHostSlot : State := { tHost with coh := { sets := [(0, [tDirSlot])] }, polders := [(0, { tPolder with modes := 0x41000000 })] }
def tSnoopFlow : Flow := { req := { op := .evict, asker := .device, tpa := 0 }, snoops := [{ hid := 7, isData := true }] }
def tSnooped : State := { tHost with coh := { flows := [(0, tSnoopFlow)] } }
def tSeg : Segment := { valid := true, a := true, w := true, r := true, length := 1 }
def tMapped : State := { tLive with segs := [(0, tSeg)] }
def tRunPoison : State := { tMapped with
  q := { tLive.q with cmds := [tRunCmd], next := 2 }, eng := { runs := [(1, { tRun with handler := true })] }, mem := { poison := [(0, .uncorrectable)] } }
def tKernelCmd : Cmd := { tRunCmd with opcode := 0xA0, words := tItem 0xA0 9 [] 2 }
def tPlaced (pl : Placement) : State := { tMapped with q := { tLive.q with cmds := [tKernelCmd], next := 2 }, eng := { placements := [(1, pl)] } }
def tMediumFlow : Flow := { req := { op := .readAny, asker := .host 7 0 1 3, tpa := 0 }, medium := true }
def tMedium : State := { tHost with coh := { flows := [(0, tMediumFlow)] } }
def tEngine : EngineRef := { unit := 0, engine := 0, stream := 0, tcx := 0, serial := 0 }
def tAccess : WaitingAccess := { unit := 0, engine := 0, stream := 0, tcx := 0, serial := 0, write := false, dva := 0, length := 64, dest := 0 }
def tCached : State := { tMapped with eng := { segCaches := [(0, [⟨0, 0, tSeg⟩])], lastTcx := [(0, 0)] } }
def tThTile : Tile := { serial := 0, tcx := 0, unit := 0, engine := 0, stream := 0, write := false, dva := 0, length := 1, dest := 0 }
def tTh : State := { tMapped with eng := { tiles := [(1, tThTile)] }, tier := { thReads := [(1, (0, 0, 1, 0))] } }
def tBatch : FetchBatch := { tpa := 0, bytes := 8, key := 5, kind := 34, sent := [[(.device, 1)]], forming := [(.device, 3)] }
def tBatchBack : FetchBatch := { tpa := 0, bytes := 8, key := 5, kind := 34, sent := [[(.device, 3)]], results := [(7, false, false)] }
def tSpillCmd : Cmd := { serial := 1, src := .data 0 1 3, words := tItem 0x80 (9 + 300 * 2 ^ 16) [] 2, opcode := 0x80, modes := 0x00010000, issued := [(4, 0)] }
def tSpill : State := { tMapped with q := { tLive.q with cmds := [tSpillCmd] }, time := 10000 }
def tStarted : State := { tMapped with fw := { started := true } }
def tFrame : Frame := { polder := 64 }
def tCopyWords : List Nat := [0, 0, 0, 4095, 0, 2, 0]
def tCopyCmd : Cmd := { serial := 1, src := .data 0 1 3, words := tItem 0x40 9 [0, 0, 0, 4095, 0, 2, 0] 2, opcode := 0x40, polder := 0, phase := 1 }
def tCopy : State := { tMapped with q := { tLive.q with cmds := [tCopyCmd], next := 2 } }
def tBestCmd : Cmd := { tCopyCmd with words := tItem 0x40 9 [0x80000000] 2 }
def tBest : State := { tMapped with q := { tLive.q with cmds := [tBestCmd], next := 2 } }
def tResend : State := { tBest with copy := { resends := [{ serial := 1, frame := tFrame }] } }
def tPeriodic : State := { tMapped with weir := { streams := [(0, { period := 1, clear := false, dva := 0 })] } }
def tRetrain : State := { tMapped with flt := { levees := [(0, { retraining := true, pendingLanes := [(3, 1)] })] } }
def tWaitCmd : Cmd := { serial := 1, src := .data 0 1 3, words := tItem 0x42 9 [0, 5, 0, 100] 2, opcode := 0x42, polder := 0, phase := 1 }
def tWaiting : State := { tMapped with q := { tLive.q with cmds := [tWaitCmd], next := 2 } }
def tPush : State := { tCopy with copy := { slots := [(slotKey 1 0, { serial := 1, length := 8 })] } }
def tBurst : State := { tCopy with copy := { slots := [(slotKey 1 0, { serial := 1, length := 8, timer := true })] } }
def tGroup : State := { tMapped with copy := { groups := [(5, { opcode := 0x44, params := [], count := 2 })] } }
def tHeldFrame : HeldFrame := { frame := tFrame, input := 0 }
def tUpPins : PinSt := { terpUp := true }
/-- A running device with the tenant of `tMapped`. -/
def tOn : State := { tMapped with pins := tUpPins, fw := { started := true, step := 6 } }
def tResetting : State := { tOn with tcxs := [(0, { state := .resetting })] }
def tDraining : State := { tOn with polders := [(0, { tPolder with state := .draining })] }
def tScrubbing : State := { tOn with polders := [(0, { tPolder with state := .scrubbing })] }
def tTiled : State := { tOn with eng := { tiles := [(1, tThTile)] } }
def tNoticed : State := { tOn with flt := { windows := [⟨0x0F, 64, 31, 0, 1, 0, 2, 5, 7⟩] } }
def tNand : State := { tOn with ftl := { chans := [(0, { present := true })] } }
def tNandHeld : State := { tNand with pins := { tUpPins with holdupOk := true } }
def tTerpIn : TerpInputs := { serial := List.replicate 16 0, dies := [], minSvn := 0, smbus := false, clkMode := 0, closedA := true, closedB := true }
def tRead : BundleRead := { version := 1, ifVersion := 1, arith := 1, svn := 0, handoffMin := 0, handoffMax := 9, handoff := 1, signed := true, consistent := true, digests := [] }
def tTray : TrayInputs := { ddr := [], nand := [], nandGib := 0, bootRom := 0, secOk := true, copyA := tRead, copyB := tRead }
/-- The terp is up and the device has not started. -/
def tTerpUp : State := { State.reset with
  pins := tUpPins, recorder := { norReady := true }
  ident := { serial := (List.replicate 12 0 ++ [111, 198, 213, 123]).map (BitVec.ofNat 8) } }
def tErasing : State := { tTerpUp with recorder := { erasing := some false } }
def tActivating : State := { tOn with fw := { started := true, step := 6, activating := some 1 } }
def tDeferred : State := { tOn with fw := { started := true, step := 6, deferred := [(1, (7, true))], locked := [(1, (2, 9))] } }
def tFilling : State := { tOn with tray := { ddrPresent := 1 } }
def tLinkWith (x : Link) : State := { tOn with port := { ports := [(0, { links := [(0, x)] })] } }
def tLink : State := tLinkWith { state := .l0, width := 16, active := 16 }
def tTraining : State := tLinkWith { state := .training }
def tDetached : State := tLinkWith { state := .detached, grace := true }
def tClusterWith (n : Nat) (x : Cluster) : State := { State.reset with pins := tUpPins, fw := { started := true }, pwr := { clusters := [(n, x)] } }
def tNandWith (x : Nand) : State := { tOn with ftl := { chans := [(0, x)] } }
def tDieWith (x : Die) : State := tNandWith { present := true, mapLoaded := true, dies := [(0, x)] }
def tFlashPolder : Polder := { tPolder with nand := 1, flashRange := ⟨2 ^ 48, 2 ^ 30, 2 ^ 30⟩ }
def tFlashCmd : Cmd := { serial := 1, src := .data 0 1 3, words := tItem 0x40 9 [] 2, opcode := 0x40, polder := 0, phase := 1, issued := [(2 ^ 36, 0)] }
def tFlashOn : State := { tOn with
  polders := [(0, tFlashPolder)]
  q := { tLive.q with cmds := [tFlashCmd], next := 2 }
  ftl := { chans := [(0, { present := true, mapLoaded := true })] } }
def tFlashTile : Tile := { tThTile with write := true, dva := 0, left := [(2 ^ 42, 0, 0, 1)] }
def tSearchWords : List Word := tItem 0x88 9 [0x80000000, 0, 0, 0, 0, 0, 0, 128, 0, 256, 0, 0, 0, 512, 0] 4
def tSearchCmd : Cmd := { tRunCmd with opcode := 0x88, phase := 1, modes := 0x40000, words := tSearchWords }
def tSearch : State := { tOn with
  polders := [(0, { tPolder with hbm := 1 })]
  q := { tLive.q with cmds := [tSearchCmd], next := 2 }
  mem := { bytes := [(0, 1), (130, 0x80), (131, 0x3F)] }
  srch := { running := [(5, { serial := 1 })], runs := [(1, { open_ := [5] })] } }
def tSearchEnd : State := { tSearch with srch := { runs := [(1, { open_ := [] })] } }
def tRegs (r : RegSt) : State := { tOn with regs := r }
def tCreateWords : List Word := tItem 0x10 5 ([1, 0xDD460000, 1] ++ List.replicate 24 0 ++ [4096]) 2
def tCreating : State := tWait { tSluice with tray := { ddrPresent := 1, dimmGib := 64 }, fw := { filledDdr := 1 } } ⟨.admin 0 1, tCreateWords, []⟩
/-- A polder command of polder 0 in a state of it. -/
def tPolderIn (st : PolderState) : State := { tLive with polders := [(0, { tPolder with state := st })] }
def tCreateBad : List Word := tItem 0x10 5 ([1, 0x1D460000, 1] ++ List.replicate 24 0 ++ [4096]) 2
def tCreatingBad : State := tWait { tSluice with tray := { ddrPresent := 1, dimmGib := 64 }, fw := { filledDdr := 1 } } ⟨.admin 0 1, tCreateBad, []⟩
/-- POLDER_MODE_SET of polder 0: power policy FRUGAL. -/
def tModeWords : List Word := tItem 0x11 5 [0, 0x00200000, 32] 1
def tModeLive : State := { tLive with polders := [(0, { tPolder with modes := 0xDD460000 })] }
def tDrainReset : State := { tLive with polders := [(0, { tPolder with state := .draining })], tcxs := [(0, { state := .resetting })] }
def tPolicerWords : List Word := tItem 0x1C 5 [0x80000000, 1, 2, 3, 4] 1
def tSegWords : List Word := tItem 0x20 5 [0, 0x80000000, 0xE0000001, 0, 0, 0] 1
def tSegStale : List Word := tItem 0x20 5 [0x50000, 0x80000000, 0xE0000001, 0, 0, 0] 1
/-- The CHECK of an entry never written, as SEG_SYNC carries it. -/
def tCheck : Word := BitVec.ofNat 32 (segCheck {})
def tSyncWords : List Word := (tItem 0x21 5 [0] 1).take 4 ++ List.replicate 16 tCheck ++ List.replicate 12 0
def tDigestWords : List Word := tItem 0xAC 5 [0x80000000, 0, 0, 16] 1
theorem tCheck_toNat : tCheck.toNat = segCheck {} := by
  unfold tCheck segCheck; rw [BitVec.toNat_ofNat, Nat.mod_mod]
theorem tSync_waits : Waits 0x21 ⟨.admin 0 1, tSyncWords, []⟩ (tWait tLive ⟨.admin 0 1, tSyncWords, []⟩) (newCmd tLive ⟨.admin 0 1, tSyncWords, []⟩) := by
  have hd : dispatchable (tWait tLive ⟨.admin 0 1, tSyncWords, []⟩) (newCmd tLive ⟨.admin 0 1, tSyncWords, []⟩) = true := by decide
  unfold Waits
  refine ⟨rfl, by decide, ?_, rfl, rfl, hd, ?_⟩
  · unfold pendingCmd; simp [tWait, newCmd, tLive, tSluice]
  · intro d hd _; simpa [tWait, tLive, tSluice] using hd
theorem tSync_waits' : Waits 0x21 ⟨.admin 0 1, tSyncWords, []⟩ (tWait tMapped ⟨.admin 0 1, tSyncWords, []⟩) (newCmd tMapped ⟨.admin 0 1, tSyncWords, []⟩) := by
  have hd : dispatchable (tWait tMapped ⟨.admin 0 1, tSyncWords, []⟩) (newCmd tMapped ⟨.admin 0 1, tSyncWords, []⟩) = true := by decide
  unfold Waits
  refine ⟨rfl, by decide, ?_, rfl, rfl, hd, ?_⟩
  · unfold pendingCmd; simp [tWait, newCmd, tMapped, tLive, tSluice]
  · intro d hd _; simpa [tWait, tMapped, tLive, tSluice] using hd
theorem tSync_word (n : Nat) (h : n < 16) : wordAt tSyncWords (4 + n) = segCheck {} := by
  rw [← tCheck_toNat]; unfold tSyncWords; generalize tCheck = k
  interval_cases n <;> rfl
theorem tSync_checks : ∀ n < 16, segCheck (segOf (tWait tLive ⟨.admin 0 1, tSyncWords, []⟩) (newCmd tLive ⟨.admin 0 1, tSyncWords, []⟩).tcx n)
    = wordAt (newCmd tLive ⟨.admin 0 1, tSyncWords, []⟩).words (4 + n) := by
  intro n hn
  show segCheck {} = wordAt tSyncWords (4 + n)
  rw [tSync_word n hn]
theorem tSync_differs : ∃ n < 16, segCheck (segOf (tWait tMapped ⟨.admin 0 1, tSyncWords, []⟩) (newCmd tMapped ⟨.admin 0 1, tSyncWords, []⟩).tcx n)
    ≠ wordAt (newCmd tMapped ⟨.admin 0 1, tSyncWords, []⟩).words (4 + n) := by
  refine ⟨0, by decide, ?_⟩
  show segCheck tSeg ≠ wordAt tSyncWords (4 + 0)
  rw [tSync_word 0 (by decide)]
  decide
def tEnc : State := { tLive with polders := [(0, { tPolder with modes := 0 })] }
def tEncKey : State := { tEnc with tcxs := [(0, { state := .live, keys := [(0, { key := 1, keyId := 0 })] })] }
/-- KEY_LOAD of slot 0, `op` being the operation times 16. -/
def tKeyWords (op : Nat) : List Word := tItem 0x28 5 ([op] ++ List.replicate 14 0 ++ [if op = 0 then 4096 else 0]) 2
def tStaged : State := { tSluice with fw := { staging := some {}, staged := true } }
/-- Host memory of HID 7 from an HPA on. -/
def tHostOf : Nat → List Byte → List HostByte
  | _, [] => []
  | a, b :: l => { hid := 7, hpa := a, val := b } :: tHostOf (a + 1) l
def tHostAt (n : Nat) : List HostByte := tHostOf 0 (List.replicate n 0)
def tStageWords : List Word := tItem 0xE0 5 [0, 0, 0, 65536] 1
theorem tHost_find (l : List Byte) (a i : Nat) (h : i < l.length) : hostByte (tHostOf a l) 7 (a + i) = some (l[i], false) := by
  induction l generalizing a i with
  | nil => simp at h
  | cons b l ih =>
    cases i with
    | zero => simp [tHostOf, hostByte]
    | succ i =>
      have := ih (a + 1) i (by simpa using h)
      rw [show a + 1 + i = a + (i + 1) by omega] at this
      unfold hostByte at this ⊢
      rw [tHostOf, List.find?_cons_of_neg (by simp)]
      exact this
theorem tHost_bytes (l : List Byte) (a : Nat) : hostBytes (tHostOf a l) 7 a l.length = some l := by
  unfold hostBytes
  suffices h : ∀ m k, k + m = l.length →
      ((List.range' k m).mapM fun i => (hostByte (tHostOf a l) 7 (a + i)).map (·.1)) = some (l.drop k) by
    have := h l.length 0 (by omega)
    rwa [← List.range_eq_range', List.drop_zero] at this
  intro m
  induction m with
  | zero => intro k hk; simp [show l.drop k = [] from List.drop_eq_nil_of_le (by omega)]
  | succ m ih =>
    intro k hk
    have hl : k < l.length := by omega
    rw [List.range'_succ, List.mapM_cons, tHost_find l a k hl, ih (k + 1) (by omega)]
    simp
theorem tItem_waits (op : Nat) (ws : List Word) (host : List HostByte) (h1 : hdrOpcode ws = op)
    (hd : dispatchable (tWait tSluice ⟨.admin 0 1, ws, host⟩) (newCmd tSluice ⟨.admin 0 1, ws, host⟩) = true) :
    Waits op ⟨.admin 0 1, ws, host⟩ (tWait tSluice ⟨.admin 0 1, ws, host⟩) (newCmd tSluice ⟨.admin 0 1, ws, host⟩) := by
  refine ⟨rfl, h1, ?_, rfl, rfl, hd, ?_⟩
  · unfold pendingCmd; simp [tWait, newCmd, tSluice]
  · intro d h _; simpa [tWait, tSluice] using h
theorem tStage_waits : Waits 0xE0 ⟨.admin 0 1, tStageWords, tHostAt 65536⟩ (tWait tSluice ⟨.admin 0 1, tStageWords, tHostAt 65536⟩)
    (newCmd tSluice ⟨.admin 0 1, tStageWords, tHostAt 65536⟩) := tItem_waits _ _ _ (by decide) (by decide)
theorem tStage_bytes : (hpaBytes (dispatchCmd (newCmd tSluice ⟨.admin 0 1, tStageWords, tHostAt 65536⟩).serial
    (tWait tSluice ⟨.admin 0 1, tStageWords, tHostAt 65536⟩)) (newCmd tSluice ⟨.admin 0 1, tStageWords, tHostAt 65536⟩)).isSome = true := by
  have h := tHost_bytes (List.replicate 65536 0) 0
  rw [List.length_replicate] at h
  show (hostBytes (tHostAt 65536) 7 0 65536).isSome = true
  unfold tHostAt
  rw [h]; rfl
theorem tImport_waits : Waits 0x31 ⟨.admin 0 1, tItem 0x31 5 [0, 0, 0, 4096] 1, tHostAt 4096⟩
    (tWait tSluice ⟨.admin 0 1, tItem 0x31 5 [0, 0, 0, 4096] 1, tHostAt 4096⟩)
    (newCmd tSluice ⟨.admin 0 1, tItem 0x31 5 [0, 0, 0, 4096] 1, tHostAt 4096⟩) := tItem_waits _ _ _ (by decide) (by decide)
theorem tImport_bytes : hpaBytes (dispatchCmd (newCmd tSluice ⟨.admin 0 1, tItem 0x31 5 [0, 0, 0, 4096] 1, tHostAt 4096⟩).serial
    (tWait tSluice ⟨.admin 0 1, tItem 0x31 5 [0, 0, 0, 4096] 1, tHostAt 4096⟩))
    (newCmd tSluice ⟨.admin 0 1, tItem 0x31 5 [0, 0, 0, 4096] 1, tHostAt 4096⟩) = some (List.replicate 4096 0) := by
  have h := tHost_bytes (List.replicate 4096 0) 0
  rw [List.length_replicate] at h
  exact h
/-- A calibration set of a device whose serial is zero: its header, its digest, zeros. -/
def tCalHead : List Byte := toBytes 4 0x42594341 ++ toBytes 2 1 ++ toBytes 2 0 ++ toBytes 4 8192 ++ List.replicate 20 0
def tCalSet : List Byte := tCalHead ++ (toBytes 32 (calDigest (tCalHead ++ List.replicate 8160 0)) ++ List.replicate 8128 0)
def tCalWords : List Word := tItem 0x31 5 [0, 0, 0, 8192] 1
def tCalOn : State := { tSluice with ident := { serial := List.replicate 16 0 } }
theorem tCal_head : tCalHead.length = 32 := by decide
theorem tCal_length : tCalSet.length = 8192 := by
  unfold tCalSet; rw [List.length_append, List.length_append, tCal_head, toBytes_length, List.length_replicate]
theorem tCal_drop (n : Nat) (h : 64 ≤ n) : tCalSet.drop n = List.replicate (8128 - (n - 64)) 0 := by
  unfold tCalSet
  rw [List.drop_append, List.drop_append, tCal_head, toBytes_length, List.drop_eq_nil_of_le (by rw [tCal_head]; omega),
    List.drop_eq_nil_of_le (by rw [toBytes_length]; omega), List.drop_replicate]
  simp only [List.nil_append]
  congr 1
theorem tCal_small (off n : Nat) (h : off + n ≤ 32) : leAt tCalSet off n = leAt tCalHead off n := by
  unfold leAt tCalSet
  rw [List.drop_append, List.take_append_of_le_length]
  rw [List.length_drop, tCal_head]; omega
theorem tCal_zero (off n : Nat) (h : 64 ≤ off) : leAt tCalSet off n = 0 := by
  unfold leAt
  rw [tCal_drop off h, List.take_replicate, ofBytes_zeros]
theorem tCal_digest : leAt tCalSet 0x20 32 = calDigest tCalSet := by
  have e : ∀ d : List Byte, d.length = 32 → calDigest (tCalHead ++ (d ++ List.replicate 8128 0)) = calDigest (tCalHead ++ List.replicate 8160 0) := by
    intro d hd
    unfold calDigest
    rw [List.take_append_of_le_length (by rw [tCal_head]), List.take_append_of_le_length (by rw [tCal_head]),
      List.drop_append, List.drop_append, List.drop_eq_nil_of_le (by rw [tCal_head]; omega), tCal_head,
      List.drop_append, hd, List.drop_eq_nil_of_le (by rw [hd]), List.drop_replicate, List.drop_replicate]
    rfl
  have d : leAt tCalSet 0x20 32 = calDigest (tCalHead ++ List.replicate 8160 0) % 256 ^ 32 := by
    rw [← ofBytes_toBytes]
    unfold leAt tCalSet
    rw [List.drop_append, List.drop_eq_nil_of_le (by rw [tCal_head]), tCal_head, List.nil_append, Nat.sub_self, List.drop_zero,
      List.take_append_of_le_length (by rw [toBytes_length]), List.take_of_length_le (by rw [toBytes_length])]
  rw [d]
  unfold tCalSet
  rw [e _ (toBytes_length _ _)]
  exact Nat.mod_eq_of_lt (sha3_lt _)
theorem tCal_ok : calOk (tWait tCalOn ⟨.admin 0 1, tCalWords, tHostOf 0 tCalSet⟩).ident.serial tCalSet = true := by
  have z : ∀ b n, within16 b (leAt tCalSet (64 + n) 2) = true := by
    intro b n; rw [tCal_zero _ _ (by omega)]; simp [within16]
  have h : (tCalSet.drop 0x10).take 16 = List.replicate 16 0 := by
    unfold tCalSet
    rw [List.drop_append, List.take_append_of_le_length (by rw [List.length_drop, tCal_head])]
    decide
  unfold calOk
  rw [tCal_length, tCal_small 0 4 (by decide), tCal_small 4 2 (by decide), tCal_small 6 2 (by decide), tCal_small 8 4 (by decide),
    tCal_small 0x0C 4 (by decide), h, tCal_drop _ (by decide), tCal_digest]
  have a : (List.range 72).all (fun i => within16 1024 (leAt tCalSet (0x1BC0 + 2 * i) 2)) = true := by
    rw [List.all_eq_true]; intro i _
    have := z 1024 (0x1BC0 - 64 + 2 * i)
    rwa [show 64 + (0x1BC0 - 64 + 2 * i) = 0x1BC0 + 2 * i by omega] at this
  have b : (List.range 32).all (fun i => within16 300 (leAt tCalSet (0x1C50 + 2 * i) 2)) = true := by
    rw [List.all_eq_true]; intro i _
    have := z 300 (0x1C50 - 64 + 2 * i)
    rwa [show 64 + (0x1C50 - 64 + 2 * i) = 0x1C50 + 2 * i by omega] at this
  have c : ∀ n, (List.replicate n (0 : Byte)).all (fun b => decide (b = 0)) = true := by
    intro n; rw [List.all_eq_true]; intro x hx; simpa using (List.mem_replicate.mp hx).2
  rw [a, b, c]
  simp only [decide_true, Bool.and_true]
  decide
theorem tCal_waits : Waits 0x31 ⟨.admin 0 1, tCalWords, tHostOf 0 tCalSet⟩ (tWait tCalOn ⟨.admin 0 1, tCalWords, tHostOf 0 tCalSet⟩)
    (newCmd tCalOn ⟨.admin 0 1, tCalWords, tHostOf 0 tCalSet⟩) := by
  refine ⟨rfl, by decide, ?_, rfl, rfl, by decide, ?_⟩
  · unfold pendingCmd; simp [tWait, newCmd, tCalOn, tSluice]
  · intro d h _; simpa [tWait, tCalOn, tSluice] using h
theorem tCal_bytes : hpaBytes (dispatchCmd (newCmd tCalOn ⟨.admin 0 1, tCalWords, tHostOf 0 tCalSet⟩).serial
    (tWait tCalOn ⟨.admin 0 1, tCalWords, tHostOf 0 tCalSet⟩)) (newCmd tCalOn ⟨.admin 0 1, tCalWords, tHostOf 0 tCalSet⟩) = some tCalSet := by
  have h := tHost_bytes tCalSet 0
  rw [tCal_length] at h
  exact h
theorem tCal_bad (x l : List Byte) (h : l.length ≠ 8192) : calOk x l = false := by
  unfold calOk
  rw [decide_eq_false fun g => h g.1]
  simp only [Bool.false_and]
def tCopyGo : List Word := tItem 0x40 5 [0, 0, 0, 0x100000, 0, 64] 1
def tPushGo : List Word := tItem 0x40 5 [0x40000000, 0, 0, 0, 0, 64] 1
def tSlots : State := { tMapped with copy := { slots := [(slotKey 1 0, { serial := 9, length := 8 })] } }
/-- An ABORT waits beside the copy of CID 9. -/
def tAborting : State := { tCopy with q := { tCopy.q with cmds := [tCopyCmd, newCmd tCopy ⟨.admin 0 1, tItem 0x43 5 [0x30000] 1, []⟩], next := 3 } }
/-- TABLE_DEFINE of table 0: FP32, width 4, stride 16 bytes, one row at DVA 0. -/
def tDefine : List Word := tItem 0x50 5 [0, 0x00800004] 1
def tTable : Table := { width := 4, stride := 2 }
def tTabled : State := { tMapped with polders := [(0, { tPolder with hbm := 1 })], tbl := { tables := [(0, tTable)] } }
def tOpenVersion : Version := { number := 2, delta := true, overlayCap := 1, merged := false }
def tOpened : State := { tTabled with tbl := { tables := [(0, { tTable with fmt := 1, width := 4, stride := 1, opened := some tOpenVersion })] } }
def tTableWrite : List Word := tItem 0x51 5 [0, 0, 0, 64, 0, 1] 1
def tPromoted : Promoted := { polder := 0 }
def tWindowWords : List Word := tItem 0x4D 5 [0, 0xE0000007, 0, 0, 1] 1
def tWindowed : State := { tLive with tier := { windows := [(0, { hid := 7 })] } }
def tTrimWords : List Word := tItem 0x4F 5 [0, 0, 0, 1] 1
def tFlashMapped : State := { tFlashOn with
  polders := [(0, { tFlashPolder with flashRange := ⟨2 ^ 45, 2 ^ 30, 2 ^ 30⟩ })]
  segs := [(0, { tSeg with tpaBase := 2 ^ 24 })] }
/-- A command of a lookup that waits with version 1 of its table pinned. -/
def tPinnedCmd (s : State) (ws : List Word) : Cmd := { newCmd s ⟨.data 0 1 3, ws, []⟩ with pinned := some 1 }
def tPinned (s : State) (ws : List Word) : State := { s with q := { s.q with cmds := [tPinnedCmd s ws], next := s.q.next + 1 } }
/-- LOOKUP_POOLED of one bag (b = 1) or GATHER_ROWS (b = 0) of one index at DVA 0, offsets at 64, output at 256. -/
def tLookWords (b : Nat) : List Word := tItem (0x81 - b) 5 [0, b, 1, 0, 0, 64 * b, 0, 0, 0, 0, 0, 256, 0, 0, 0, 2] 2
def tLook : State := { tTabled with mem := { bytes := [(68, 1)] } }
def tSeqWords : List Word := tItem 0x84 5 [0, 0xFFFF0001, 1, 128, 0, 0, 0, 256, 0, 0, 0, 2] 2
def tSeqMem : State := { tTabled with mem := { bytes := [(136, 1), (144, 1)] } }
def tAttnWords : List Word := tItem 0x86 5 [0x100, 1, 0, 4096, 0, 0, 0, 0, 0, 256, 0, 512] 2
def tAttnMem : State := { tMapped with mem := { bytes := [(0, 64), (8, 1)] } }
theorem tGet {α : Type} {o : Option α} {x : α} (h : o.isSome = true) (e : x = o.get h) : o = some x := by
  rw [e, Option.some_get]
def tSearchReady : State := { tSearch with polders := [(0, { tPolder with hbm := 1, modes := 0x01040000 })], q := tLive.q, srch := {} }
def tSearchWait : State := tWait tSearchReady ⟨.data 0 1 3, tSearchWords, []⟩
def tSearchStarted : Cmd := started tSearchWait (newCmd tSearchReady ⟨.data 0 1 3, tSearchWords, []⟩)
def tSearchRead : SearchRead × Run := (searchReady 0x88 tSearchStarted (dispatchCmd 1 tSearchWait)).get (by decide)
def tSearchChans : List Nat := engineChannels (allUnits (dispatchCmd 1 tSearchWait) 0 tSearchRead.1.ctx)
def tSearchPool : State := (takePool tSearchStarted (searchPool tSearchRead.1.ctx.req) (dispatchCmd 1 tSearchWait)).get (by decide)
def tSearchFound : Cmd := ((queueScans 1 tSearchChans tSearchPool).q.cmds.find? fun d => decide (d.serial = 1)).get (by decide)
def tSearchAgain : SearchRead × Run := (searchReady 0x88 { tSearchFound with host := [], phase := 1 } (queueScans 1 tSearchChans tSearchPool)).get (by decide)
def tCompatWords : List Word := tItem 0x89 9 [0x80000000, 0, 0, 0, 0, 0, 0, 128, 0, 256, 0, 0, 0, 512, 0] 4
def tCompatReady : State := { tSearchReady with
  polders := [(0, { tPolder with hbm := 1, modes := 0x01080000 })], mem := { bytes := [(0, 1), (2, 2), (130, 0x80), (131, 0x3F)] } }
def tCompatWait : State := tWait tCompatReady ⟨.data 0 1 3, tCompatWords, []⟩
def tCompatStarted : Cmd := started tCompatWait (newCmd tCompatReady ⟨.data 0 1 3, tCompatWords, []⟩)
def tCompatRead : SearchRead × Run := (searchReady 0x89 tCompatStarted (dispatchCmd 1 tCompatWait)).get (by decide)
def tCompatChans : List Nat := engineChannels (allUnits (dispatchCmd 1 tCompatWait) 0 tCompatRead.1.ctx)
def tCompatPool : State := (takePool tCompatStarted (searchPool tCompatRead.1.ctx.req) (dispatchCmd 1 tCompatWait)).get (by decide)
def tCompatFound : Cmd := ((queueScans 1 tCompatChans tCompatPool).q.cmds.find? fun d => decide (d.serial = 1)).get (by decide)
def tCompatAgain : SearchRead × Run := (searchReady 0x89 { tCompatFound with host := [], phase := 1 } (queueScans 1 tCompatChans tCompatPool)).get (by decide)
/-- REDUCE of two members: group 7, sum of one FP32 element to member 0. -/
def tReduceWords (rank : Nat) : List Word := tItem 0xC0 5 [0x01000000 + rank * 65536, 7, 0x10000, 0, 0, 0, 0, 1] 2
def tPooled : State := { tMapped with polders := [(0, { tPolder with hbm := 1 })] }
def tFirst : Group := { opcode := 0xC0, params := collParams (tReduceWords 0), count := 2, members := [{ rank := 0, serial := 9 }] }
def tGrouped : State := { tPooled with copy := { groups := [(7, tFirst)] } }
/-- A kernel image of 512 bytes from DVA 0: RESOURCES at 256 (one core, 64 KiB of local store), one phase of one item at 320, no
code; words 8 to 15 are its SHA3-256. -/
def tKernelBytes : Tab Byte :=
  [(0, 77), (1, 73), (2, 89), (3, 66), (6, 1), (7, 1), (13, 2), (16, 3), (32, 204), (33, 132), (34, 15), (35, 187), (36, 186), (37, 150), (38, 104), (39, 255), (40, 94), (41, 15),
    (42, 73), (43, 104), (44, 48), (45, 237), (46, 147), (47, 11), (48, 7), (49, 92), (50, 198), (51, 105), (52, 74), (53, 29), (54, 245), (55, 203), (56, 250), (57, 22), (58, 128), (59, 219),
    (60, 59), (61, 59), (62, 37), (63, 156), (131, 1), (132, 192), (133, 1), (163, 3), (165, 1), (168, 64), (195, 5), (196, 64), (197, 1), (200, 8), (258, 1), (259, 1), (266, 1), (324, 1)]
def tKernelWords : List Word := tItem 0xA0 5 [1] 2
def tKernelMem : State := { tMapped with mem := { bytes := tKernelBytes } }
def tKernelWait : State := tWait tKernelMem ⟨.data 0 1 3, tKernelWords, []⟩
def tKernelStarted : Cmd := started tKernelWait (newCmd tKernelMem ⟨.data 0 1 3, tKernelWords, []⟩)
def tKernelTest (x : Launch × Run) : Bool :=
  decide (x.1.image.coresMin = 1 ∧ x.1.image.coresMax = 1 ∧ x.1.image.code = 0 ∧ x.1.image.localBytes = 65536)
theorem tKernel_test : (launchReady true tKernelStarted (dispatchCmd 1 tKernelWait)).any tKernelTest = true := by decide +kernel
theorem tAny_some {α : Type} {p : α → Bool} {o : Option α} (h : o.any p = true) : o.isSome = true := by cases o <;> simp_all
theorem tAny_get {α : Type} {p : α → Bool} {o : Option α} (h : o.any p = true) : p (o.get (tAny_some h)) = true := by
  cases o with
  | none => cases h
  | some x => exact h
def tKernel : Launch × Run := (launchReady true tKernelStarted (dispatchCmd 1 tKernelWait)).get (tAny_some tKernel_test)
theorem tKernel_ready : launchReady true tKernelStarted (dispatchCmd 1 tKernelWait) = some (tKernel.1, tKernel.2) := by
  unfold tKernel; rw [Prod.mk.eta, Option.some_get]
theorem tKernel_ok : tKernelTest tKernel = true := by unfold tKernel; exact tAny_get tKernel_test
theorem tKernel_fields : tKernel.1.image.coresMin = 1 ∧ tKernel.1.image.coresMax = 1 ∧ tKernel.1.image.code = 0 ∧ tKernel.1.image.localBytes = 65536 :=
  of_decide_eq_true (by have h := tKernel_ok; unfold tKernelTest at h; exact h)
theorem tKernel_cores : 1 = min (if field tKernelWords 3 7 0 = 0 then tKernel.1.image.coresMax else field tKernelWords 3 7 0) (usableCores tKernelWait 0).length := by
  rw [if_neg (by decide)]; decide
theorem tKernel_min : tKernel.1.image.coresMin ≤ 1 := by rw [tKernel_fields.1]
theorem tKernel_local : tKernel.1.image.code + field tKernelWords 8 15 0 ≤ tKernel.1.image.localBytes := by
  rw [tKernel_fields.2.2.1, tKernel_fields.2.2.2]; decide
/-- A crown image of 512 bytes from DVA 0: RESOURCES at 192 (one core, stack and work area of 4 KiB), no code. -/
def tCrownBytes : Tab Byte :=
  [(0, 77), (1, 73), (2, 89), (3, 66), (6, 1), (7, 2), (13, 2), (16, 2), (32, 155), (33, 135), (34, 128), (35, 87), (36, 54), (37, 1), (38, 209), (39, 176), (40, 39), (41, 86), (42, 1),
    (43, 58), (44, 148), (45, 167), (46, 214), (47, 3), (48, 147), (49, 41), (50, 231), (51, 130), (52, 188), (53, 222), (54, 26), (55, 128), (56, 146), (57, 112), (58, 198), (59, 164),
    (60, 250), (61, 198), (62, 164), (63, 214), (131, 3), (132, 192), (136, 64), (163, 6), (164, 192), (165, 1), (194, 1), (195, 1), (209, 16), (213, 16)]
/-- CROWN_RUN of that image with its work area at 65,536, exit core 0. -/
def tCrownWords : List Word := tItem 0xA8 5 ([0] ++ List.replicate 12 0 ++ [65536, 0, 1]) 2
def tCrownMem : State := { tMapped with mem := { bytes := tCrownBytes } }
def tCrownWait : State := tWait tCrownMem ⟨.data 0 1 3, tCrownWords, []⟩
def tCrownStarted : Cmd := started tCrownWait (newCmd tCrownMem ⟨.data 0 1 3, tCrownWords, []⟩)
def tCrownRead (x : Launch × Run) : Run := checkWhole 65536 x.1.image.work .read 0x2 (fun _ => false) x.2
def tCrownWrite (x : Launch × Run) : Run :=
  writeRange 65536 (cleanBytes (x.1.image.data ++ List.replicate (x.1.image.work - x.1.image.data.length - 1 * x.1.image.stack) 0))
    (checkWhole 65536 x.1.image.work .write 0x3 (fun _ => false) (tCrownRead x))
def tCrownTest (x : Launch × Run) : Bool :=
  decide (x.1.image.coresMin = 1 ∧ x.1.image.coresMax = 1 ∧ x.1.image.data.length + 1 * x.1.image.stack ≤ x.1.image.work
    ∧ (tCrownRead x).stopped = false ∧ ((tCrownWrite x).stopped || runBlocked (tCrownWrite x)) = false)
theorem tCrown_test : (launchReady false tCrownStarted (dispatchCmd 1 tCrownWait)).any tCrownTest = true := by decide +kernel
def tCrown : Launch × Run := (launchReady false tCrownStarted (dispatchCmd 1 tCrownWait)).get (tAny_some tCrown_test)
theorem tCrown_ready : launchReady false tCrownStarted (dispatchCmd 1 tCrownWait) = some (tCrown.1, tCrown.2) := by
  unfold tCrown; rw [Prod.mk.eta, Option.some_get]
theorem tCrown_ok : tCrownTest tCrown = true := by unfold tCrown; exact tAny_get tCrown_test
theorem tCrown_fields : tCrown.1.image.coresMin = 1 ∧ tCrown.1.image.coresMax = 1 ∧ tCrown.1.image.data.length + 1 * tCrown.1.image.stack ≤ tCrown.1.image.work
    ∧ (tCrownRead tCrown).stopped = false ∧ ((tCrownWrite tCrown).stopped || runBlocked (tCrownWrite tCrown)) = false :=
  of_decide_eq_true (by have h := tCrown_ok; unfold tCrownTest at h; exact h)
theorem tCrown_cores : 1 = min (if field tCrownWords 3 7 0 = 0 then tCrown.1.image.coresMax else field tCrownWords 3 7 0) (usableCrown tCrownWait 0).length := by
  rw [if_pos (by decide), tCrown_fields.2.1]; decide
theorem tCrown_room : tCrown.1.image.coresMin ≤ 1 ∧ field tCrownWords 19 15 0 < 1 ∧ tCrown.1.image.data.length + 1 * tCrown.1.image.stack ≤ tCrown.1.image.work :=
  ⟨by rw [tCrown_fields.1], by decide, tCrown_fields.2.2.1⟩
def tNonced : State := { tLive with dbg := { nonce := some (7, 0) } }
def tSafe : State := { tLive with dbg := { lock := .tenantSafe } }
def tOpen : State := { tLive with dbg := { lock := .open_ } }
def tPokeWords : List Word := tItem 0xF5 5 [0, 0, 0, 4] 1
def tPokeHost : List HostByte := [⟨7, 0, 1, false⟩, ⟨7, 1, 2, false⟩, ⟨7, 2, 3, false⟩, ⟨7, 3, 4, false⟩]
def tHaltBase : State := { tSafe with q := { tSafe.q with cmds := [tCopyCmd], next := 2 } }
def tHaltWait : State := { tSafe with q := { tSafe.q with
  cmds := [tCopyCmd, newCmd tHaltBase ⟨.admin 0 1, tItem 0xF6 5 [3] 1, []⟩], next := 3 } }
def tFatal : State := { tLive with polders := [(0, { tPolder with fatal := true })] }

/-! ### Witnesses -/

/-- A state and operands that meet the hypotheses of `StepRunsFront`, clause 1 (`front`). -/
theorem test_StepRunsFront_front : ∃ (c : Instr) (rest : List Instr) (s : State),
    (s.pending = c :: rest) :=
  ⟨.jtagTapReset, [], { State.reset with pending := [.jtagTapReset] }, by decide⟩

/-- A state and operands that meet the hypotheses of `IdleStep`, clause 1 (`idle`). -/
theorem test_IdleStep_idle : ∃ (s : State),
    (s.pending = []) :=
  ⟨State.reset, by decide⟩

/-- A state and operands that meet the hypotheses of `StepKeepsInv`, clause 1 (`step`). -/
theorem test_StepKeepsInv_step : ∃ (s t : State),
    (Inv s) ∧ (step s = .next t) :=
  ⟨State.reset, _, by refine ⟨rfl, ?_⟩; unfold clusterFollows; dsimp only; decide, rfl⟩

/-- A state and operands that meet the hypotheses of `SettlingFrame`, clause 1 (`frame`). -/
theorem test_SettlingFrame_frame : ∃ (s : State),
    (quiet s = true) :=
  ⟨State.reset, by decide⟩

/-- A state and operands that meet the hypotheses of `MemoryCanonical`, clause 1 (`setByte`). -/
theorem test_MemoryCanonical_setByte : ∃ (cell : Nat) (b : Byte) (s : State),
    (Memory.wf s.mem = true) :=
  ⟨0, 0, State.reset, by decide⟩

/-- A state and operands that meet the hypotheses of `MemoryCanonical`, clause 2 (`writeLine`). -/
theorem test_MemoryCanonical_writeLine : ∃ (line : Nat) (bytes : List (Nat × Byte)) (poison : Bool) (s : State),
    (Memory.wf s.mem = true) :=
  ⟨0, [], false, State.reset, by decide⟩

/-- A state and operands that meet the hypotheses of `MemoryCanonical`, clause 3 (`ranges`). -/
theorem test_MemoryCanonical_ranges : ∃ (a len : Nat) (l : List Nat) (s : State),
    (Memory.wf s.mem = true) :=
  ⟨0, 0, [], State.reset, by decide⟩

/-- A state and operands that meet the hypotheses of `MemoryCanonical`, clause 4 (`resets`). -/
theorem test_MemoryCanonical_resets : ∃ (w : FlashWrite) (s : State),
    (Memory.wf s.mem = true) :=
  ⟨{ id := 0, tpa := 0 }, State.reset, by decide⟩

/-- A state and operands that meet the hypotheses of `MemoryReadsBack`, clause 1 (`others`). -/
theorem test_MemoryReadsBack_others : ∃ (line a : Nat) (bytes : List (Nat × Byte)) (poison : Bool) (s : State),
    (∀ e ∈ bytes, a ≠ cellOf s (line * 64) / 64 * 64 + e.1) :=
  ⟨0, 100, [(3, 5)], false, State.reset, by decide⟩

/-- A state and operands that meet the hypotheses of `MemoryReadsBack`, clause 2 (`written`). -/
theorem test_MemoryReadsBack_written : ∃ (line o : Nat) (b : Byte) (bytes : List (Nat × Byte)) (poison : Bool) (s : State),
    (lineDead s (line * 64) = false) ∧ ((bytes.map (·.1)).Nodup) ∧ ((o, b) ∈ bytes) :=
  ⟨0, 3, 5, [(3, 5), (4, 6)], false, State.reset, by decide⟩

/-- A state and operands that meet the hypotheses of `MemoryReadsBack`, clause 3 (`dead`). -/
theorem test_MemoryReadsBack_dead : ∃ (line : Nat) (bytes : List (Nat × Byte)) (poison : Bool) (s : State),
    (lineDead s (line * 64) = true) :=
  ⟨0, [], false, tFatal, by decide⟩

/-- A state and operands that meet the hypotheses of `PlacesDiffer`, clause 1 (`interleave`). -/
theorem test_PlacesDiffer_interleave : ∃ (block c x y : Nat),
    (0 < block) ∧ (0 < c) ∧ (interleave block c x = interleave block c y) :=
  ⟨4096, 10, 5, 5, by decide⟩

/-- A state and operands that meet the hypotheses of `PlacesDiffer`, clause 2 (`parity`). -/
theorem test_PlacesDiffer_parity : ∃ (a x y : Nat),
    (9 ≤ a) ∧ (parityPlace a x = parityPlace a y) :=
  ⟨9, 5, 5, by decide⟩

/-- A state and operands that meet the hypotheses of `PlacesDiffer`, clause 3 (`members`). -/
theorem test_PlacesDiffer_members : ∃ (a stripe i j : Nat),
    (9 ≤ a) ∧ (i < 9 ∧ j < 9 ∧ i ≠ j) :=
  ⟨9, 0, 0, 8, by decide⟩

/-- A state and operands that meet the hypotheses of `OrderFreeSum`, clause 1 (`up`). -/
theorem test_OrderFreeSum_up : ∃ (w e : Int) (neg : Bool) (m : Nat),
    (w ≤ e) :=
  ⟨0, 1, false, 3, by decide⟩

/-- A state and operands that meet the hypotheses of `OrderFreeSum`, clause 2 (`down`). -/
theorem test_OrderFreeSum_down : ∃ (w e : Int) (neg : Bool) (m u : Nat),
    (e < w) ∧ (u = (ofaUnits w (.fin neg m e)).natAbs) :=
  ⟨-4, -5, true, 13, 6, by decide, by decide⟩

/-- A state and operands that meet the hypotheses of `OrderFreeSum`, clause 3 (`order`). -/
theorem test_OrderFreeSum_order : ∃ (w : Int) (l l' : List Val),
    (l.Perm l') :=
  ⟨0, [.fin false 1 0, .fin true 2 0], [.fin true 2 0, .fin false 1 0], List.Perm.swap _ _ _⟩

/-- A state and operands that meet the hypotheses of `OrderFreeSum`, clause 6 (`same`). -/
theorem test_OrderFreeSum_same : ∃ (w : Int) (l l' : List Val),
    (l.Perm l') :=
  ⟨0, [.fin false 1 0, .fin true 2 0], [.fin true 2 0, .fin false 1 0], List.Perm.swap _ _ _⟩

/-- A state and operands that meet the hypotheses of `StatusRank`, clause 1 (`ranked`). -/
theorem test_StatusRank_ranked : ∃ (l : List Status),
    (∀ st ∈ l, statusSole st = false) :=
  ⟨[.late, .mapFault], by decide⟩

/-- A state and operands that meet the hypotheses of `StatusRank`, clause 2 (`sole`). -/
theorem test_StatusRank_sole : ∃ (l : List Status) (st : Status),
    (l.find? statusSole = some st) :=
  ⟨[.late, .fenced, .aborted], .fenced, by decide⟩

/-- A state and operands that meet the hypotheses of `DispatchOrder`, clause 1 (`first`). -/
theorem test_DispatchOrder_first : ∃ (s : State) (c : Cmd),
    (nextDispatch s = some c) :=
  ⟨tWaitIdentify, tCmdIdentify, by decide⟩

/-- A state and operands that meet the hypotheses of `DispatchOrder`, clause 2 (`none`). -/
theorem test_DispatchOrder_none : ∃ (s : State) (d : Cmd),
    (nextDispatch s = none) ∧ (d ∈ s.q.cmds) :=
  ⟨tCopy, tCopyCmd, by decide⟩

/-- A state and operands that meet the hypotheses of `BatchAnswers`, clause 1 (`sum`). -/
theorem test_BatchAnswers_sum : ∃ (b : FetchBatch) (s : State),
    (b.forming ≠ []) :=
  ⟨tBatch, State.reset, by decide⟩

/-- A state and operands that meet the hypotheses of `BatchAnswers`, clause 2 (`member`). -/
theorem test_BatchAnswers_member : ∃ (bytes line old : Nat) (tag : Bool) (bef rest : List (Asker × Nat)) (asker : Asker) (addend : Nat) (s : State),
    (old < 2 ^ (8 * bytes)) :=
  ⟨8, 0, 5, false, [(.device, 3)], [], .device, 4, State.reset, by decide⟩

/-- A state and operands that meet the hypotheses of `BatchAnswers`, clause 3 (`poison`). -/
theorem test_BatchAnswers_poison : ∃ (bytes line old : Nat) (tag : Bool) (bef rest : List (Asker × Nat)) (asker : Asker) (addend : Nat) (s : State),
    (bef ≠ []) :=
  ⟨8, 0, 5, false, [(.device, 3)], [], .device, 4, State.reset, by decide⟩

/-- A state and operands that meet the hypotheses of `RecorderStores`, clause 1 (`frozen`). -/
theorem test_RecorderStores_frozen : ∃ (persist : Bool) (e : Record) (s : State),
    (s.recorder.frozen = true) :=
  ⟨true, [], { State.reset with recorder := { frozen := true } }, by decide⟩

/-- A state and operands that meet the hypotheses of `RecorderStores`, clause 2 (`stored`). -/
theorem test_RecorderStores_stored : ∃ (persist : Bool) (e : Record) (s : State),
    (s.recorder.frozen = false) ∧ (s.recorder.entries.length < 65536) :=
  ⟨true, [], State.reset, by decide⟩

/-- A state and operands that meet the hypotheses of `RecorderStores`, clause 3 (`full`). -/
theorem test_RecorderStores_full : ∃ (persist : Bool) (e : Record) (s : State),
    (s.recorder.frozen = false) ∧ (65536 ≤ s.recorder.entries.length) :=
  ⟨true, [], { State.reset with recorder := { entries := List.replicate 65536 [] } }, rfl, by show 65536 ≤ (List.replicate 65536 ([] : Record)).length; rw [List.length_replicate]⟩

/-- A state and operands that meet the hypotheses of `CompletionWords`, clause 1 (`words`). -/
theorem test_CompletionWords_words : ∃ (src : Src) (op cid : Nat) (r : Result) (w : List Word),
    (r.value < 2 ^ 64 ∧ r.faultDva < 2 ^ 52 ∧ cid < 2 ^ 16 ∧ op < 2 ^ 8) ∧ (w = entryWords src op cid r) :=
  ⟨.data 0 1 3, 0x40, 9, { value := 5 }, _, by decide, rfl⟩

/-- A state and operands that meet the hypotheses of `QueueDoorbells`, clause 1 (`sqTail`). -/
theorem test_QueueDoorbells_sqTail : ∃ (port : Fin 17) (ld : Fin 16) (qp : BitVec 8) (tail : BitVec 16) (s : State) (sl : Sluice) (r : Machine.Ring),
    (findSluice s (sluiceIx port ld) = some sl) ∧ (tabFind sl.qps qp.toNat = some r) ∧ (s.q.intakeHeld = false) ∧ (tail.toNat < 2 ^ r.sqLog2) :=
  ⟨0, 1, 3, 5, tSluice, tSl, tRing, by decide⟩

/-- A state and operands that meet the hypotheses of `QueueDoorbells`, clause 2 (`sqTailBad`). -/
theorem test_QueueDoorbells_sqTailBad : ∃ (port : Fin 17) (ld : Fin 16) (qp : BitVec 8) (tail : BitVec 16) (s : State) (sl : Sluice) (r : Machine.Ring),
    (findSluice s (sluiceIx port ld) = some sl) ∧ (tabFind sl.qps qp.toNat = some r) ∧ (s.q.intakeHeld = false) ∧ (2 ^ r.sqLog2 ≤ tail.toNat) :=
  ⟨0, 1, 3, 16, tSluice, tSl, tRing, by decide⟩

/-- A state and operands that meet the hypotheses of `QueueDoorbells`, clause 3 (`sqTailHeld`). -/
theorem test_QueueDoorbells_sqTailHeld : ∃ (port : Fin 17) (ld : Fin 16) (qp : BitVec 8) (tail : BitVec 16) (s : State),
    ((findSluice s (sluiceIx port ld)).isSome = true) ∧ (s.q.intakeHeld = true) :=
  ⟨0, 1, 3, 16, { tSluice with q := { tSluice.q with intakeHeld := true } }, by decide⟩

/-- A state and operands that meet the hypotheses of `QueueDoorbells`, clause 4 (`asqTail`). -/
theorem test_QueueDoorbells_asqTail : ∃ (port : Fin 17) (ld : Fin 16) (tail : BitVec 16) (s : State) (sl : Sluice),
    (findSluice s (sluiceIx port ld) = some sl) ∧ (s.q.intakeHeld = false) ∧ (tail.toNat < 2 ^ sl.admin.sqLog2) :=
  ⟨0, 1, 15, tSluice, tSl, by decide⟩

/-- A state and operands that meet the hypotheses of `QueueDoorbells`, clause 5 (`cqHead`). -/
theorem test_QueueDoorbells_cqHead : ∃ (port : Fin 17) (ld : Fin 16) (qp : BitVec 8) (head : BitVec 16) (s : State) (sl : Sluice) (r : Machine.Ring),
    (findSluice s (sluiceIx port ld) = some sl) ∧ (tabFind sl.qps qp.toNat = some r) ∧ (s.q.intakeHeld = false) ∧ (head.toNat < 2 ^ r.cqLog2) ∧ (r.held = []) :=
  ⟨0, 1, 3, 5, tSluice, tSl, tRing, by decide⟩

/-- A state and operands that meet the hypotheses of `QueueDoorbells`, clause 6 (`cqHeadHeld`). -/
theorem test_QueueDoorbells_cqHeadHeld : ∃ (port : Fin 17) (ld : Fin 16) (qp : BitVec 8) (head : BitVec 16) (s : State) (sl : Sluice) (r : Machine.Ring) (words : List Word) (noirq : Bool),
    (findSluice s (sluiceIx port ld) = some sl) ∧ (tabFind sl.qps qp.toNat = some r) ∧ (s.q.intakeHeld = false) ∧ (head.toNat < 2 ^ r.cqLog2) ∧ (r.held = [(words, noirq)]) ∧ (r.cqDev = false) ∧ (r.irqEn = false) ∧ ((r.cqTail + 1) % 2 ^ r.cqLog2 ≠ head.toNat) ∧ ((r.cqTail + 1) % 2 ^ r.cqLog2 ≠ 0) ∧ (sluiceLinkUp s (sluiceIx port ld) = true) :=
  ⟨0, 1, 3, 9, tHeldUp, tSlHeld, tRingHeld, [0, 0, 0, 0, 0, 0, 0, 0], false, by decide⟩

/-- A state and operands that meet the hypotheses of `QueueDoorbells`, clause 7 (`acqHead`). -/
theorem test_QueueDoorbells_acqHead : ∃ (port : Fin 17) (ld : Fin 16) (head : BitVec 16) (s : State) (sl : Sluice),
    (findSluice s (sluiceIx port ld) = some sl) ∧ (s.q.intakeHeld = false) ∧ (head.toNat < 2 ^ sl.admin.cqLog2) ∧ (sl.admin.held = []) ∧ (sl.events = []) ∧ (sl.eventsLost = 0) :=
  ⟨0, 1, 15, tSluice, tSl, by decide⟩

/-- A state and operands that meet the hypotheses of `QueueIntake`, clause 1 (`entryFetch`). -/
theorem test_QueueIntake_entryFetch : ∃ (port : Fin 17) (ld : Fin 16) (qp : BitVec 8) (words : List Word) (host : List HostByte) (s : State) (sl : Sluice) (r : Machine.Ring),
    (findSluice s (sluiceIx port ld) = some sl) ∧ (sl.state ≠ .unmatched) ∧ (tabFind sl.qps qp.toNat = some r) ∧ (s.q.intakeHeld = false) ∧ (intakePaused s (sluiceIx port ld) = false) ∧ (r.position ∉ r.orphans) ∧ (hdrMark words = 0x5A) ∧ (words.length = 16 * hdrEntries words) ∧ (hdrEntries words ≤ sqAvail r) :=
  ⟨0, 1, 3, tIdentify, [], tOne, tSlOne, tRingOne, by decide⟩

/-- A state and operands that meet the hypotheses of `QueueIntake`, clause 2 (`entryFetchOrphan`). -/
theorem test_QueueIntake_entryFetchOrphan : ∃ (port : Fin 17) (ld : Fin 16) (qp : BitVec 8) (words : List Word) (s : State) (sl : Sluice) (r : Machine.Ring),
    (findSluice s (sluiceIx port ld) = some sl) ∧ (sl.state ≠ .unmatched) ∧ (tabFind sl.qps qp.toNat = some r) ∧ (s.q.intakeHeld = false) ∧ (intakePaused s (sluiceIx port ld) = false) ∧ (r.orphans = []) ∧ (hdrMark words ≠ 0x5A) ∧ (words.length = 16) ∧ (sqAvail r ≠ 0) :=
  ⟨0, 1, 3, List.replicate 16 0, tOne, tSlOne, tRingOne, by decide⟩

/-- A state and operands that meet the hypotheses of `QueueIntake`, clause 3 (`accepts`). -/
theorem test_QueueIntake_accepts : ∃ (port : Fin 17) (ld : Fin 16) (qp : BitVec 8) (words : List Word) (host : List HostByte) (s : State),
    (intake s (.data port ld qp) words = .accept) ∧ (hdrRid words = false) ∧ (hdrOpcode words ∉ [0x80, 0x81, 0x84]) ∧ (∀ c ∈ s.q.cmds, c.serial < s.q.next) :=
  ⟨0, 1, 3, tFence, [], tLive, by decide⟩

/-- A state and operands that meet the hypotheses of `QueueIntake`, clause 4 (`partialItemExpiry`). -/
theorem test_QueueIntake_partialItemExpiry : ∃ (port : Fin 17) (ld : Fin 16) (qp : BitVec 8) (s : State) (sl : Sluice) (r : Machine.Ring) (p : Nat),
    (findSluice s (sluiceIx port ld) = some sl) ∧ (tabFind sl.qps qp.toNat = some r) ∧ (s.q.intakeHeld = false) ∧ (r.partialAt = some p) :=
  ⟨0, 1, 3, tPart, tSlPart, tRingPart, 0, by decide⟩

/-- A state and operands that meet the hypotheses of `QueueIntake`, clause 5 (`commandDispatch`). -/
theorem test_QueueIntake_commandDispatch : ∃ (s : State) (c : Cmd),
    (nextDispatch s = some c) ∧ (s.q.cmds.find? (fun d => decide (d.serial = c.serial)) = some c) :=
  ⟨tWaitIdentify, tCmdIdentify, by decide⟩

/-- A state and operands that meet the hypotheses of `QueueIntake`, clause 6 (`workPoolSpaceFree`). -/
theorem test_QueueIntake_workPoolSpaceFree : ∃ (polder : BitVec 6) (s : State) (c : Cmd) (rest : List Nat),
    (s.res.poolWaiters = c.serial :: rest) ∧ (c.serial ∉ rest) ∧ (s.q.cmds.find? (fun d => decide (d.serial = c.serial)) = some c) ∧ (c.polder = polder.toNat) ∧ (s.q.cmds.find? (fun d => decide (d.serial = c.serial ∧ d.polder = polder.toNat)) = some c) ∧ (dispatchable { s with res := { s.res with poolWaiters := rest } } c = true) ∧ ((runOpcode (started s c) (dispatchCmd c.serial { s with res := { s.res with poolWaiters := rest } })).res.poolWaiters.contains c.serial = false) :=
  ⟨0, tPoolWait, tCmdPool, [], by decide⟩

/-- A state and operands that meet the hypotheses of `QueueInterrupts`, clause 1 (`adminEnable`). -/
theorem test_QueueInterrupts_adminEnable : ∃ (port : Fin 17) (ld : Fin 16) (s : State) (sl : Sluice),
    (findSluice s (sluiceIx port ld) = some sl) ∧ (sl.adminEnable = false) ∧ (sl.admin.held = []) ∧ (sl.events = []) ∧ (sl.eventsLost = 0) :=
  ⟨0, 1, tAdminOff, tSlOff, by decide⟩

/-- A state and operands that meet the hypotheses of `QueueInterrupts`, clause 2 (`adminDisable`). -/
theorem test_QueueInterrupts_adminDisable : ∃ (port : Fin 17) (ld : Fin 16) (s : State) (sl : Sluice),
    (findSluice s (sluiceIx port ld) = some sl) ∧ (sl.adminEnable = true) :=
  ⟨0, 1, tSluice, tSl, by decide⟩

/-- A state and operands that meet the hypotheses of `QueueInterrupts`, clause 3 (`cqCoalesceTimeout`). -/
theorem test_QueueInterrupts_cqCoalesceTimeout : ∃ (port : Fin 17) (ld : Fin 16) (qp : BitVec 8) (s : State) (sl : Sluice) (r : Machine.Ring),
    (findSluice s (sluiceIx port ld) = some sl) ∧ (tabFind sl.qps qp.toNat = some r) ∧ (r.irqEn = true) ∧ (r.aggTime ≠ 0) ∧ (r.uncovered ≠ 0) ∧ (r.vector ∈ sl.unmasked) :=
  ⟨0, 1, 3, tIrq, tSlIrq, tRingIrq, by decide⟩

/-- A state and operands that meet the hypotheses of `QueueInterrupts`, clause 4 (`coalesceMasked`). -/
theorem test_QueueInterrupts_coalesceMasked : ∃ (port : Fin 17) (ld : Fin 16) (qp : BitVec 8) (s : State) (sl : Sluice) (r : Machine.Ring),
    (findSluice s (sluiceIx port ld) = some sl) ∧ (tabFind sl.qps qp.toNat = some r) ∧ (r.irqEn = true) ∧ (r.aggTime ≠ 0) ∧ (r.uncovered ≠ 0) ∧ (r.vector ∉ sl.unmasked) ∧ (r.vector ∉ sl.msixPending) :=
  ⟨0, 1, 3, { tIrq with q := { tIrq.q with sluices := [(1, { tSlIrq with unmasked := [] })] } }, { tSlIrq with unmasked := [] }, tRingIrq, by decide⟩

/-- A state and operands that meet the hypotheses of `QueueInterrupts`, clause 5 (`msixUnmask`). -/
theorem test_QueueInterrupts_msixUnmask : ∃ (port : Fin 17) (ld : Fin 16) (vector : BitVec 11) (s : State) (sl : Sluice),
    (findSluice s (sluiceIx port ld) = some sl) ∧ (vector.toNat ∉ sl.unmasked) :=
  ⟨0, 1, 9, tSluice, tSl, by decide⟩

/-- A state and operands that meet the hypotheses of `CrownServices`, clause 1 (`crownSubmit`). -/
theorem test_CrownServices_crownSubmit : ∃ (run : Nat) (core : Fin 32) (words : List Word) (s : State) (r : CrownRun) (c : Cmd),
    (Serves run core.val s r c) ∧ (r.outstanding.length < 64) ∧ (s.q.intakeHeld = false) ∧ (hdrTcx words = c.tcx) :=
  ⟨1, 0, tFence, tRunState, tRun, tRunCmd, by unfold Serves; decide⟩

/-- A state and operands that meet the hypotheses of `CrownServices`, clause 2 (`crownSubmitOther`). -/
theorem test_CrownServices_crownSubmitOther : ∃ (run : Nat) (core : Fin 32) (words : List Word) (s : State) (r : CrownRun) (c : Cmd),
    (Serves run core.val s r c) ∧ (r.outstanding.length < 64) ∧ (s.q.intakeHeld = false) ∧ (hdrTcx words ≠ c.tcx) :=
  ⟨1, 0, tItem (0x41 + 2 ^ 16) 5 [] 1, tRunState, tRun, tRunCmd, by unfold Serves; decide⟩

/-- A state and operands that meet the hypotheses of `CrownServices`, clause 3 (`crownWait`). -/
theorem test_CrownServices_crownWait : ∃ (run : Nat) (core : Fin 32) (cid : BitVec 16) (s : State) (r : CrownRun) (c : Cmd) (words : List Word) (rest : List (Nat × List Word)),
    (Serves run core.val s r c) ∧ (r.done = (cid.toNat, words) :: rest) :=
  ⟨1, 0, 5, tRunDone, { tRun with done := [(5, [1])] }, tRunCmd, [1], [], by unfold Serves; decide⟩

/-- A state and operands that meet the hypotheses of `CrownServices`, clause 4 (`crownWaitBlocks`). -/
theorem test_CrownServices_crownWaitBlocks : ∃ (run : Nat) (core : Fin 32) (cid : BitVec 16) (s : State) (r : CrownRun) (c : Cmd),
    (Serves run core.val s r c) ∧ (r.done.find? (fun d => decide (d.1 = cid.toNat)) = none) ∧ ((r.outstanding.any fun o => decide (o.2 = cid.toNat)) = true) :=
  ⟨1, 0, 5, tRunOut, { tRun with outstanding := [(2, 5)] }, tRunCmd, by unfold Serves; decide⟩

/-- A state and operands that meet the hypotheses of `CrownServices`, clause 5 (`crownPoll`). -/
theorem test_CrownServices_crownPoll : ∃ (run : Nat) (core : Fin 32) (cid : BitVec 16) (s : State) (r : CrownRun) (c : Cmd) (words : List Word) (rest : List (Nat × List Word)),
    (Serves run core.val s r c) ∧ (r.done = (cid.toNat, words) :: rest) :=
  ⟨1, 0, 5, tRunDone, { tRun with done := [(5, [1])] }, tRunCmd, [1], [], by unfold Serves; decide⟩

/-- A state and operands that meet the hypotheses of `CrownServices`, clause 6 (`crownPollNot`). -/
theorem test_CrownServices_crownPollNot : ∃ (run : Nat) (core : Fin 32) (cid : BitVec 16) (s : State) (r : CrownRun) (c : Cmd),
    (Serves run core.val s r c) ∧ (r.done.find? (fun d => decide (d.1 = cid.toNat)) = none) ∧ ((r.outstanding.any fun o => decide (o.2 = cid.toNat)) = true) :=
  ⟨1, 0, 5, tRunOut, { tRun with outstanding := [(2, 5)] }, tRunCmd, by unfold Serves; decide⟩

/-- A state and operands that meet the hypotheses of `CrownServices`, clause 7 (`crownCounter`). -/
theorem test_CrownServices_crownCounter : ∃ (run : Nat) (core : Fin 32) (cnt : Fin 16) (threshold : BitVec 64) (s : State) (r : CrownRun) (c : Cmd),
    (Serves run core.val s r c) ∧ (threshold.toNat ≤ counterOf s c.tcx cnt.val) :=
  ⟨1, 0, 3, 0, tRunState, tRun, tRunCmd, by unfold Serves; decide⟩

/-- A state and operands that meet the hypotheses of `CrownServices`, clause 8 (`crownCounterBlocks`). -/
theorem test_CrownServices_crownCounterBlocks : ∃ (run : Nat) (core : Fin 32) (cnt : Fin 16) (threshold : BitVec 64) (s : State) (r : CrownRun) (c : Cmd),
    (Serves run core.val s r c) ∧ (counterOf s c.tcx cnt.val < threshold.toNat) :=
  ⟨1, 0, 3, 1, tRunState, tRun, tRunCmd, by unfold Serves; decide⟩

/-- A state and operands that meet the hypotheses of `CrownServices`, clause 9 (`crownFence`). -/
theorem test_CrownServices_crownFence : ∃ (run : Nat) (core : Fin 32) (s : State) (r : CrownRun) (c : Cmd),
    (Serves run core.val s r c) ∧ (coreWrites s run core.val = false) :=
  ⟨1, 0, tRunState, tRun, tRunCmd, by unfold Serves; decide⟩

/-- A state and operands that meet the hypotheses of `CrownServices`, clause 10 (`crownTime`). -/
theorem test_CrownServices_crownTime : ∃ (run : Nat) (core : Fin 32) (s : State) (r : CrownRun) (c : Cmd),
    (Serves run core.val s r c) :=
  ⟨1, 0, tRunState, tRun, tRunCmd, by unfold Serves; decide⟩

/-- A state and operands that meet the hypotheses of `CrownServices`, clause 11 (`crownTdcRead`). -/
theorem test_CrownServices_crownTdcRead : ∃ (run : Nat) (core : Fin 32) (s : State) (r : CrownRun) (c : Cmd),
    (Serves run core.val s r c) :=
  ⟨1, 0, tRunState, tRun, tRunCmd, by unfold Serves; decide⟩

/-- A state and operands that meet the hypotheses of `CrownServices`, clause 12 (`crownLog`). -/
theorem test_CrownServices_crownLog : ∃ (run : Nat) (core : Fin 32) (data : BitVec 128) (s : State) (r : CrownRun) (c : Cmd),
    (Serves run core.val s r c) ∧ (tabGet r.logTick 0 core.val + 249 ≤ s.time) :=
  ⟨1, 0, 7, { tRunState with time := 300 }, tRun, tRunCmd, by unfold Serves; decide⟩

/-- A state and operands that meet the hypotheses of `CrownServices`, clause 13 (`crownLogDrop`). -/
theorem test_CrownServices_crownLogDrop : ∃ (run : Nat) (core : Fin 32) (data : BitVec 128) (s : State) (r : CrownRun) (c : Cmd) (last : Nat),
    (Serves run core.val s r c) ∧ (tabGet r.logTick 0 core.val = last + 1) ∧ (s.time < last + 250) :=
  ⟨1, 0, 7, tRunLogged, { tRun with logTick := [(0, 1)] }, tRunCmd, 0, by unfold Serves; decide⟩

/-- A state and operands that meet the hypotheses of `CrownServices`, clause 14 (`crownExit`). -/
theorem test_CrownServices_crownExit : ∃ (run : Nat) (core : Fin 32) (value : Word) (s : State) (r : CrownRun) (c : Cmd),
    (Serves run core.val s r c) ∧ ((r.cores.all fun k => (tabFind (tabInsert r.exits core.val value) k).isSome) = false) :=
  ⟨1, 0, 7, tRunState, tRun, tRunCmd, by unfold Serves; decide⟩

/-- A state and operands that meet the hypotheses of `CrownServices`, clause 15 (`crownExitLast`). -/
theorem test_CrownServices_crownExitLast : ∃ (run : Nat) (core : Fin 32) (value : Word) (s : State) (r : CrownRun) (c : Cmd),
    (Serves run core.val s r c) ∧ ((r.cores.all fun k => (tabFind (tabInsert r.exits core.val value) k).isSome) = true) :=
  ⟨1, 0, 7, tRunLast, { tRun with exits := [(1, 0)] }, tRunCmd, by unfold Serves; decide⟩

/-- A state and operands that meet the hypotheses of `CrownServices`, clause 16 (`crownTrap`). -/
theorem test_CrownServices_crownTrap : ∃ (run : Nat) (core : Fin 32) (s : State) (r : CrownRun) (c : Cmd),
    (Serves run core.val s r c) :=
  ⟨1, 0, tRunState, tRun, tRunCmd, by unfold Serves; decide⟩

/-- A state and operands that meet the hypotheses of `CrownServices`, clause 17 (`crownTimeLimit`). -/
theorem test_CrownServices_crownTimeLimit : ∃ (run : Nat) (s : State) (r : CrownRun),
    (tabFind s.eng.runs run = some r) ∧ (r.ended = false) ∧ (schAway s = false) ∧ (submitted s run = []) :=
  ⟨1, tRunState, tRun, by decide⟩

/-- A state and operands that meet the hypotheses of `HostReads`, clause 1 (`memRd`). -/
theorem test_HostReads_memRd : ∃ (q : MemReq) (mv : MetaValue) (s : State) (hid : Nat),
    (tabFind s.q.bound (sluiceIx q.port q.ld) = some hid) ∧ (hostAllowed s hid q .read true = true) ∧ (LineIdle (lineOf q.tpa.toNat) s) :=
  ⟨tReq, .any, tHost, 7, by unfold LineIdle; decide⟩

/-- A state and operands that meet the hypotheses of `HostReads`, clause 2 (`memRdData`). -/
theorem test_HostReads_memRdData : ∃ (q : MemReq) (s : State) (hid : Nat),
    (tabFind s.q.bound (sluiceIx q.port q.ld) = some hid) ∧ (hostAllowed s hid q .read true = true) ∧ (LineIdle (lineOf q.tpa.toNat) s) :=
  ⟨tReq, tHost, 7, by unfold LineIdle; decide⟩

/-- A state and operands that meet the hypotheses of `HostReads`, clause 3 (`memInv`). -/
theorem test_HostReads_memInv : ∃ (q : MemReq) (s : State) (hid : Nat),
    (tabFind s.q.bound (sluiceIx q.port q.ld) = some hid) ∧ (hostAllowed s hid q .read true = true) ∧ (LineIdle (lineOf q.tpa.toNat) s) :=
  ⟨tReq, tHost, 7, by unfold LineIdle; decide⟩

/-- A state and operands that meet the hypotheses of `HostReads`, clause 4 (`memSpecRd`). -/
theorem test_HostReads_memSpecRd : ∃ (q : MemReq) (s : State) (hid : Nat),
    (tabFind s.q.bound (sluiceIx q.port q.ld) = some hid) ∧ (hostAllowed s hid q .read true = true) ∧ (LineIdle (lineOf q.tpa.toNat) s) :=
  ⟨tReq, tHost, 7, by unfold LineIdle; decide⟩

/-- A state and operands that meet the hypotheses of `HostReads`, clause 5 (`memRdRefused`). -/
theorem test_HostReads_memRdRefused : ∃ (q : MemReq) (mv : MetaValue) (s : State) (hid : Nat),
    (tabFind s.q.bound (sluiceIx q.port q.ld) = some hid) ∧ (hostAllowed s hid q .read true = false) :=
  ⟨{ tReq with tpa := 0x200000 }, .any, tHost, 7, by decide⟩

/-- A state and operands that meet the hypotheses of `HostReads`, clause 6 (`memClnEvct`). -/
theorem test_HostReads_memClnEvct : ∃ (q : MemReq) (s : State) (hid : Nat) (d : DirSlot),
    (tabFind s.q.bound (sluiceIx q.port q.ld) = some hid) ∧ (hostAllowed s hid q .read true = true) ∧ (slotOf s (lineOf q.tpa.toNat) = some d) ∧ (d.crown = false) ∧ (d.coarse = false) ∧ (hid ∈ d.ids) ∧ (d.ids.filter (· ≠ hid) ≠ []) :=
  ⟨{ tReq with bi := true }, tHostSlot, 7, tDirSlot, by decide⟩

/-- A state and operands that meet the hypotheses of `HostReads`, clause 7 (`unboundLdRequest`). -/
theorem test_HostReads_unboundLdRequest : ∃ (q : MemReq) (s : State),
    (tabFind s.q.bound (sluiceIx q.port q.ld) = none) :=
  ⟨tReq, State.reset, by decide⟩

/-- A state and operands that meet the hypotheses of `HostWrites`, clause 1 (`memWr`). -/
theorem test_HostWrites_memWr : ∃ (q : MemReq) (mv : MetaValue) (data : LineData) (poison : Bool) (s : State) (hid : Nat),
    (quiet s = true) ∧ (tabFind s.q.bound (sluiceIx q.port q.ld) = some hid) ∧ (hostAllowed s hid q .write true = true) ∧ (writesLocked s q.tpa.toNat = false) ∧ (LineIdle (lineOf q.tpa.toNat) s) ∧ (lineDb s (lineOf q.tpa.toNat) = false) :=
  ⟨tReq, .any, 5, false, tHost, 7, by unfold LineIdle; decide⟩

/-- A state and operands that meet the hypotheses of `HostWrites`, clause 2 (`memWrPtl`). -/
theorem test_HostWrites_memWrPtl : ∃ (q : MemReq) (mv : MetaValue) (mask : BitVec 64) (data : LineData) (poison : Bool) (s : State) (hid : Nat),
    (tabFind s.q.bound (sluiceIx q.port q.ld) = some hid) ∧ (hostAllowed s hid q .write true = true) ∧ (writesLocked s q.tpa.toNat = false) ∧ (LineIdle (lineOf q.tpa.toNat) s) ∧ (mask ≠ BitVec.allOnes 64) :=
  ⟨tReq, .any, 1, 5, false, tHost, 7, by unfold LineIdle; decide⟩

/-- A state and operands that meet the hypotheses of `HostWrites`, clause 3 (`memWrLocked`). -/
theorem test_HostWrites_memWrLocked : ∃ (q : MemReq) (mv : MetaValue) (data : LineData) (poison : Bool) (s : State) (hid : Nat),
    (tabFind s.q.bound (sluiceIx q.port q.ld) = some hid) ∧ (hostAllowed s hid q .write true = true) ∧ (writesLocked s q.tpa.toNat = true) ∧ (snooped s hid (lineOf q.tpa.toNat) = none) :=
  ⟨tReq, .any, 5, false, { tHost with pins := { ilOpen := true } }, 7, by decide⟩

/-- A state and operands that meet the hypotheses of `HostWrites`, clause 4 (`biConflict`). -/
theorem test_HostWrites_biConflict : ∃ (q : MemReq) (s : State) (hid : Nat),
    (tabFind s.q.bound (sluiceIx q.port q.ld) = some hid) ∧ ((hitOf s hid).dead = false) ∧ (tabFind s.coh.flows (lineOf q.tpa.toNat) = none) :=
  ⟨tReq, tHost, 7, by decide⟩

/-- A state and operands that meet the hypotheses of `HostWrites`, clause 5 (`biConflictWaits`). -/
theorem test_HostWrites_biConflictWaits : ∃ (q : MemReq) (s : State) (hid : Nat) (f : Flow) (sn : Snoop),
    (tabFind s.q.bound (sluiceIx q.port q.ld) = some hid) ∧ ((hitOf s hid).dead = false) ∧ (tabFind s.coh.flows (lineOf q.tpa.toNat) = some f) ∧ (f.snoops.find? (fun x => decide (x.hid = hid)) = some sn) :=
  ⟨tReq, tSnooped, 7, tSnoopFlow, { hid := 7, isData := true }, by decide⟩

/-- A state and operands that meet the hypotheses of `HostWrites`, clause 6 (`biRspI`). -/
theorem test_HostWrites_biRspI : ∃ (q : MemReq) (s : State) (hid : Nat) (f : Flow) (sn : Snoop),
    (tabFind s.q.bound (sluiceIx q.port q.ld) = some hid) ∧ ((hitOf s hid).dead = false) ∧ (tabFind s.coh.flows (lineOf q.tpa.toNat) = some f) ∧ (f.snoops.find? (fun x => decide (x.hid = hid)) = some sn) ∧ (f.conflicts = []) ∧ (f.probe = false) ∧ (slotOf s (lineOf q.tpa.toNat) = none) :=
  ⟨tReq, tSnooped, 7, tSnoopFlow, { hid := 7, isData := true }, by decide⟩

/-- A state and operands that meet the hypotheses of `HostWrites`, clause 7 (`biRspS`). -/
theorem test_HostWrites_biRspS : ∃ (q : MemReq) (s : State) (hid : Nat) (f : Flow) (sn : Snoop) (d : DirSlot),
    (tabFind s.q.bound (sluiceIx q.port q.ld) = some hid) ∧ ((hitOf s hid).dead = false) ∧ (tabFind s.coh.flows (lineOf q.tpa.toNat) = some f) ∧ (f.snoops.find? (fun x => decide (x.hid = hid)) = some sn) ∧ (sn.isData = true) ∧ (f.conflicts = []) ∧ (f.probe = false) ∧ (slotOf s (lineOf q.tpa.toNat) = some d) ∧ (d.crown = false) ∧ (d.coarse = false) :=
  ⟨tReq, { tSnooped with coh := { tSnooped.coh with sets := [(0, [tDirSlot])] } }, 7, tSnoopFlow, { hid := 7, isData := true }, tDirSlot, by decide⟩

/-- A state and operands that meet the hypotheses of `HostWrites`, clause 8 (`biRspE`). -/
theorem test_HostWrites_biRspE : ∃ (q : MemReq) (s : State) (hid : Nat),
    (tabFind s.q.bound (sluiceIx q.port q.ld) = some hid) ∧ ((hitOf s hid).dead = false) :=
  ⟨tReq, tHost, 7, by decide⟩

/-- A state and operands that meet the hypotheses of `HostWrites`, clause 9 (`atomicOp`). -/
theorem test_HostWrites_atomicOp : ∃ (q : MemReq) (op : HostAtomic) (size : AtomicSize) (operand new : BitVec 64) (s : State),
    (op = .notAtomic ∨ size = .b16) :=
  ⟨tReq, .notAtomic, .b4, 0, 0, tHost, by decide⟩

/-- A state and operands that meet the hypotheses of `HostWrites`, clause 10 (`atomicCas`). -/
theorem test_HostWrites_atomicCas : ∃ (q : MemReq) (operand new : BitVec 64) (s : State) (hid : Nat),
    (tabFind s.q.bound (sluiceIx q.port q.ld) = some hid) ∧ (hostAllowed s hid q .atomic false = true) ∧ (writesLocked s q.tpa.toNat = false) ∧ (q.tpa.toNat % 8 = 0) ∧ (LineIdle (lineOf q.tpa.toNat) s) :=
  ⟨tReq, 1, 2, tHost, 7, by unfold LineIdle; decide⟩

/-- A state and operands that meet the hypotheses of `HostWrites`, clause 11 (`malformedTlp`). -/
theorem test_HostWrites_malformedTlp : ∃ (port : Fin 17) (ld : Fin 16) (s : State) (p : Port) (k : Link),
    (p = portAt s port.val) ∧ (k = tabGet p.links {} (linkOfLd p.width ld.val)) :=
  ⟨0, 1, tHost, portAt tHost 0, tabGet (portAt tHost 0).links {} 0, by decide⟩

/-- A state and operands that meet the hypotheses of `HostWrites`, clause 12 (`snoopTimeout`). -/
theorem test_HostWrites_snoopTimeout : ∃ (hid : BitVec 8) (tpa : BitVec 50) (s : State) (f : Flow) (sn : Snoop) (k : Nat × State),
    (tabFind s.coh.flows (lineOf tpa.toNat) = some f) ∧ (f.snoops.find? (fun x => decide (x.hid = hid.toNat)) = some sn) ∧ (k = killHost hid.toNat (lineOf tpa.toNat) (noteDeadReads hid.toNat (lineOf tpa.toNat) s)) :=
  ⟨7, 0, tSnooped, tSnoopFlow, { hid := 7, isData := true }, _, by decide, by decide, rfl⟩

/-- A state and operands that meet the hypotheses of `HostWrites`, clause 13 (`deadHostSweepEnd`). -/
theorem test_HostWrites_deadHostSweepEnd : ∃ (hid : BitVec 8) (s : State),
    ((hitOf s hid.toNat).sweeping = true) ∧ (s.coh.sets = []) :=
  ⟨7, { State.reset with hit := [(7, { dead := true, sweeping := true })] }, by decide⟩

/-- A state and operands that meet the hypotheses of `CrownMemory`, clause 1 (`crownPoisonException`). -/
theorem test_CrownMemory_crownPoisonException : ∃ (run : Nat) (core : Fin 32) (dva : BitVec 52) (s : State) (r : CrownRun) (c : Cmd) (seg tpa : Nat),
    (Serves run core.val s r c) ∧ (checkByte s c.tcx dva.toNat .read = .at seg tpa) ∧ (linePoisoned s tpa = true) ∧ (r.handler = true) ∧ (s.eng.l2Poison = []) :=
  ⟨1, 0, 0, tRunPoison, { tRun with handler := true }, tRunCmd, 0, 0, by unfold Serves; decide⟩

/-- A state and operands that meet the hypotheses of `CrownMemory`, clause 2 (`crownPoisonStops`). -/
theorem test_CrownMemory_crownPoisonStops : ∃ (run : Nat) (core : Fin 32) (dva : BitVec 52) (s : State) (r : CrownRun) (c : Cmd) (seg tpa : Nat),
    (Serves run core.val s r c) ∧ (checkByte s c.tcx dva.toNat .read = .at seg tpa) ∧ (linePoisoned s tpa = true) ∧ (r.handler = false) ∧ (s.eng.l2Poison = []) :=
  ⟨1, 0, 0, { tRunPoison with eng := { runs := [(1, tRun)] } }, tRun, tRunCmd, 0, 0, by unfold Serves; decide⟩

/-- A state and operands that meet the hypotheses of `CrownMemory`, clause 3 (`crownAtomic`). -/
theorem test_CrownMemory_crownAtomic : ∃ (run : Nat) (core : Fin 32) (dva : BitVec 52) (op : AtomicKind) (operand new : BitVec 64) (s : State) (c : Cmd),
    ((s.q.cmds.find? fun d => decide (d.serial = run)) = some c) ∧ (engineMay s (0xC0 + core.val) 5 c.tcx run = true) ∧ (dva.toNat % 8 = 0) :=
  ⟨1, 0, 8, .cas, 1, 2, tRunPoison, tRunCmd, by decide⟩

/-- A state and operands that meet the hypotheses of `CrownMemory`, clause 4 (`migrationCutover`). -/
theorem test_CrownMemory_migrationCutover : ∃ (serial : Nat) (s : State) (pl : Placement),
    (schAway s = false) ∧ (tabFind s.eng.placements serial = some pl) ∧ (pl.migrating = true) ∧ (pl.queued = []) :=
  ⟨1, tPlaced { cores := [0, 1], begun := true, counts := [4], items := [(0, { newCore := some 1 })], migrating := true, migrated := true }, { cores := [0, 1], begun := true, counts := [4], items := [(0, { newCore := some 1 })], migrating := true, migrated := true }, by decide⟩

/-- A state and operands that meet the hypotheses of `CrownMemory`, clause 5 (`itemResultLanded`). -/
theorem test_CrownMemory_itemResultLanded : ∃ (serial : Nat) (item : BitVec 24) (core : Fin 128) (out : List DvaByte) (overflow : Bool) (s : State) (pl : Placement) (c : Cmd) (r : Run),
    (tabFind s.eng.placements serial = some pl) ∧ ((s.q.cmds.find? fun d => decide (d.serial = serial)) = some c) ∧ (pl.begun = true) ∧ (item.toNat < pl.counts.getD pl.phase 0) ∧ (c.stopped = false) ∧ (c.lines = []) ∧ (core.val = itemCore pl item.toNat) ∧ ((itemAt pl item.toNat).accepted = false) ∧ (r = (groupBytes out).foldl (fun r g => writeRange g.1 g.2 r) { runOf c s with unit := core.val, engine := 3 }) ∧ (runBlocked r = false) :=
  ⟨1, 0, 0, [], false, tPlaced { cores := [0, 1], begun := true, counts := [4] }, { cores := [0, 1], begun := true, counts := [4] }, tKernelCmd, { runOf tKernelCmd (tPlaced { cores := [0, 1], begun := true, counts := [4] }) with unit := 0, engine := 3 }, by refine ⟨?_, ?_, ?_, ?_, ?_, ?_, ?_, ?_, rfl, ?_⟩ <;> decide⟩

/-- A state and operands that meet the hypotheses of `CrownMemory`, clause 6 (`itemResultDiscarded`). -/
theorem test_CrownMemory_itemResultDiscarded : ∃ (serial : Nat) (item : BitVec 24) (core : Fin 128) (out : List DvaByte) (overflow : Bool) (s : State) (pl : Placement) (c : Cmd),
    (tabFind s.eng.placements serial = some pl) ∧ ((s.q.cmds.find? fun d => decide (d.serial = serial)) = some c) ∧ (pl.begun = true) ∧ (item.toNat < pl.counts.getD pl.phase 0) ∧ (c.stopped = false) ∧ (c.lines = []) ∧ (core.val = itemCore pl item.toNat) ∧ ((itemAt pl item.toNat).accepted = true) ∧ (pl.migrated = true) ∧ (isReproducible c.modes = false) :=
  ⟨1, 0, 0, [], false, tPlaced { cores := [0, 1], begun := true, counts := [4], items := [(0, { accepted := true })], migrated := true }, { cores := [0, 1], begun := true, counts := [4], items := [(0, { accepted := true })], migrated := true }, tKernelCmd, by decide⟩

/-- A state and operands that meet the hypotheses of `CrownMemory`, clause 7 (`kernelPhaseStart`). -/
theorem test_CrownMemory_kernelPhaseStart : ∃ (serial : Nat) (s : State) (pl : Placement) (c : Cmd),
    (schAway s = false) ∧ (tabFind s.eng.placements serial = some pl) ∧ ((s.q.cmds.find? fun d => decide (d.serial = serial)) = some c) ∧ (pl.begun = false) ∧ (c.stopped = false) ∧ (c.opcode = 0xA0) ∧ (writesPending s c.tcx = false) ∧ (phaseCores s c.tcx c.polder pl ≠ []) :=
  ⟨1, tPlaced { want := 2, counts := [4] }, { want := 2, counts := [4] }, tKernelCmd, by
    refine ⟨by decide, by decide, by decide, by decide, by decide, by decide, by decide, fun h => ?_⟩
    have h' := congrArg List.length h
    simp only [phaseCores, List.length_mergeSort] at h'
    revert h'
    decide⟩

/-- A state and operands that meet the hypotheses of `MediumRows`, clause 1 (`mediumReadComplete`). -/
theorem test_MediumRows_mediumReadComplete : ∃ (tpa : BitVec 50) (s : State) (f : Flow),
    (tabFind s.coh.flows (lineOf tpa.toNat) = some f) ∧ (f.medium = true) ∧ (regionOf tpa.toNat ≠ .flash) :=
  ⟨0, tMedium, tMediumFlow, by decide⟩

/-- A state and operands that meet the hypotheses of `MediumRows`, clause 2 (`mediumCorrected`). -/
theorem test_MediumRows_mediumCorrected : ∃ (tpa : BitVec 50) (d : Fin 10) (s : State) (f : Flow),
    (tabFind s.coh.flows (lineOf tpa.toNat) = some f) ∧ (f.medium = true) ∧ (regionOf tpa.toNat ≠ .flash) :=
  ⟨0, 3, tMedium, tMediumFlow, by decide⟩

/-- A state and operands that meet the hypotheses of `MediumRows`, clause 4 (`channelFailureDeclared`). -/
theorem test_MediumRows_channelFailureDeclared : ∃ (n : Fin 24) (s : State),
    (s.res.failedDdr.getLsbD n.val = false) ∧ ((s.tray.mapHome.filter fun e => decide (e.2 = n.val)) = []) ∧ (channelPolder s (.ddr n) = none) :=
  ⟨3, tHost, by decide⟩

/-- A state and operands that meet the hypotheses of `MediumRows`, clause 5 (`parityRebuildComplete`). -/
theorem test_MediumRows_parityRebuildComplete : ∃ (polder : BitVec 6) (s : State) (r : Rebuild),
    ((polderOf s polder.toNat).rebuild = some r) ∧ (s.pins.ilOpen = false) ∧ (s.pins.ilFault = false) :=
  ⟨0, { tHost with polders := [(0, { tPolder with rebuild := some { failed := 0, done := 5 } })] }, { failed := 0, done := 5 }, by decide⟩

/-- A state and operands that meet the hypotheses of `MediumRows`, clause 6 (`patrolRead`). -/
theorem test_MediumRows_patrolRead : ∃ (tpa : BitVec 50) (s : State),
    ((polderAt s tpa.toNat).isSome = true) ∧ (regionOf tpa.toNat ≠ .flash) :=
  ⟨0, tHost, by decide⟩

/-- A state and operands that meet the hypotheses of `MediumRows`, clause 7 (`patrolDiverged`). -/
theorem test_MediumRows_patrolDiverged : ∃ (tpa : BitVec 50) (s : State) (p : Nat),
    (polderAt s tpa.toNat = some p) ∧ (isMirror (polderOf s p).modes = true) ∧ (regionOf tpa.toNat = .dram) :=
  ⟨0, { tHost with polders := [(0, { tPolder with modes := 0x09000000 })] }, 0, by decide⟩

/-- A state and operands that meet the hypotheses of `EngineAccesses`, clause 1 (`engineRead`). -/
theorem test_EngineAccesses_engineRead : ∃ (e : EngineRef) (dva : BitVec 52) (length : BitVec 17) (dest : BitVec 32) (s : State),
    (engineMay s e.unit.toNat e.engine.toNat e.tcx.toNat e.serial = true) ∧ (length.toNat ≠ 0) ∧ (length.toNat ≤ 65536) :=
  ⟨tEngine, 0, 64, 0, tMapped, by decide⟩

/-- A state and operands that meet the hypotheses of `EngineAccesses`, clause 2 (`engineWrite`). -/
theorem test_EngineAccesses_engineWrite : ∃ (e : EngineRef) (dva : BitVec 52) (data : List Byte) (poison : Bool) (s : State),
    (engineMay s e.unit.toNat e.engine.toNat e.tcx.toNat e.serial = true) ∧ (data ≠ []) ∧ (data.length ≤ 65536) :=
  ⟨tEngine, 0, [1], false, tMapped, by decide⟩

/-- A state and operands that meet the hypotheses of `EngineAccesses`, clause 3 (`engineAtomic`). -/
theorem test_EngineAccesses_engineAtomic : ∃ (e : EngineRef) (dva : BitVec 52) (op : AtomicKind) (operand new : BitVec 64) (s : State),
    (engineMay s e.unit.toNat e.engine.toNat e.tcx.toNat e.serial = true) ∧ (e.unit.toNat < 0xC0) ∧ (dva.toNat % 8 = 0) :=
  ⟨tEngine, 0, .swap, 1, 2, tMapped, by decide⟩

/-- A state and operands that meet the hypotheses of `EngineAccesses`, clause 4 (`access`). -/
theorem test_EngineAccesses_access : ∃ (a : WaitingAccess) (s : State),
    ((segsOfRange s a.tcx a.dva a.length).all (fun n => (segCache s a.unit a.engine).any fun c => decide (c.tcx = a.tcx ∧ c.seg = n)) = true) ∧ (s.eng.waiting = []) ∧ (tabFind s.eng.lastTcx (cacheIx a.unit a.engine) = some a.tcx) :=
  ⟨tAccess, tCached, by decide⟩

/-- A state and operands that meet the hypotheses of `EngineAccesses`, clause 5 (`segmentFillArrival`). -/
theorem test_EngineAccesses_segmentFillArrival : ∃ (unit : BitVec 8) (engine : BitVec 4) (stream : Fin 8) (entry : BitVec 16) (s : State) (m : SegMiss),
    (s.eng.misses = [m]) ∧ (m.unit = unit.toNat) ∧ (m.engine = engine.toNat) ∧ (m.stream = stream.val) ∧ (m.entry = entry.toNat) ∧ (m.stale = false) ∧ ((segOf s (entry.toNat / 16) (entry.toNat % 16)).valid = true) ∧ (s.eng.waiting = []) :=
  ⟨0, 0, 0, 0, { tMapped with eng := { misses := [{ unit := 0, engine := 0, stream := 0, entry := 0 }] } }, { unit := 0, engine := 0, stream := 0, entry := 0 }, by decide⟩

/-- A state and operands that meet the hypotheses of `EngineAccesses`, clause 7 (`thReadCompletion`). -/
theorem test_EngineAccesses_thReadCompletion : ∃ (tile : Nat) (data : List Byte) (s : State) (e : Nat × Nat × Nat × Nat) (t : Tile),
    (tabFind s.tier.thReads tile = some e) ∧ (tabFind s.eng.tiles tile = some t) ∧ (data.length = e.2.2.1) :=
  ⟨1, [9], tTh, (0, 0, 1, 0), tThTile, by decide⟩

/-- A state and operands that meet the hypotheses of `EngineAccesses`, clause 8 (`thReadTimeout`). -/
theorem test_EngineAccesses_thReadTimeout : ∃ (tile : Nat) (s : State) (e : Nat × Nat × Nat × Nat),
    (tabFind s.tier.thReads tile = some e) :=
  ⟨1, tTh, (0, 0, 1, 0), by decide⟩

/-- A state and operands that meet the hypotheses of `CombiningRows`, clause 1 (`fetchAddBatchSend`). -/
theorem test_CombiningRows_fetchAddBatchSend : ∃ (tpa : BitVec 50) (key : BitVec 13) (s : State) (b : FetchBatch),
    (s.copy.batches = [b]) ∧ (b.tpa = tpa.toNat) ∧ (b.key = key.toNat) ∧ (b.forming ≠ []) :=
  ⟨0, 5, { tMapped with copy := { batches := [tBatch] } }, tBatch, by decide⟩

/-- A state and operands that meet the hypotheses of `CombiningRows`, clause 2 (`atomicResultReturn`). -/
theorem test_CombiningRows_atomicResultReturn : ∃ (tpa : BitVec 50) (key : BitVec 13) (s : State) (b : FetchBatch) (group : List (Asker × Nat)) (old : Nat) (bad tagBad : Bool),
    (s.copy.batches = [b]) ∧ (b.tpa = tpa.toNat) ∧ (b.key = key.toNat) ∧ (b.sent = [group]) ∧ (b.forming = []) ∧ (b.results = [(old, bad, tagBad)]) :=
  ⟨0, 5, { tMapped with copy := { batches := [tBatchBack] } }, tBatchBack, [(.device, 3)], 7, false, false, by decide⟩

/-- A state and operands that meet the hypotheses of `CombiningRows`, clause 3 (`promotionSamplePeriod`). -/
theorem test_CombiningRows_promotionSamplePeriod : ∃ (polder : BitVec 6) (s : State),
    (poolBlocks (polderOf s polder.toNat) ≠ 0) :=
  ⟨0, { tMapped with polders := [(0, { tPolder with promoPool := 1 })], tier := { sample := [(3, 64)] } }, by decide⟩

/-- A state and operands that meet the hypotheses of `CombiningRows`, clause 4 (`promotionCopyComplete`). -/
theorem test_CombiningRows_promotionCopyComplete : ∃ (tpa : BitVec 50) (s : State) (b : Promoted),
    (tabFind s.tier.promoted (tpa.toNat / 65536) = some b) ∧ (b.installed = false) ∧ (promoRoom b.polder (dropPromoted (tpa.toNat / 65536) s) = some (dropPromoted (tpa.toNat / 65536) s)) :=
  ⟨0, { tMapped with polders := [(0, { tPolder with promoPool := 1 })], tier := { promoted := [(0, {})] } }, {}, by decide⟩

/-- A state and operands that meet the hypotheses of `CombiningRows`, clause 5 (`sketchHalving`). -/
theorem test_CombiningRows_sketchHalving : ∃ (polder : BitVec 6) (s : State),
    ((polderOf s polder.toNat).rowCacheUnits ≠ 0) ∧ (16 * 65536 * (polderOf s polder.toNat).rowCacheUnits ≤ tabGet s.tbl.increments 0 polder.toNat) :=
  ⟨0, { tMapped with polders := [(0, { tPolder with rowCacheUnits := 1 })], tbl := { increments := [(0, 1048576)] } }, by decide⟩

/-- A state and operands that meet the hypotheses of `CombiningRows`, clause 6 (`granuleFillComplete`). -/
theorem test_CombiningRows_granuleFillComplete : ∃ (tpa : BitVec 50) (s : State) (f : Fill) (k : KeySlot),
    (s.key.fills = [f]) ∧ (f.granule = granuleOf tpa.toNat) ∧ (keySlotOf s f.tcx f.slot = some k) ∧ (k.key = f.key) :=
  ⟨0, { tMapped with tcxs := [(0, { state := .live, keys := [(1, { key := 4 })] })], key := { fills := [{ granule := 1, tcx := 0, slot := 1, key := 4 }] } }, { granule := 1, tcx := 0, slot := 1, key := 4 }, { key := 4 }, by decide⟩

/-- A state and operands that meet the hypotheses of `CombiningRows`, clause 7 (`overlayMergeEnd`). -/
theorem test_CombiningRows_overlayMergeEnd : ∃ (tcx : BitVec 12) (table : BitVec 6) (s : State) (t : Table),
    (tabFind s.tbl.tables (64 * tcx.toNat + table.toNat) = some t) ∧ (t.current.merging = true) ∧ (t.retiring = []) :=
  ⟨0, 0, { tMapped with tbl := { tables := [(0, { current := { merging := true } })] } }, { current := { merging := true } }, by decide⟩

/-- A state and operands that meet the hypotheses of `CombiningRows`, clause 8 (`spillCutoff`). -/
theorem test_CombiningRows_spillCutoff : ∃ (serial : Nat) (s : State) (c : Cmd),
    (schAway s = false) ∧ ((s.q.cmds.find? fun d => decide (d.serial = serial) && !d.waiting && !d.cut) = some c) ∧ (spills c = true) ∧ (reserveOf c.opcode < hdrDeadline c.words) ∧ (spillPoint c (reserveOf c.opcode) ≤ s.time) :=
  ⟨1, tSpill, tSpillCmd, by decide⟩

/-- A state and operands that meet the hypotheses of `WeirRows`, clause 1 (`weirFrameArrival`). -/
theorem test_WeirRows_weirFrameArrival : ∃ (die : Fin 4) (att : Fin 33) (f g : Frame) (received : BitVec 7) (shared : Bool) (s t : State),
    (s.fw.started = true) ∧ (dieLive s die.val = true) ∧ (attExists die.val att.val = true) ∧ (s.weir.failedAtt.contains (die.val * 33 + att.val) = false) ∧ (frameOk f true received.toNat = true) ∧ (policeFrame die.val att.val f { s with weir := { s.weir with replays := tabErase s.weir.replays (die.val * 33 + att.val) } } = (g, t)) ∧ (g.cls.toNat < 6) ∧ (flowHeld t die.val (die.val * 33 + att.val) g = false) ∧ (admission t die.val (queueKey die.val (routeEp t die.val g) g.cls.toNat) g = some shared) :=
  ⟨0, 0, { tFrame with kind := 4 }, _, 0, _, tStarted, _, by decide, by decide, by decide, by decide, by decide, rfl, by decide, by decide, rfl⟩

/-- A state and operands that meet the hypotheses of `WeirRows`, clause 2 (`weirFrameArrival_held`). -/
theorem test_WeirRows_weirFrameArrival_held : ∃ (die : Fin 4) (att : Fin 33) (f g : Frame) (received : BitVec 7) (s t : State),
    (s.fw.started = true) ∧ (dieLive s die.val = true) ∧ (attExists die.val att.val = true) ∧ (s.weir.failedAtt.contains (die.val * 33 + att.val) = false) ∧ (frameOk f true received.toNat = true) ∧ (policeFrame die.val att.val f { s with weir := { s.weir with replays := tabErase s.weir.replays (die.val * 33 + att.val) } } = (g, t)) ∧ (g.cls.toNat < 6) ∧ (flowHeld t die.val (die.val * 33 + att.val) g = true ∨ admission t die.val (queueKey die.val (routeEp t die.val g) g.cls.toNat) g = none) :=
  ⟨0, 0, { tFrame with kind := 4 }, _, 0, { tStarted with weir := { held := [tHeldFrame] } }, _, by decide, by decide, by decide, by decide, by decide, rfl, by decide, by decide⟩

/-- A state and operands that meet the hypotheses of `WeirRows`, clause 3 (`weirFrameArrival_discarded`). -/
theorem test_WeirRows_weirFrameArrival_discarded : ∃ (die : Fin 4) (att : Fin 33) (f : Frame) (crcOk : Bool) (received : BitVec 7) (s : State),
    (s.fw.started = true) ∧ (dieLive s die.val = true) ∧ (attExists die.val att.val = true) ∧ (s.weir.failedAtt.contains (die.val * 33 + att.val) = false) ∧ (frameOk f crcOk received.toNat = false) ∧ (tabGet s.weir.replays 0 (die.val * 33 + att.val) < 8) :=
  ⟨0, 0, tFrame, false, 0, tStarted, by decide⟩

/-- A state and operands that meet the hypotheses of `WeirRows`, clause 4 (`frameAdmitRetry`). -/
theorem test_WeirRows_frameAdmitRetry : ∃ (die : Fin 4) (att : Fin 33) (h : HeldFrame) (shared : Bool) (s : State),
    (s.weir.held = [h]) ∧ (h.input = die.val * 33 + att.val) ∧ (admission s die.val (queueKey die.val (routeEp s die.val h.frame) h.frame.cls.toNat) h.frame = some shared) :=
  ⟨0, 0, tHeldFrame, _, { tStarted with weir := { held := [tHeldFrame] } }, by decide, by decide, rfl⟩

/-- A state and operands that meet the hypotheses of `WeirRows`, clause 5 (`weirFrameDeliver`). -/
theorem test_WeirRows_weirFrameDeliver : ∃ (die : Fin 4) (att : Fin 33) (c : Nat) (q : QFrame) (s t : State),
    (attExists die.val att.val = true) ∧ (dieLive s die.val = true) ∧ (s.weir.failedAtt.contains (die.val * 33 + att.val) = false) ∧ (((linkOfEp die.val (endpointOf att.val)).any fun k => (leveeOf s k).retraining) = false) ∧ (chooseClass die.val (endpointOf att.val) s = some (c, t)) ∧ (queueHead s die.val (endpointOf att.val) c = some q) :=
  ⟨0, 0, _, _, { tStarted with weir := { queues := [(queueKey 0 0 0, [{ frame := tFrame }])] } }, _, by decide, by decide, by decide, by decide, rfl, rfl⟩

/-- A state and operands that meet the hypotheses of `WeirRows`, clause 6 (`weirStatsPeriod`). -/
theorem test_WeirRows_weirStatsPeriod : ∃ (t : BitVec 12) (st : StatStream) (s : State),
    (tabFind s.weir.streams t.toNat = some st) ∧ ((checkRange s t.toNat st.dva.toNat 96 .write).any (fun p => isDenied p.2.2 || isUnmapped p.2.2) = false) :=
  ⟨0, _, tPeriodic, rfl, by decide⟩

/-- A state and operands that meet the hypotheses of `WeirRows`, clause 7 (`leveeFrameReceived`). -/
theorem test_WeirRows_leveeFrameReceived : ∃ (link : Fin 6) (up : Bool) (seq : BitVec 16) (s : State),
    ((leveeOf s link.val).down = false) ∧ (seq.toNat = tabGet (leveeOf s link.val).nextSeq 0 (dirKey up)) :=
  ⟨0, true, 0, tStarted, by decide⟩

/-- A state and operands that meet the hypotheses of `WeirRows`, clause 8 (`leveeLaneFailure`). -/
theorem test_WeirRows_leveeLaneFailure : ∃ (link : Fin 6) (up : Bool) (group : Fin 8) (s : State),
    ((leveeOf s link.val).down = false) ∧ ((8 * dirKey up + group.val) ∉ (leveeOf s link.val).groupsOff) ∧ ((leveeOf s link.val).retraining = false) :=
  ⟨0, true, 0, tStarted, by decide⟩

/-- A state and operands that meet the hypotheses of `WeirRows`, clause 9 (`leveeRetrainEnd`). -/
theorem test_WeirRows_leveeRetrainEnd : ∃ (link : Fin 6) (g : Nat) (s : State),
    ((leveeOf s link.val).retraining = true) ∧ ((leveeOf s link.val).pendingLanes = [(g, 1)]) ∧ ((leveeOf s link.val).groupsOff = []) ∧ (tabGet (leveeOf s link.val).failedLanes 0 g < 2) :=
  ⟨0, 3, tRetrain, by decide⟩

/-- A state and operands that meet the hypotheses of `CopyRows`, clause 1 (`dropNotice`). -/
theorem test_CopyRows_dropNotice : ∃ (serial : Nat) (f : Frame) (s : State) (c : Cmd),
    ((s.q.cmds.find? fun c => c.serial = serial && decide (c.opcode = 0x40) && flag c.words 3 31) = some c) ∧ ((s.copy.resends.any fun r => r.serial = serial && r.frame.tag = f.tag) = false) :=
  ⟨1, tFrame, tBest, _, rfl, by decide⟩

/-- A state and operands that meet the hypotheses of `CopyRows`, clause 2 (`bestEffortResend`). -/
theorem test_CopyRows_bestEffortResend : ∃ (serial : Nat) (tag : BitVec 18) (s : State) (r : Resend) (c : Cmd),
    ((s.copy.resends.find? fun r => r.serial = serial && r.frame.tag = tag && r.due) = some r) ∧ ((s.q.cmds.find? fun c => c.serial = serial) = some c) :=
  ⟨1, 0, tResend, _, _, rfl, rfl⟩

/-- A state and operands that meet the hypotheses of `CopyRows`, clause 3 (`chunkLanded`). -/
theorem test_CopyRows_chunkLanded : ∃ (serial : Nat) (host : List HostByte) (s : State) (c0 : Cmd),
    ((s.q.cmds.find? fun c => c.serial = serial && decide (c.opcode = 0x40 ∧ c.phase ≠ 0) && c.outcome.isNone) = some c0) ∧ (c0.lines = []) ∧ (copyReady s { c0 with host := host } = true) ∧ (runBlocked (copyChunk { c0 with host := host } s) = false) ∧ ((copyChunk { c0 with host := host } s).stopped = false) ∧ ((nextChunk s c0).1 + (nextChunk s c0).2 ≠ (copyReq c0).length) ∧ ((copyReq c0).cntMode = 0) :=
  ⟨1, [], tCopy, tCopyCmd, by decide, by decide, by decide, by decide, by decide, by decide, by decide⟩

/-- A state and operands that meet the hypotheses of `CopyRows`, clause 4 (`waitTimeout`). -/
theorem test_CopyRows_waitTimeout : ∃ (serial : Nat) (s : State) (c : Cmd),
    ((s.q.cmds.find? fun c => c.serial = serial && decide (c.opcode = 0x42 ∧ c.phase ≠ 0) && !c.decided) = some c) ∧ (field c.words 6 23 0 ≠ 0) :=
  ⟨1, tWaiting, _, rfl, by decide⟩

/-- A state and operands that meet the hypotheses of `CopyRows`, clause 5 (`pushSlotWrite`). -/
theorem test_CopyRows_pushSlotWrite : ∃ (port : Fin 17) (ld : Fin 16) (slot : Fin 16) (offset : BitVec 16) (data : List Byte) (s : State) (p : PushSlot),
    (tabFind s.copy.slots (slotKey (sluiceIx port ld) slot.val) = some p) ∧ (∀ i < data.length, streamOffset p (offset.toNat + i) < p.length) :=
  ⟨0, 1, 0, 0, [7], tPush, _, rfl, by decide⟩

/-- A state and operands that meet the hypotheses of `CopyRows`, clause 6 (`pushBurstExpiry`). -/
theorem test_CopyRows_pushBurstExpiry : ∃ (port : Fin 17) (ld : Fin 16) (slot : Fin 16) (s : State) (p : PushSlot) (c : Cmd),
    (tabFind s.copy.slots (slotKey (sluiceIx port ld) slot.val) = some p) ∧ (p.timer = true) ∧ (s.q.intakeHeld = false) ∧ ((s.q.cmds.find? fun c => c.serial = p.serial) = some c) ∧ (p.arrived = []) :=
  ⟨0, 1, 0, tBurst, { serial := 1, length := 8, timer := true }, tCopyCmd, by decide, rfl, rfl, rfl, rfl⟩

/-- A state and operands that meet the hypotheses of `CopyRows`, clause 7 (`joinTimeout`). -/
theorem test_CopyRows_joinTimeout : ∃ (polder : BitVec 6) (group : Word) (s : State) (g : Group),
    (tabFind s.copy.groups (polder.toNat * 2 ^ 32 + group.toNat) = some g) ∧ (g.full = false) :=
  ⟨0, 5, tGroup, { opcode := 0x44, params := [], count := 2 }, by decide⟩

/-- A state and operands that meet the hypotheses of `ResetAndDrainRows`, clause 1 (`resetEngineCutoff`). -/
theorem test_ResetAndDrainRows_resetEngineCutoff : ∃ (t : BitVec 12) (s : State),
    (schAway s = false) ∧ ((tcxOf s t.toNat).state = .resetting) :=
  ⟨0, tResetting, by decide⟩

/-- A state and operands that meet the hypotheses of `ResetAndDrainRows`, clause 2 (`remapEngineCutoff`). -/
theorem test_ResetAndDrainRows_remapEngineCutoff : ∃ (t : BitVec 12) (seg : Fin 16) (s : State),
    (schAway s = false) ∧ (s.tier.thReads = []) :=
  ⟨0, 0, tTiled, by decide⟩

/-- A state and operands that meet the hypotheses of `ResetAndDrainRows`, clause 3 (`drainComplete`). -/
theorem test_ResetAndDrainRows_drainComplete : ∃ (polder : BitVec 6) (s : State),
    (schAway s = false) ∧ ((polderOf s polder.toNat).state = .draining) ∧ (drainSnoops s polder.toNat = false) ∧ ((polderOf s polder.toNat).action ≠ .release) ∧ (polderTcxs s polder.toNat = []) :=
  ⟨0, { tDraining with tcxs := [] }, by decide⟩

/-- A state and operands that meet the hypotheses of `ResetAndDrainRows`, clause 4 (`scrubComplete`). -/
theorem test_ResetAndDrainRows_scrubComplete : ∃ (polder : BitVec 6) (s : State),
    (schAway s = false) ∧ ((polderOf s polder.toNat).state = .scrubbing) ∧ (s.pins.ilOpen = false) ∧ (s.pins.ilFault = false) ∧ (regionOf (polderOf s polder.toNat).dramRange.base ≠ .flash) :=
  ⟨0, tScrubbing, by decide⟩

/-- A state and operands that meet the hypotheses of `FaultRows`, clause 1 (`diePllLockLoss`). -/
theorem test_FaultRows_diePllLockLoss : ∃ (s : State),
    (s.fw.started = true) ∧ (dieLive s 0 = true) :=
  ⟨tOn, by decide⟩

/-- A state and operands that meet the hypotheses of `FaultRows`, clause 2 (`diePllLockLoss_other`). -/
theorem test_FaultRows_diePllLockLoss_other : ∃ (d : Fin 4) (s : State),
    (s.fw.started = true) ∧ (dieLive s d.val = true) :=
  ⟨1, tOn, by decide⟩

/-- A state and operands that meet the hypotheses of `FaultRows`, clause 3 (`sramStackFailure`). -/
theorem test_FaultRows_sramStackFailure : ∃ (stack : Fin 8) (s : State),
    (s.fw.started = true) ∧ (dieLive s (stack.val / 2) = true) :=
  ⟨3, tOn, by decide⟩

/-- A state and operands that meet the hypotheses of `FaultRows`, clause 4 (`computeCoreFault`). -/
theorem test_FaultRows_computeCoreFault : ∃ (n : Fin 128) (s : State),
    (s.flt.coreQ.getLsbD n.val = false) :=
  ⟨0, tOn, by decide⟩

/-- A state and operands that meet the hypotheses of `FaultRows`, clause 5 (`computeCoreFault_crown`). -/
theorem test_FaultRows_computeCoreFault_crown : ∃ (n : Fin 32) (s : State),
    (s.flt.crownQ.getLsbD n.val = false) ∧ (s.eng.runs = []) :=
  ⟨0, tOn, by decide⟩

/-- A state and operands that meet the hypotheses of `FaultRows`, clause 6 (`tileProgressTimeout`). -/
theorem test_FaultRows_tileProgressTimeout : ∃ (n : Fin 128) (s : State),
    (s.flt.coreQ.getLsbD n.val = false) ∧ (unitCommands s n.val ≠ []) :=
  ⟨0, tTiled, by decide⟩

/-- A state and operands that meet the hypotheses of `FaultRows`, clause 7 (`hbmStackFault`). -/
theorem test_FaultRows_hbmStackFault : ∃ (stack : Fin 8) (s : State),
    (∀ i < 32, s.res.failedHbm.getLsbD (32 * stack.val + i) = false) :=
  ⟨0, tOn, by decide⟩

/-- A state and operands that meet the hypotheses of `FaultRows`, clause 8 (`watchdogExpiry`). -/
theorem test_FaultRows_watchdogExpiry : ∃ (s : State),
    (s.pins.terpUp = true) ∧ (s.fw.halted.getLsbD 0 = false) :=
  ⟨tOn, by decide⟩

/-- A state and operands that meet the hypotheses of `FaultRows`, clause 9 (`watchdogExpiry_sch`). -/
theorem test_FaultRows_watchdogExpiry_sch : ∃ (s : State),
    (s.pins.terpUp = true) ∧ (s.fw.started = true) ∧ (s.fw.halted.getLsbD 2 = false) ∧ (s.fw.onShadow = false) :=
  ⟨tOn, by decide⟩

/-- A state and operands that meet the hypotheses of `FaultRows`, clause 10 (`schHeartbeatMiss`). -/
theorem test_FaultRows_schHeartbeatMiss : ∃ (s : State),
    (s.fw.started = true) ∧ (s.fw.onShadow = false) ∧ (s.fw.shadowLost = false) ∧ (s.fw.halted.getLsbD 2 = false) ∧ (s.fw.halted.getLsbD 3 = false) ∧ (s.fw.activating = none) :=
  ⟨tOn, by decide⟩

/-- A state and operands that meet the hypotheses of `FaultRows`, clause 11 (`shadowHeartbeatMiss`). -/
theorem test_FaultRows_shadowHeartbeatMiss : ∃ (s : State),
    (s.fw.started = true) ∧ (s.fw.onShadow = false) ∧ (s.fw.halted.getLsbD 3 = false) :=
  ⟨tOn, by decide⟩

/-- A state and operands that meet the hypotheses of `FaultRows`, clause 12 (`channelCoreFault`). -/
theorem test_FaultRows_channelCoreFault : ∃ (ch : Fin 64) (s : State),
    ((nandOf s ch.val).present = true) ∧ ((nandOf s ch.val).health ≠ .failed) :=
  ⟨0, tNand, by decide⟩

/-- A state and operands that meet the hypotheses of `FaultRows`, clause 13 (`noticeWindowEnd`). -/
theorem test_FaultRows_noticeWindowEnd : ∃ (kind : BitVec 8) (polder : BitVec 7) (port : BitVec 5) (hid : BitVec 8) (unit : BitVec 20) (tcx : BitVec 12) (s : State) (w : NoticeWindow),
    (s.flt.windows = [w]) ∧ (windowSubject w = ⟨kind.toNat, polder.toNat, port.toNat, hid.toNat, unit.toNat, tcx.toNat⟩) ∧ (w.suppressed ≠ 0) :=
  ⟨0x0F, 64, 31, 0, 1, 0, tNoticed, ⟨0x0F, 64, 31, 0, 1, 0, 2, 5, 7⟩, by decide⟩

/-- A state and operands that meet the hypotheses of `StartRows`, clause 1 (`terpSupplyValid`). -/
theorem test_StartRows_terpSupplyValid : ∃ (f : TerpInputs) (s : State),
    (s.pins.terpUp = false) :=
  ⟨tTerpIn, State.reset, by decide⟩

/-- A state and operands that meet the hypotheses of `StartRows`, clause 2 (`terpReset`). -/
theorem test_StartRows_terpReset : ∃ (s : State),
    (s.pins.terpUp = true) :=
  ⟨tOn, by decide⟩

/-- A state and operands that meet the hypotheses of `StartRows`, clause 3 (`sysResetAssert`). -/
theorem test_StartRows_sysResetAssert : ∃ (s : State),
    (s.pins.terpUp = true) :=
  ⟨tOn, by decide⟩

/-- A state and operands that meet the hypotheses of `StartRows`, clause 4 (`sysResetAssert_short`). -/
theorem test_StartRows_sysResetAssert_short : ∃ (s : State),
    (s.pins.terpUp = true) ∧ (s.pins.glitchControl ≠ 0xFFFF) :=
  ⟨tOn, by decide⟩

/-- A state and operands that meet the hypotheses of `StartRows`, clause 5 (`sysResetRelease`). -/
theorem test_StartRows_sysResetRelease : ∃ (t : TrayInputs) (s : State) (a b : BundleCopy) (which : Bool) (c : BundleCopy),
    (s.pins.terpUp = true) ∧ (s.fw.started = false) ∧ (s.fw.terpOnly = false) ∧ (s.pwr.tripped = false) ∧ (s.flt.lossHeld = false) ∧ (s.regs.norBusy = none) ∧ (s.recorder.norReady = true) ∧ (t.secOk = true) ∧ (serialOk s = true) ∧ (copyRead s s.fw.copyA t.copyA = a) ∧ (copyRead s s.fw.copyB t.copyB = b) ∧ (firstGood (tryOrder a b) = some (which, c)) ∧ (c.consistent = true) :=
  ⟨tTray, tTerpUp, _, _, false, _, by decide, by decide, by decide, by decide, by decide, by decide, by decide, by decide, by decide, rfl, rfl, rfl, by decide⟩

/-- A state and operands that meet the hypotheses of `StartRows`, clause 6 (`sysResetRelease_terpOnly`). -/
theorem test_StartRows_sysResetRelease_terpOnly : ∃ (t : TrayInputs) (s : State),
    (s.pins.terpUp = true) ∧ (s.fw.started = false) ∧ (s.fw.terpOnly = false) ∧ (s.pwr.tripped = false) ∧ (s.flt.lossHeld = false) ∧ (s.regs.norBusy = none) ∧ (s.recorder.norReady = true) ∧ (t.secOk = true) ∧ (serialOk s = true) ∧ (firstGood (tryOrder (copyRead s s.fw.copyA t.copyA) (copyRead s s.fw.copyB t.copyB)) = none) :=
  ⟨{ tTray with copyA := { tRead with signed := false }, copyB := { tRead with signed := false } }, tTerpUp, by decide⟩

/-- A state and operands that meet the hypotheses of `StartRows`, clause 7 (`startUpStepTimeout`). -/
theorem test_StartRows_startUpStepTimeout : ∃ (step : BitVec 8) (s : State),
    (s.pins.terpUp = true) ∧ (s.fw.started = false) ∧ (s.fw.terpOnly = false) ∧ (s.pwr.tripped = false) ∧ (s.flt.lossHeld = false) ∧ (1 ≤ step.toNat ∧ step.toNat ≤ 6) :=
  ⟨2, tTerpUp, by decide⟩

/-- A state and operands that meet the hypotheses of `StartRows`, clause 8 (`zeroFillComplete`). -/
theorem test_StartRows_zeroFillComplete : ∃ (n : Fin 24) (ok : Bool) (s : State),
    (s.fw.started = true) ∧ (s.tray.ddrPresent.getLsbD n.val = true) ∧ (s.fw.filledDdr.getLsbD n.val = false) ∧ (s.pins.ilOpen = false) ∧ (s.pins.ilFault = false) ∧ (s.res.failedDdr.getLsbD n.val = false) :=
  ⟨0, true, tFilling, by decide⟩

/-- A state and operands that meet the hypotheses of `StartRows`, clause 9 (`deviceNorWriteComplete`). -/
theorem test_StartRows_deviceNorWriteComplete : ∃ (b : Bool) (s : State),
    (s.recorder.erasing = some b) :=
  ⟨false, tErasing, by decide⟩

/-- A state and operands that meet the hypotheses of `StartRows`, clause 11 (`stagedModeEntry`). -/
theorem test_StartRows_stagedModeEntry : ∃ (s : State),
    (s.pins.holdupOk = true) ∧ (s.ftl.qualified = false) :=
  ⟨tNandHeld, by decide⟩

/-- A state and operands that meet the hypotheses of `StartRows`, clause 13 (`powerLossDetect`). -/
theorem test_StartRows_powerLossDetect : ∃ (s : State),
    (s.pins.terpUp = true) ∧ (s.flt.lossHeld = false) :=
  ⟨tOn, by decide⟩

/-- A state and operands that meet the hypotheses of `StartRows`, clause 15 (`activationResumeTimeout`). -/
theorem test_StartRows_activationResumeTimeout : ∃ (s : State) (k : Nat),
    (s.fw.activating = some k) :=
  ⟨tActivating, 1, by decide⟩

/-- A state and operands that meet the hypotheses of `StartRows`, clause 16 (`haltDeferTimeout`). -/
theorem test_StartRows_haltDeferTimeout : ∃ (core : Fin 28) (s : State) (k : Nat),
    (tabFind s.fw.deferred core.val = some (k, true)) :=
  ⟨1, tDeferred, 7, by decide⟩

/-- A state and operands that meet the hypotheses of `StartRows`, clause 17 (`haltDeferTimeout_held`). -/
theorem test_StartRows_haltDeferTimeout_held : ∃ (core : Fin 28) (s : State) (k : Nat),
    (tabFind s.fw.deferred core.val = some (k, false)) :=
  ⟨1, { tDeferred with fw := { tDeferred.fw with deferred := [(1, (7, false))] } }, 7, by decide⟩

/-- A state and operands that meet the hypotheses of `PortRows`, clause 1 (`portEnable`). -/
theorem test_PortRows_portEnable : ∃ (port : Fin 17) (s : State),
    (s.flt.portFailed.getLsbD port.val = false) :=
  ⟨0, tOn, by decide⟩

/-- A state and operands that meet the hypotheses of `PortRows`, clause 2 (`portDisable`). -/
theorem test_PortRows_portDisable : ∃ (port : Fin 17) (s : State),
    ((portAt s port.val).width = 0) ∧ (linkUp (linkAt s port.val 0) = true) :=
  ⟨0, tLink, by decide⟩

/-- A state and operands that meet the hypotheses of `PortRows`, clause 3 (`portWidthWrite`). -/
theorem test_PortRows_portWidthWrite : ∃ (port : Fin 17) (width : BitVec 2) (s : State),
    (width.toNat ≠ 3) ∧ ((s.q.bound.any fun e => decide (e.1 / 16 = port.val)) = false) ∧ (width.toNat ≠ (portAt s port.val).width) :=
  ⟨3, 1, tOn, by decide⟩

/-- A state and operands that meet the hypotheses of `PortRows`, clause 4 (`portWidthWrite_bound`). -/
theorem test_PortRows_portWidthWrite_bound : ∃ (port : Fin 17) (width : BitVec 2) (s : State),
    (width.toNat ≠ 3) ∧ ((s.q.bound.any fun e => decide (e.1 / 16 = port.val)) = true) :=
  ⟨0, 1, tOn, by decide⟩

/-- A state and operands that meet the hypotheses of `PortRows`, clause 5 (`lossOfSignal`). -/
theorem test_PortRows_lossOfSignal : ∃ (port : Fin 17) (lane : Fin 16) (s : State),
    (port.val < 16) ∧ (linkExists s port.val (lane.val / linkLanes (portAt s port.val).width) = true) ∧ (linkUp (linkAt s port.val (lane.val / linkLanes (portAt s port.val).width)) = true) ∧ ((linkAt s port.val (lane.val / linkLanes (portAt s port.val).width)).state ≠ .training) :=
  ⟨0, 3, tLink, by decide⟩

/-- A state and operands that meet the hypotheses of `PortRows`, clause 6 (`laserLow`). -/
theorem test_PortRows_laserLow : ∃ (port : Fin 17) (lane : Fin 16) (s : State),
    (port.val < 16) ∧ (linkExists s port.val (lane.val / linkLanes (portAt s port.val).width) = true) ∧ (linkUp (linkAt s port.val (lane.val / linkLanes (portAt s port.val).width)) = true) ∧ ((linkAt s port.val (lane.val / linkLanes (portAt s port.val).width)).state ≠ .training) :=
  ⟨0, 3, tLink, by decide⟩

/-- A state and operands that meet the hypotheses of `PortRows`, clause 7 (`linkUp`). -/
theorem test_PortRows_linkUp : ∃ (port : Fin 17) (link : Fin 4) (fast : Bool) (width : BitVec 5) (ptm : Bool) (s : State),
    (port.val < 16) ∧ (linkExists s port.val link.val = true) ∧ ((linkAt s port.val link.val).state = .training) ∧ (width.toNat ≠ 0) ∧ (width.toNat = linkLanes (portAt s port.val).width) ∧ ((linkAt s port.val link.val).grace = false) :=
  ⟨0, 0, true, 16, true, tTraining, by decide⟩

/-- A state and operands that meet the hypotheses of `PortRows`, clause 8 (`trainingTimeout`). -/
theorem test_PortRows_trainingTimeout : ∃ (port : Fin 17) (link : Fin 4) (s : State),
    (linkExists s port.val link.val = true) ∧ ((linkAt s port.val link.val).state = .training) ∧ ((linkAt s port.val link.val).retrain = false) :=
  ⟨0, 0, tTraining, by decide⟩

/-- A state and operands that meet the hypotheses of `PortRows`, clause 9 (`trainingSetReceived`). -/
theorem test_PortRows_trainingSetReceived : ∃ (port : Fin 17) (link : Fin 4) (s : State),
    (linkExists s port.val link.val = true) ∧ (portUsable s port.val = true) ∧ ((linkAt s port.val link.val).state = .detached) :=
  ⟨0, 0, tDetached, by decide⟩

/-- A state and operands that meet the hypotheses of `PortRows`, clause 10 (`detachedRetry`). -/
theorem test_PortRows_detachedRetry : ∃ (port : Fin 17) (link : Fin 4) (s : State),
    (linkExists s port.val link.val = true) ∧ (portUsable s port.val = true) ∧ ((linkAt s port.val link.val).state = .detached) :=
  ⟨0, 0, tDetached, by decide⟩

/-- A state and operands that meet the hypotheses of `PortRows`, clause 11 (`hostGraceExpiry`). -/
theorem test_PortRows_hostGraceExpiry : ∃ (port : Fin 17) (link : Fin 4) (s : State),
    (linkExists s port.val link.val = true) ∧ ((linkAt s port.val link.val).grace = true) :=
  ⟨0, 0, tDetached, by decide⟩

/-- A state and operands that meet the hypotheses of `PortRows`, clause 12 (`replayFailure`). -/
theorem test_PortRows_replayFailure : ∃ (port : Fin 17) (link : Fin 4) (s : State),
    (linkExists s port.val link.val = true) ∧ (linkUp (linkAt s port.val link.val) = true) :=
  ⟨0, 0, tLink, by decide⟩

/-- A state and operands that meet the hypotheses of `PortRows`, clause 13 (`hotReset`). -/
theorem test_PortRows_hotReset : ∃ (port : Fin 17) (link : Fin 4) (s : State),
    (linkExists s port.val link.val = true) ∧ (linkUp (linkAt s port.val link.val) = true) :=
  ⟨0, 0, tLink, by decide⟩

/-- A state and operands that meet the hypotheses of `PortRows`, clause 14 (`creditRecoveryTimeout`). -/
theorem test_PortRows_creditRecoveryTimeout : ∃ (port : Fin 17) (link : Fin 4) (s : State),
    (linkExists s port.val link.val = true) ∧ (linkUp (linkAt s port.val link.val) = true) ∧ ((linkAt s port.val link.val).creditStall = true) :=
  ⟨0, 0, tLinkWith { state := .l0, creditStall := true }, by decide⟩

/-- A state and operands that meet the hypotheses of `PortRows`, clause 15 (`functionLevelReset`). -/
theorem test_PortRows_functionLevelReset : ∃ (port : Fin 17) (ld : Fin 16) (s : State) (sl : Sluice),
    (findSluice s (sluiceIx port ld) = some sl) ∧ (s.q.cmds = []) ∧ ((sl.rids.all fun r => r.repeats.isEmpty) = true) :=
  ⟨0, 1, { tOn with q := { sluices := [(1, tSl)], bound := [(1, 7)] } }, tSl, rfl, by decide, by decide⟩

/-- A state and operands that meet the hypotheses of `LinkPowerRows`, clause 1 (`l0pNarrow`). -/
theorem test_LinkPowerRows_l0pNarrow : ∃ (port : Fin 17) (link : Fin 4) (s : State),
    (linkExists s port.val link.val = true) ∧ ((portAt s port.val).l0pEn = true) ∧ ((linkAt s port.val link.val).state = .l0) ∧ (4 < (linkAt s port.val link.val).active) :=
  ⟨0, 0, tLink, by decide⟩

/-- A state and operands that meet the hypotheses of `LinkPowerRows`, clause 2 (`l0pWiden`). -/
theorem test_LinkPowerRows_l0pWiden : ∃ (port : Fin 17) (link : Fin 4) (s : State),
    (linkExists s port.val link.val = true) ∧ ((linkAt s port.val link.val).state = .l0) :=
  ⟨0, 0, tLink, by decide⟩

/-- A state and operands that meet the hypotheses of `LinkPowerRows`, clause 3 (`partnerL0pChange`). -/
theorem test_LinkPowerRows_partnerL0pChange : ∃ (port : Fin 17) (link : Fin 4) (width : BitVec 5) (s : State),
    (linkExists s port.val link.val = true) ∧ ((linkAt s port.val link.val).state = .l0) ∧ (1 ≤ width.toNat ∧ width.toNat ≤ (linkAt s port.val link.val).width) :=
  ⟨0, 0, 8, tLink, by decide⟩

/-- A state and operands that meet the hypotheses of `LinkPowerRows`, clause 4 (`l1IdleTimeout`). -/
theorem test_LinkPowerRows_l1IdleTimeout : ∃ (port : Fin 17) (link : Fin 4) (origin : BitVec 64) (s : State),
    (port.val ≠ 16) ∧ (linkExists s port.val link.val = true) ∧ ((linkAt s port.val link.val).state = .l0) ∧ ((portAt s port.val).l1En = true) ∧ ((linkAt s port.val link.val).ptmOk = true) ∧ ((linkAt s port.val link.val).rdvOk = true) ∧ (s.ident.uncalibrated = false) :=
  ⟨0, 0, 5, { tLinkWith { state := .l0, ptmOk := true, rdvOk := true } with ident := { uncalibrated := false } }, by decide⟩

/-- A state and operands that meet the hypotheses of `LinkPowerRows`, clause 5 (`l1IdleTimeout_16`). -/
theorem test_LinkPowerRows_l1IdleTimeout_16 : ∃ (link : Fin 4) (origin : BitVec 64) (s : State),
    (linkExists s 16 link.val = true) ∧ ((linkAt s 16 link.val).state = .l0) ∧ ((portAt s 16).l1En = true) :=
  ⟨0, 5, { tOn with port := { ports := [(16, { links := [(0, { state := .l0 })] })] } }, by decide⟩

/-- A state and operands that meet the hypotheses of `LinkPowerRows`, clause 6 (`rdvAccept`). -/
theorem test_LinkPowerRows_rdvAccept : ∃ (port : Fin 17) (link : Fin 4) (payload : BitVec 128) (s : State),
    ((linkAt s port.val link.val).offered = true) ∧ (rdvMatches 2 payload = true) :=
  ⟨0, 0, rdvPayload 2 0 0, tLinkWith { state := .l0, offered := true }, by decide⟩

/-- A state and operands that meet the hypotheses of `LinkPowerRows`, clause 7 (`rdvOfferTimeout`). -/
theorem test_LinkPowerRows_rdvOfferTimeout : ∃ (port : Fin 17) (link : Fin 4) (s : State),
    ((linkAt s port.val link.val).offered = true) :=
  ⟨0, 0, tLinkWith { state := .l0, offered := true }, by decide⟩

/-- A state and operands that meet the hypotheses of `LinkPowerRows`, clause 8 (`rdvGridAck`). -/
theorem test_LinkPowerRows_rdvGridAck : ∃ (port : Fin 17) (link : Fin 4) (payload : BitVec 128) (s : State) (o : BitVec 64),
    ((linkAt s port.val link.val).grid = some o) ∧ (rdvMatches 4 payload = true) ∧ (payload.toNat / 2 ^ 64 = o.toNat) :=
  ⟨0, 0, rdvPayload 4 0 5, tLinkWith { state := .l0, grid := some 5 }, 5, by decide⟩

/-- A state and operands that meet the hypotheses of `LinkPowerRows`, clause 9 (`rdvGridTimeout`). -/
theorem test_LinkPowerRows_rdvGridTimeout : ∃ (port : Fin 17) (link : Fin 4) (s : State) (o : BitVec 64),
    ((linkAt s port.val link.val).grid = some o) :=
  ⟨0, 0, tLinkWith { state := .l0, grid := some 5 }, 5, by decide⟩

/-- A state and operands that meet the hypotheses of `LinkPowerRows`, clause 10 (`l1Wake`). -/
theorem test_LinkPowerRows_l1Wake : ∃ (port : Fin 17) (link : Fin 4) (s : State),
    (linkExists s port.val link.val = true) ∧ ((linkAt s port.val link.val).state = .l1) :=
  ⟨0, 0, tLinkWith { state := .l1 }, by decide⟩

/-- A state and operands that meet the hypotheses of `LinkPowerRows`, clause 11 (`l1Wake_late`). -/
theorem test_LinkPowerRows_l1Wake_late : ∃ (port : Fin 17) (link : Fin 4) (s : State),
    (port.val ≠ 16) ∧ (linkExists s port.val link.val = true) ∧ ((linkAt s port.val link.val).state = .l1) :=
  ⟨0, 0, tLinkWith { state := .l1 }, by decide⟩

/-- A state and operands that meet the hypotheses of `LinkPowerRows`, clause 12 (`l1Resync`). -/
theorem test_LinkPowerRows_l1Resync : ∃ (port : Fin 17) (link : Fin 4) (s : State),
    (port.val ≠ 16) ∧ (linkExists s port.val link.val = true) ∧ ((linkAt s port.val link.val).state = .l1) ∧ ((portAt s port.val).l1Resync ≠ 0) :=
  ⟨0, 0, tLinkWith { state := .l1 }, by decide⟩

/-- A state and operands that meet the hypotheses of `LinkPowerRows`, clause 13 (`creditStallTimeout`). -/
theorem test_LinkPowerRows_creditStallTimeout : ∃ (port : Fin 17) (link : Fin 4) (s : State),
    (linkExists s port.val link.val = true) ∧ (linkUp (linkAt s port.val link.val) = true) :=
  ⟨0, 0, tLink, by decide⟩

/-- A state and operands that meet the hypotheses of `LinkPowerRows`, clause 14 (`receiverOverflow`). -/
theorem test_LinkPowerRows_receiverOverflow : ∃ (port : Fin 17) (link : Fin 4) (s : State),
    (linkExists s port.val link.val = true) ∧ (linkUp (linkAt s port.val link.val) = true) :=
  ⟨0, 0, tLink, by decide⟩

/-- A state and operands that meet the hypotheses of `LinkPowerRows`, clause 15 (`flitError`). -/
theorem test_LinkPowerRows_flitError : ∃ (port : Fin 17) (link : Fin 4) (s : State),
    (linkExists s port.val link.val = true) ∧ (linkUp (linkAt s port.val link.val) = true) :=
  ⟨0, 0, tLink, by decide⟩

/-- A state and operands that meet the hypotheses of `LinkPowerRows`, clause 16 (`flitError_replayed`). -/
theorem test_LinkPowerRows_flitError_replayed : ∃ (port : Fin 17) (link : Fin 4) (s : State),
    (linkExists s port.val link.val = true) ∧ (linkUp (linkAt s port.val link.val) = true) :=
  ⟨0, 0, tLink, by decide⟩

/-- A state and operands that meet the hypotheses of `LinkPowerRows`, clause 17 (`ptmNoResponse`). -/
theorem test_LinkPowerRows_ptmNoResponse : ∃ (port : Fin 17) (link : Fin 4) (s : State),
    (linkExists s port.val link.val = true) :=
  ⟨0, 0, tLink, by decide⟩

/-- A state and operands that meet the hypotheses of `PowerRows`, clause 1 (`thermalSample`). -/
theorem test_PowerRows_thermalSample : ∃ (l : List Reading) (s : State),
    (s.pins.terpUp = true) ∧ (s.pwr.tripped = false) ∧ (∀ r ∈ l, sensorFault s r = false ∧ (sensorTemp s r).toNat < s.pwr.warn.toNat ∧ (sensorTemp s r).toNat < 125 ∧
      (sensorTemp s r).toNat < s.pwr.throttle.toNat) ∧ (s.pwr.throttle ≠ 0) :=
  ⟨[⟨3, 64 * 40⟩], tOn, by decide⟩

/-- A state and operands that meet the hypotheses of `PowerRows`, clause 2 (`throttleStep`). -/
theorem test_PowerRows_throttleStep : ∃ (s : State),
    (s.pwr.throttle.toNat ≤ s.pwr.maxC.toNat) :=
  ⟨{ tOn with pwr := { maxC := 110 } }, by decide⟩

/-- A state and operands that meet the hypotheses of `PowerRows`, clause 3 (`throttleStep_up`). -/
theorem test_PowerRows_throttleStep_up : ∃ (s : State),
    (s.pwr.maxC.toNat < s.pwr.throttle.toNat - 5) :=
  ⟨tOn, by decide⟩

/-- A state and operands that meet the hypotheses of `PowerRows`, clause 4 (`hbmCatastrophicTemp`). -/
theorem test_PowerRows_hbmCatastrophicTemp : ∃ (stack : Fin 8) (s : State),
    (s.pins.terpUp = true) ∧ (s.pwr.tripped = false) :=
  ⟨0, tOn, by decide⟩

/-- A state and operands that meet the hypotheses of `PowerRows`, clause 5 (`supplyWarningCrossing`). -/
theorem test_PowerRows_supplyWarningCrossing : ∃ (die : Fin 4) (pct : BitVec 8) (s : State),
    (s.pins.terpUp = true) ∧ (s.pwr.warnNow = false) ∧ (s.pwr.episodes ≠ 0xFFFF) :=
  ⟨1, 90, tOn, by decide⟩

/-- A state and operands that meet the hypotheses of `PowerRows`, clause 6 (`supplyAboveWarning`). -/
theorem test_PowerRows_supplyAboveWarning : ∃ (pct : BitVec 8) (s : State),
    (s.pwr.warnNow = true) :=
  ⟨97, { tOn with pwr := { warnNow := true } }, by decide⟩

/-- A state and operands that meet the hypotheses of `PowerRows`, clause 7 (`restoreWindowExpiry`). -/
theorem test_PowerRows_restoreWindowExpiry : ∃ (s : State),
    (s.pwr.restoring = true) :=
  ⟨{ tOn with pwr := { warnNow := true, restoring := true } }, by decide⟩

/-- A state and operands that meet the hypotheses of `PowerRows`, clause 8 (`supplyResetCrossing`). -/
theorem test_PowerRows_supplyResetCrossing : ∃ (die : Fin 4) (pct : BitVec 8) (s : State),
    (s.pins.terpUp = true) :=
  ⟨0, 80, tOn, by decide⟩

/-- A state and operands that meet the hypotheses of `PowerRows`, clause 9 (`railOutOfWindow`). -/
theorem test_PowerRows_railOutOfWindow : ∃ (m : Fin 16) (s : State),
    (s.pins.terpUp = true) :=
  ⟨0, tOn, by decide⟩

/-- A state and operands that meet the hypotheses of `PowerRows`, clause 10 (`governorSample`). -/
theorem test_PowerRows_governorSample : ∃ (watts : BitVec 16) (s : State),
    (s.fw.started = true) :=
  ⟨700, tOn, by decide⟩

/-- A state and operands that meet the hypotheses of `PowerRows`, clause 11 (`governorStepDown`). -/
theorem test_PowerRows_governorStepDown : ∃ (s : State),
    (pmcAway s = false) ∧ (s.pwr.limit.toNat < s.pwr.avgW.toNat) :=
  ⟨{ tOn with pwr := { avgW := 900 } }, by decide⟩

/-- A state and operands that meet the hypotheses of `PowerRows`, clause 12 (`governorStepUp`). -/
theorem test_PowerRows_governorStepUp : ∃ (s : State),
    (pmcAway s = false) ∧ (s.pwr.avgW.toNat + 20 < s.pwr.limit.toNat) :=
  ⟨tOn, by decide⟩

/-- A state and operands that meet the hypotheses of `PowerRows`, clause 13 (`governorEvacuation`). -/
theorem test_PowerRows_governorEvacuation : ∃ (cl : Fin 16) (s : State),
    (pmcAway s = false) ∧ (s.pwr.limit.toNat < s.pwr.avgW.toNat) ∧ (s.pwr.govStep = 8) ∧ ((clusterOf s cl.val).state = .active) ∧ (isDesignated s cl.val = false) ∧ (cl.val ∉ s.pwr.evacuated) :=
  ⟨1, { tOn with pwr := { avgW := 900, govStep := 8, clusters := [(1, { state := .active })] } }, by decide⟩

/-- A state and operands that meet the hypotheses of `PowerRows`, clause 14 (`evacuationRelease`). -/
theorem test_PowerRows_evacuationRelease : ∃ (s : State),
    (pmcAway s = false) ∧ (s.pwr.avgW.toNat + 20 < s.pwr.limit.toNat) :=
  ⟨{ tOn with pwr := { evacuated := [1] } }, by decide⟩

/-- A state and operands that meet the hypotheses of `ClusterRows`, clause 1 (`clusterIdleTimeout`). -/
theorem test_ClusterRows_clusterIdleTimeout : ∃ (cl : Fin 24) (s : State),
    (cl.val < 16) ∧ (clusterBusy s cl.val = false) ∧ (clusterOf s cl.val = { state := .idle, waking := false, entering := none, flushing := none }) ∧ (2 ≤ stateDepth (allowedState s cl.val)) :=
  ⟨3, tClusterWith 3 { state := .idle }, by decide⟩

/-- A state and operands that meet the hypotheses of `ClusterRows`, clause 2 (`clusterIdleTimeout_crown`). -/
theorem test_ClusterRows_clusterIdleTimeout_crown : ∃ (cl : Fin 24) (s : State),
    (20 ≤ cl.val) ∧ (clusterBusy s cl.val = false) ∧ (clusterOf s cl.val = { state := .idle, waking := false, entering := none, flushing := none }) ∧ (2 ≤ stateDepth (allowedState s cl.val)) :=
  ⟨21, tClusterWith 21 { state := .idle }, by decide⟩

/-- A state and operands that meet the hypotheses of `ClusterRows`, clause 3 (`crownL2FlushComplete`). -/
theorem test_ClusterRows_crownL2FlushComplete : ∃ (k : Fin 4) (s : State) (t : DomainState),
    ((clusterOf s (20 + k.val)).flushing = some t) :=
  ⟨1, tClusterWith 21 { state := .idle, flushing := some .doze }, .doze, by decide⟩

/-- A state and operands that meet the hypotheses of `ClusterRows`, clause 4 (`clusterSleepEntryEnd`). -/
theorem test_ClusterRows_clusterSleepEntryEnd : ∃ (cl : Fin 24) (s : State),
    ((clusterOf s cl.val).entering = some .dark) :=
  ⟨3, tClusterWith 3 { state := .doze, entering := some .dark }, by decide⟩

/-- A state and operands that meet the hypotheses of `ClusterRows`, clause 5 (`clusterWakeComplete`). -/
theorem test_ClusterRows_clusterWakeComplete : ∃ (cl : Fin 24) (s : State),
    ((clusterOf s cl.val).waking = true) ∧ ((clusterOf s cl.val).entering = none) ∧ ((clusterOf s cl.val).waitBeat = false) :=
  ⟨3, tClusterWith 3 { state := .doze, waking := true }, by decide⟩

/-- A state and operands that meet the hypotheses of `ClusterRows`, clause 6 (`startBeat`). -/
theorem test_ClusterRows_startBeat : ∃ (s : State),
    (s.pins.terpUp = true) :=
  ⟨tOn, by decide⟩

/-- A state and operands that meet the hypotheses of `ClusterRows`, clause 7 (`controlDomainDoze`). -/
theorem test_ClusterRows_controlDomainDoze : ∃ (s : State),
    (s.fw.started = true) ∧ (s.q.cmds = []) ∧ (∀ cl < 24, cl < 16 ∨ 20 ≤ cl → (clusterOf s cl).state = .doze ∨ (clusterOf s cl).state = .dark) :=
  ⟨tOn, by decide⟩

/-- A state and operands that meet the hypotheses of `FlashRows`, clause 1 (`flashReadRequest`). -/
theorem test_FlashRows_flashReadRequest : ∃ (serial : Nat) (tpa : BitVec 50) (s : State) (c : Cmd),
    (regionOf tpa.toNat = .flash) ∧ ((polderAt s tpa.toNat).isSome = true) ∧ ((s.q.cmds.find? fun c => c.serial = serial && !c.waiting) = some c) ∧ ((c.issued.any fun e => e.1 = tpa.toNat / 4096) = false) ∧ (c.early.contains (tpa.toNat / 4096) = false) ∧ (spills c = false) :=
  ⟨1, BitVec.ofNat 50 (2 ^ 48 + 8192), tFlashOn, tFlashCmd, by decide, by decide, rfl, by decide, by decide, by decide⟩

/-- A state and operands that meet the hypotheses of `FlashRows`, clause 2 (`flashDieOperationStart`). -/
theorem test_FlashRows_flashDieOperationStart : ∃ (ch : Fin 64) (d : Fin 16) (remaining : Nat) (s : State) (o : DieOp) (x : Die),
    ((dieOf s ch.val d.val).failed = false) ∧ ((dieOf s ch.val d.val).running = none) ∧ (nextOp s ch.val (dieOf s ch.val d.val) = some (o, x)) :=
  ⟨0, 0, 1000, tDieWith { reads := [{ id := 7, kind := .read }] }, { id := 7, kind := .read }, {}, by decide⟩

/-- A state and operands that meet the hypotheses of `FlashRows`, clause 3 (`flashDieOperationStart_suspend`). -/
theorem test_FlashRows_flashDieOperationStart_suspend : ∃ (ch : Fin 64) (d : Fin 16) (remaining : Nat) (s : State) (o r : DieOp) (rest : List DieOp),
    ((dieOf s ch.val d.val).failed = false) ∧ ((dieOf s ch.val d.val).running = some o) ∧ ((dieOf s ch.val d.val).reads = r :: rest) ∧ (o.kind = .erase) ∧ (o.suspends < 8) ∧ (o.urgent = false) :=
  ⟨0, 0, 1000, tDieWith { running := some { id := 0, kind := .erase }, reads := [{ id := 7, kind := .read }] }, { id := 0, kind := .erase }, { id := 7, kind := .read }, [], by decide⟩

/-- A state and operands that meet the hypotheses of `FlashRows`, clause 4 (`flashSenseComplete`). -/
theorem test_FlashRows_flashSenseComplete : ∃ (ch : Fin 64) (d : Fin 16) (level : Fin 8) (s : State) (o : DieOp),
    ((dieOf s ch.val d.val).running = some o) ∧ (o.kind = .read) ∧ (level.val < 3) ∧ (tabGet (dieOf s ch.val d.val).readCount 0 o.block + 1 < 40000) :=
  ⟨0, 0, 1, tDieWith { running := some { id := 7, kind := .read } }, { id := 7, kind := .read }, by decide⟩

/-- A state and operands that meet the hypotheses of `FlashRows`, clause 5 (`flashSenseComplete_lost`). -/
theorem test_FlashRows_flashSenseComplete_lost : ∃ (ch : Fin 64) (d : Fin 16) (s : State) (o : DieOp),
    ((dieOf s ch.val d.val).running = some o) ∧ (o.kind = .read) ∧ (tabGet (dieOf s ch.val d.val).readCount 0 o.block + 1 < 40000) ∧ ((dieOf s ch.val d.val).stripeFails < 2) :=
  ⟨0, 0, tDieWith { running := some { id := 7, kind := .read } }, { id := 7, kind := .read }, by decide⟩

/-- A state and operands that meet the hypotheses of `FlashRows`, clause 6 (`flashReadDeliver`). -/
theorem test_FlashRows_flashReadDeliver : ∃ (serial : Nat) (tpa : BitVec 50) (s : State) (c : Cmd) (g t : Nat),
    (regionOf tpa.toNat = .flash) ∧ (readQueued s tpa.toNat = false) ∧ ((s.tier.spilledReads.any fun e => e.1 = serial && e.2.1 = tpa.toNat / 4096) = false) ∧ ((s.q.cmds.find? fun c => c.serial = serial) = some c) ∧ ((c.issued.find? fun e => e.1 = tpa.toNat / 4096) = some (g, t)) ∧ (t + 1125 ≤ s.time) :=
  ⟨1, BitVec.ofNat 50 (2 ^ 48), { tFlashOn with time := 2000 }, tFlashCmd, 2 ^ 36, 0, by decide, by decide, by decide, rfl, rfl, by decide⟩

/-- A state and operands that meet the hypotheses of `FlashRows`, clause 7 (`flashWriteArrival`). -/
theorem test_FlashRows_flashWriteArrival : ∃ (tile : Nat) (tpa : BitVec 50) (data : List Byte) (poison : Bool) (s : State) (t : Tile),
    (tabFind s.eng.tiles tile = some t) ∧ (t.write = true) ∧ (regionOf tpa.toNat = .flash) ∧ (data ≠ []) ∧ (((linesOf tpa.toNat data.length).all fun l => (t.left.map (·.1)).contains l) = true) ∧ (tpa.toNat / 16384 = (tpa.toNat + data.length - 1) / 16384) ∧ ((nandOf s (channelOf s tpa.toNat)).health = .ok) ∧ ((nandOf s (channelOf s tpa.toNat)).mapLoaded = true) ∧ (((nandOf s (channelOf s tpa.toNat)).writes.all (·.staged)) = true) ∧ (journalRoom (nandOf s (channelOf s tpa.toNat)) data.length = true) ∧ (s.fw.activating = none) :=
  ⟨1, BitVec.ofNat 50 (2 ^ 48), [7], false, { tFlashOn with eng := { tiles := [(1, tFlashTile)] } }, tFlashTile, rfl, by decide, by decide, by decide, by decide, by decide, by decide, by decide, by decide, by decide, by decide⟩

/-- A state and operands that meet the hypotheses of `FlashRows`, clause 8 (`flashProgramComplete`). -/
theorem test_FlashRows_flashProgramComplete : ∃ (ch : Fin 64) (d : Fin 16) (s : State) (o : DieOp) (w : FlashWrite),
    ((dieOf s ch.val d.val).running = some o) ∧ (o.kind = .programSlc) ∧ (((nandOf s ch.val).writes.find? fun w => w.id = o.id) = some w) ∧ (w.programs = 0) :=
  ⟨0, 0, tNandWith { present := true, dies := [(0, { running := some { id := 3, kind := .programSlc } })], writes := [{ id := 3, tpa := 2 ^ 48 }] }, { id := 3, kind := .programSlc }, { id := 3, tpa := 2 ^ 48 }, by decide⟩

/-- A state and operands that meet the hypotheses of `FlashRows`, clause 9 (`flashProgramComplete_failed`). -/
theorem test_FlashRows_flashProgramComplete_failed : ∃ (ch : Fin 64) (d : Fin 16) (s : State) (o : DieOp),
    ((dieOf s ch.val d.val).running = some o) ∧ (o.kind = .programSlc ∨ o.kind = .programQlc) :=
  ⟨0, 0, tDieWith { running := some { id := 3, kind := .programSlc } }, { id := 3, kind := .programSlc }, by decide⟩

/-- A state and operands that meet the hypotheses of `FlashRows`, clause 10 (`flashEraseComplete`). -/
theorem test_FlashRows_flashEraseComplete : ∃ (ch : Fin 64) (d : Fin 16) (s : State) (o : DieOp),
    ((dieOf s ch.val d.val).running = some o) ∧ (o.kind = .erase) ∧ (tabGet (dieOf s ch.val d.val).erases 0 o.block + 1 < ratedCycles) :=
  ⟨0, 0, tDieWith { running := some { id := 0, kind := .erase, block := 5 } }, { id := 0, kind := .erase, block := 5 }, by decide⟩

/-- A state and operands that meet the hypotheses of `FlashRows`, clause 12 (`garbageCollectionStart`). -/
theorem test_FlashRows_garbageCollectionStart : ∃ (ch : Fin 64) (d : Fin 16) (s : State) (b : Nat),
    (channelCoreAway s ch.val = false) ∧ ((dieOf s ch.val d.val).failed = false) ∧ ((nandOf s ch.val).health = .ok) ∧ (((dieOf s ch.val d.val).writes.any fun o => decide (o.kind = .erase)) = false) ∧ (victimBlock (dieOf s ch.val d.val) = some b) :=
  ⟨0, 0, tDieWith { free := 3, used := [9] }, 9, by decide⟩

/-- A state and operands that meet the hypotheses of `FlashRows`, clause 13 (`flashPatrol`). -/
theorem test_FlashRows_flashPatrol : ∃ (ch : Fin 64) (d : Fin 16) (block : BitVec 10) (level : Fin 9) (s : State),
    (channelCoreAway s ch.val = false) ∧ ((nandOf s ch.val).present = true) ∧ ((dieOf s ch.val d.val).failed = false) ∧ (3 ≤ level.val ∧ level.val < 8) :=
  ⟨0, 0, 9, 4, tDieWith {}, by decide⟩

/-- A state and operands that meet the hypotheses of `FlashRows`, clause 14 (`nandDieTimeout`). -/
theorem test_FlashRows_nandDieTimeout : ∃ (ch : Fin 64) (d : Fin 16) (s : State),
    ((nandOf s ch.val).present = true) ∧ ((nandOf s ch.val).dies = []) :=
  ⟨0, 3, tNandWith { present := true }, by decide⟩

/-- A state and operands that meet the hypotheses of `FlashRows`, clause 15 (`mapCheckpoint`). -/
theorem test_FlashRows_mapCheckpoint : ∃ (ch : Fin 64) (segment : Nat) (s : State),
    ((nandOf s ch.val).mapLoaded = true) :=
  ⟨0, 5, tDieWith {}, by decide⟩

/-- A state and operands that meet the hypotheses of `FlashRows`, clause 16 (`mapLoadComplete`). -/
theorem test_FlashRows_mapLoadComplete : ∃ (ch : Fin 64) (reps : List SegmentReplicas) (s : State),
    ((nandOf s ch.val).present = true) ∧ ((nandOf s ch.val).mapLoaded = false) ∧ ((tabFind s.tray.mapHome ch.val).isSome = true) ∧ (∀ r ∈ reps, r.pair = .same ∨ r.pair = .oneIntact) :=
  ⟨0, [⟨0, .same⟩], { tNandWith { present := true } with tray := { mapHome := [(0, 0)] } }, by decide⟩

/-- A state and operands that meet the hypotheses of `SearchRows`, clause 1 (`scanStart`). -/
theorem test_SearchRows_scanStart : ∃ (ch : Fin 64) (s : State) (sc : Scan) (rest : List Scan),
    (channelCoreAway s ch.val = false) ∧ ((tabFind s.srch.running ch.val).isSome = false) ∧ (tabGet s.srch.queued [] ch.val = sc :: rest) :=
  ⟨0, { tOn with srch := { queued := [(0, [{ serial := 1 }])] } }, { serial := 1 }, [], by decide⟩

/-- A state and operands that meet the hypotheses of `SearchRows`, clause 2 (`tauExchange`). -/
theorem test_SearchRows_tauExchange : ∃ (serial : Nat) (ch : Fin 64) (s : State) (x : Cmd × SearchRun × SearchRead × Run),
    (searchOf serial s = some x) ∧ (((tabFind s.srch.running ch.val).any fun v => decide (v.serial = serial)) = true) :=
  ⟨1, 5, tSearch, (searchOf 1 tSearch).get (by decide), by simp, by decide⟩

/-- A state and operands that meet the hypotheses of `SearchRows`, clause 3 (`searchStage3Start`). -/
theorem test_SearchRows_searchStage3Start : ∃ (serial : Nat) (s : State) (c : Cmd) (run : SearchRun),
    (schAway s = false) ∧ ((s.q.cmds.find? fun c => c.serial = serial && decide (c.opcode = 0x88)) = some c) ∧ (tabFind s.srch.runs serial = some run) ∧ (run.open_ = []) ∧ (run.stage3 = false) :=
  ⟨1, tSearchEnd, tSearchCmd, { open_ := [] }, by decide, rfl, rfl, by decide, by decide⟩

/-- A state and operands that meet the hypotheses of `BusRows`, clause 1 (`i3cRegisterWrite`). -/
theorem test_BusRows_i3cRegisterWrite : ∃ (offset : BitVec 16) (data : List Byte) (s : State),
    (s.pins.terpUp = true) ∧ (s.pins.smbus = false) ∧ (transferOk offset.toNat data.length = true) ∧ (data.length ≤ 256) :=
  ⟨0x80, [5, 0, 0, 0], tOn, by decide⟩

/-- A state and operands that meet the hypotheses of `BusRows`, clause 2 (`i3cRegisterRead`). -/
theorem test_BusRows_i3cRegisterRead : ∃ (count : BitVec 8) (s : State),
    (s.pins.terpUp = true) ∧ (s.pins.smbus = false) ∧ (transferOk s.regs.i3cOffset (4 * count.toNat) = true) :=
  ⟨2, tOn, by decide⟩

/-- A state and operands that meet the hypotheses of `BusRows`, clause 3 (`smbusBlockWrite`). -/
theorem test_BusRows_smbusBlockWrite : ∃ (offset : BitVec 16) (data : List Byte) (s : State),
    (s.pins.terpUp = true) ∧ (s.pins.smbus = true) ∧ (transferOk offset.toNat data.length = true) ∧ (4 ≤ data.length ∧ data.length ≤ 252) :=
  ⟨0x80, [5, 0, 0, 0], { tOn with pins := { terpUp := true, smbus := true } }, by decide⟩

/-- A state and operands that meet the hypotheses of `BusRows`, clause 4 (`smbusProcessCall`). -/
theorem test_BusRows_smbusProcessCall : ∃ (offset : BitVec 16) (length : BitVec 8) (s : State),
    (s.pins.terpUp = true) ∧ (s.pins.smbus = true) ∧ (transferOk offset.toNat length.toNat = true) ∧ (4 ≤ length.toNat ∧ length.toNat ≤ 252) :=
  ⟨0, 8, { tOn with pins := { terpUp := true, smbus := true } }, by decide⟩

/-- A state and operands that meet the hypotheses of `BusRows`, clause 6 (`mctpPacket`). -/
theorem test_BusRows_mctpPacket : ∃ (op : BitVec 16) (s : State),
    (s.pins.smbus = false) ∧ (fmAnswers s = true) ∧ (fmApiKnown op.toNat = false) :=
  ⟨0x0002, tOn, by decide⟩

/-- A state and operands that meet the hypotheses of `BusRows`, clause 7 (`bmcBusTimeout`). -/
theorem test_BusRows_bmcBusTimeout : ∃ (s : State),
    (s.pins.terpUp = true) ∧ (s.pins.smbus = true) :=
  ⟨{ tOn with pins := { terpUp := true, smbus := true } }, by decide⟩

/-- A state and operands that meet the hypotheses of `BusRows`, clause 8 (`i3cTargetReset`). -/
theorem test_BusRows_i3cTargetReset : ∃ (s : State),
    (s.pins.terpUp = true) ∧ (s.pins.smbus = false) :=
  ⟨tOn, by decide⟩

/-- A state and operands that meet the hypotheses of `BusRows`, clause 9 (`ibiRetry`). -/
theorem test_BusRows_ibiRetry : ∃ (s : State) (b : BitVec 8),
    (s.regs.ibi = some (b, false)) :=
  ⟨{ tOn with regs := { ibi := some (1, false) } }, 1, by decide⟩

/-- A state and operands that meet the hypotheses of `BusRows`, clause 10 (`ibiRetry_dropped`). -/
theorem test_BusRows_ibiRetry_dropped : ∃ (s : State) (b : BitVec 8),
    (s.regs.ibi = some (b, true)) :=
  ⟨{ tOn with regs := { ibi := some (1, true) } }, 1, by decide⟩

/-- A state and operands that meet the hypotheses of `BusRows`, clause 11 (`i3cCommonCommand`). -/
theorem test_BusRows_i3cCommonCommand : ∃ (a : BitVec 7) (s : State),
    (s.pins.terpUp = true) ∧ (s.pins.smbus = false) :=
  ⟨0x30, tOn, by decide⟩

/-- A state and operands that meet the hypotheses of `BusRows`, clause 12 (`bmcReset`). -/
theorem test_BusRows_bmcReset : ∃ (value : Word) (s : State),
    (s.pins.terpUp = true) ∧ (value.toNat / 2 ^ 16 = 0x0960) ∧ (value.getLsbD 0 = true) :=
  ⟨0x09600001, tOn, by decide⟩

/-- A state and operands that meet the hypotheses of `InterlockAndNorRows`, clause 1 (`interlockSample`). -/
theorem test_InterlockAndNorRows_interlockSample : ∃ (a b : Bool) (s : State),
    (s.pins.terpUp = true) :=
  ⟨true, false, tOn, by decide⟩

/-- A state and operands that meet the hypotheses of `InterlockAndNorRows`, clause 2 (`interlockChannelDebounced`). -/
theorem test_InterlockAndNorRows_interlockChannelDebounced : ∃ (s : State),
    (s.pins.terpUp = true) :=
  ⟨tOn, by decide⟩

/-- A state and operands that meet the hypotheses of `InterlockAndNorRows`, clause 3 (`interlockOpens`). -/
theorem test_InterlockAndNorRows_interlockOpens : ∃ (s : State),
    (s.pins.closedA = false) ∧ (s.pins.closedB = false) ∧ (s.pins.ilOpen = false) :=
  ⟨{ tOn with pins := { terpUp := true, closedA := false, closedB := false } }, by decide⟩

/-- A state and operands that meet the hypotheses of `InterlockAndNorRows`, clause 4 (`interlockDisagreeTimeout`). -/
theorem test_InterlockAndNorRows_interlockDisagreeTimeout : ∃ (s : State),
    (s.pins.disagree = true) ∧ (s.pins.ilFault = false) :=
  ⟨{ tOn with pins := { terpUp := true, closedA := false, disagree := true } }, by decide⟩

/-- A state and operands that meet the hypotheses of `InterlockAndNorRows`, clause 5 (`interlockClear`). -/
theorem test_InterlockAndNorRows_interlockClear : ∃ (s : State),
    (s.pins.terpUp = true) ∧ (s.pins.closedA = true) ∧ (s.pins.closedB = true) :=
  ⟨tOn, by decide⟩

/-- A state and operands that meet the hypotheses of `InterlockAndNorRows`, clause 6 (`interlockClear_open`). -/
theorem test_InterlockAndNorRows_interlockClear_open : ∃ (s : State),
    (s.pins.terpUp = true) ∧ (s.pins.closedB = false) :=
  ⟨{ tOn with pins := { terpUp := true, closedB := false } }, by decide⟩

/-- A state and operands that meet the hypotheses of `InterlockAndNorRows`, clause 7 (`norRead`). -/
theorem test_InterlockAndNorRows_norRead : ∃ (s : State),
    (s.pins.terpUp = true) ∧ (norOpen s = true) ∧ (s.regs.norBusy = none) ∧ (s.regs.norAddr.toNat % 256 = 0) :=
  ⟨tTerpUp, by decide⟩

/-- A state and operands that meet the hypotheses of `InterlockAndNorRows`, clause 8 (`norProgram`). -/
theorem test_InterlockAndNorRows_norProgram : ∃ (s : State),
    (s.pins.terpUp = true) ∧ (norOpen s = true) ∧ (s.regs.norBusy = none) ∧ (s.regs.norAddr.toNat % 256 = 0) ∧ (s.regs.norAddr.toNat < 0x03010000) :=
  ⟨tTerpUp, by decide⟩

/-- A state and operands that meet the hypotheses of `InterlockAndNorRows`, clause 9 (`norErase`). -/
theorem test_InterlockAndNorRows_norErase : ∃ (s : State),
    (s.pins.terpUp = true) ∧ (norOpen s = true) ∧ (s.regs.norBusy = none) ∧ (s.regs.norAddr.toNat % 65536 = 0) ∧ (s.regs.norAddr.toNat < 0x03010000) :=
  ⟨tTerpUp, by decide⟩

/-- A state and operands that meet the hypotheses of `InterlockAndNorRows`, clause 10 (`norDenied`). -/
theorem test_InterlockAndNorRows_norDenied : ∃ (s : State),
    (s.pins.terpUp = true) ∧ (s.regs.norBusy = none) ∧ (norOpen s = false ∨ 0x03010000 ≤ s.regs.norAddr.toNat) :=
  ⟨{ tOn with pins := { terpUp := true, sysResetHigh := true } }, by decide⟩

/-- A state and operands that meet the hypotheses of `InterlockAndNorRows`, clause 11 (`norCommandComplete`). -/
theorem test_InterlockAndNorRows_norCommandComplete : ∃ (s : State) (addr : BitVec 26),
    (s.regs.norBusy = some (1, addr)) :=
  ⟨{ tTerpUp with regs := { norBusy := some (1, 0) } }, 0, by decide⟩

/-- A state and operands that meet the hypotheses of `RegisterRows`, clause 5 (`rcRegisterRead_sluice`). -/
theorem test_RegisterRows_rcRegisterRead_sluice : ∃ (port : Fin 17) (ld : Fin 16) (s : State) (sl : Sluice),
    (findSluice s (sluiceIx port ld) = some sl) :=
  ⟨0, 1, tSluice, tSl, by decide⟩

/-- A state and operands that meet the hypotheses of `RegisterRows`, clause 7 (`terpIrqEnableWrite`). -/
theorem test_RegisterRows_terpIrqEnableWrite : ∃ (value : Word) (s : State),
    (BitVec.ofNat 8 value.toNat &&& s.regs.irqStatus = 0) :=
  ⟨3, tOn, by decide⟩

/-- A state and operands that meet the hypotheses of `RegisterRows`, clause 8 (`registerWrite`). -/
theorem test_RegisterRows_registerWrite : ∃ (v : Word) (s : State),
    (10 ≤ bits v.toNat 13 0 ∧ bits v.toNat 13 0 ≤ 10000) :=
  ⟨500, tOn, by decide⟩

/-- A state and operands that meet the hypotheses of `RegisterRows`, clause 9 (`registerWrite_ignored`). -/
theorem test_RegisterRows_registerWrite_ignored : ∃ (v : Word) (s : State),
    (bits v.toNat 13 0 < 10 ∨ 10000 < bits v.toNat 13 0) :=
  ⟨9, tOn, by decide⟩

/-- A state and operands that meet the hypotheses of `SpdmRows`, clause 1 (`getVersion`). -/
theorem test_SpdmRows_getVersion : ∃ (ep : SpdmEnd) (s : State),
    (secAnswers s = true) ∧ (sessionsAt s ep = []) :=
  ⟨.mctp, tOn, by decide⟩

/-- A state and operands that meet the hypotheses of `SpdmRows`, clause 2 (`getCapabilities`). -/
theorem test_SpdmRows_getCapabilities : ∃ (ep : SpdmEnd) (s : State),
    (secAnswers s = true) ∧ (phaseOf s ep = .version) :=
  ⟨.mctp, setPhase .mctp .version tOn, by decide⟩

/-- A state and operands that meet the hypotheses of `SpdmRows`, clause 3 (`negotiateAlgorithms`). -/
theorem test_SpdmRows_negotiateAlgorithms : ∃ (ep : SpdmEnd) (s : State),
    (secAnswers s = true) ∧ (phaseOf s ep = .capabilities) :=
  ⟨.mctp, setPhase .mctp .capabilities tOn, by decide⟩

/-- A state and operands that meet the hypotheses of `SpdmRows`, clause 4 (`getDigests`). -/
theorem test_SpdmRows_getDigests : ∃ (ep : SpdmEnd) (s : State),
    (secAnswers s = true) ∧ (phaseOf s ep = .negotiated) :=
  ⟨.mctp, setPhase .mctp .negotiated tOn, by decide⟩

/-- A state and operands that meet the hypotheses of `SpdmRows`, clause 5 (`getCertificate`). -/
theorem test_SpdmRows_getCertificate : ∃ (ep : SpdmEnd) (offset length : BitVec 16) (s : State),
    (secAnswers s = true) ∧ (phaseOf s ep = .negotiated) :=
  ⟨.mctp, 0, 16, setPhase .mctp .negotiated tOn, by decide⟩

/-- A state and operands that meet the hypotheses of `SpdmRows`, clause 6 (`challenge`). -/
theorem test_SpdmRows_challenge : ∃ (ep : SpdmEnd) (nonce : BitVec 256) (s : State),
    (secAnswers s = true) ∧ (phaseOf s ep = .negotiated) :=
  ⟨.mctp, 5, setPhase .mctp .negotiated tOn, by decide⟩

/-- A state and operands that meet the hypotheses of `SpdmRows`, clause 7 (`getMeasurements`). -/
theorem test_SpdmRows_getMeasurements : ∃ (ep : SpdmEnd) (index : BitVec 8) (s : State),
    (secAnswers s = true) ∧ (phaseOf s ep = .negotiated) ∧ (index.toNat ≤ 9) :=
  ⟨.mctp, 3, setPhase .mctp .negotiated tOn, by decide⟩

/-- A state and operands that meet the hypotheses of `SpdmRows`, clause 8 (`keyExchange`). -/
theorem test_SpdmRows_keyExchange : ∃ (ep : SpdmEnd) (session : BitVec 32) (s : State),
    (secAnswers s = true) ∧ (phaseOf s ep = .negotiated) ∧ ((sessionsAt s ep).length < sessionLimit ep) ∧ (((sessionsAt s ep).any fun x => x.id = session.toNat) = false) :=
  ⟨.mctp, 1, setPhase .mctp .negotiated tOn, by decide⟩

/-- A state and operands that meet the hypotheses of `SpdmRows`, clause 9 (`finish`). -/
theorem test_SpdmRows_finish : ∃ (ep : SpdmEnd) (session : BitVec 32) (s : State) (x : Session),
    (secAnswers s = true) ∧ (phaseOf s ep = .negotiated) ∧ (((sessionsAt s ep).find? fun x => x.id = session.toNat && !x.established) = some x) :=
  ⟨.mctp, 1, putSessions .mctp [{ id := 1, secret := 0 }] (setPhase .mctp .negotiated tOn), { id := 1, secret := 0 }, by decide⟩

/-- A state and operands that meet the hypotheses of `SpdmRows`, clause 10 (`heartbeat`). -/
theorem test_SpdmRows_heartbeat : ∃ (ep : SpdmEnd) (session : BitVec 32) (s : State) (x : Session),
    (secAnswers s = true) ∧ (liveSession s ep session.toNat = some x) :=
  ⟨.mctp, 1, putSessions .mctp [{ id := 1, secret := 0, established := true }] tOn, { id := 1, secret := 0, established := true }, by decide⟩

/-- A state and operands that meet the hypotheses of `SpdmRows`, clause 11 (`keyUpdate`). -/
theorem test_SpdmRows_keyUpdate : ∃ (ep : SpdmEnd) (session : BitVec 32) (s : State) (x : Session),
    (secAnswers s = true) ∧ (liveSession s ep session.toNat = some x) :=
  ⟨.mctp, 1, putSessions .mctp [{ id := 1, secret := 0, established := true }] tOn, { id := 1, secret := 0, established := true }, by decide⟩

/-- A state and operands that meet the hypotheses of `SpdmRows`, clause 12 (`endSession`). -/
theorem test_SpdmRows_endSession : ∃ (ep : SpdmEnd) (session : BitVec 32) (s : State) (x : Session),
    (secAnswers s = true) ∧ (liveSession s ep session.toNat = some x) :=
  ⟨.mctp, 1, putSessions .mctp [{ id := 1, secret := 0, established := true }] tOn, { id := 1, secret := 0, established := true }, by decide⟩

/-- A state and operands that meet the hypotheses of `SpdmRows`, clause 13 (`spdmSessionTimeout`). -/
theorem test_SpdmRows_spdmSessionTimeout : ∃ (ep : SpdmEnd) (session : BitVec 32) (s : State),
    (((sessionsAt s ep).any fun x => x.id = session.toNat) = true) :=
  ⟨.mctp, 1, putSessions .mctp [{ id := 1, secret := 0, established := true }] tOn, by decide⟩

/-- A state and operands that meet the hypotheses of `IdeRows`, clause 1 (`keyProg`). -/
theorem test_IdeRows_keyProg : ∃ (port : Fin 17) (ld : Fin 16) (stream : BitVec 8) (transmit : Bool) (session : BitVec 32) (s : State) (x : Session),
    (secAnswers s = true) ∧ (liveSession s (.doe port ld) session.toNat = some x) ∧ (streamOf s (streamKey port ld stream) = none) ∧ (streamRoom s (streamKey port ld stream) = true) :=
  ⟨0, 1, 3, true, 1, putSessions (.doe 0 1) [{ id := 1, secret := 0, established := true }] tOn, { id := 1, secret := 0, established := true }, by decide⟩

/-- A state and operands that meet the hypotheses of `IdeRows`, clause 2 (`keyProg_both`). -/
theorem test_IdeRows_keyProg_both : ∃ (session : Nat) (transmit : Bool) (x : IdeStream),
    (x.programmed ||| dirBit transmit = 3) :=
  ⟨1, true, { programmed := 1 }, by decide⟩

/-- A state and operands that meet the hypotheses of `IdeRows`, clause 3 (`kSetGo`). -/
theorem test_IdeRows_kSetGo : ∃ (port : Fin 17) (ld : Fin 16) (stream : BitVec 8) (transmit : Bool) (session : BitVec 32) (s : State) (x : Session) (v : IdeStream),
    (secAnswers s = true) ∧ (liveSession s (.doe port ld) session.toNat = some x) ∧ (streamOf s (streamKey port ld stream) = some v) ∧ (v.state = .keyed) ∧ (v.active ||| dirBit transmit = 3) :=
  ⟨0, 1, 3, true, 1, putStream (streamKey 0 1 3) { state := .keyed, active := 1 } (putSessions (.doe 0 1) [{ id := 1, secret := 0, established := true }] tOn), { id := 1, secret := 0, established := true }, { state := .keyed, active := 1 }, by decide⟩

/-- A state and operands that meet the hypotheses of `IdeRows`, clause 4 (`kSetStop`). -/
theorem test_IdeRows_kSetStop : ∃ (port : Fin 17) (ld : Fin 16) (stream : BitVec 8) (session : BitVec 32) (s : State) (x : Session) (v : IdeStream),
    (secAnswers s = true) ∧ (liveSession s (.doe port ld) session.toNat = some x) ∧ (streamOf s (streamKey port ld stream) = some v) ∧ (v.state = .secure) :=
  ⟨0, 1, 3, 1, putStream (streamKey 0 1 3) { state := .secure, active := 3 } (putSessions (.doe 0 1) [{ id := 1, secret := 0, established := true }] tOn), { id := 1, secret := 0, established := true }, { state := .secure, active := 3 }, by decide⟩

/-- A state and operands that meet the hypotheses of `IdeRows`, clause 5 (`ideIntegrityFailure`). -/
theorem test_IdeRows_ideIntegrityFailure : ∃ (port : Fin 17) (ld : Fin 16) (stream : BitVec 8) (s : State) (v : IdeStream),
    (streamOf s (streamKey port ld stream) = some v) ∧ (v.state = .secure) :=
  ⟨0, 1, 3, putStream (streamKey 0 1 3) { state := .secure, active := 3 } tOn, { state := .secure, active := 3 }, by decide⟩

/-- A state and operands that meet the hypotheses of `FabricRows`, clause 1 (`fmIdentify`). -/
theorem test_FabricRows_fmIdentify : ∃ (m : Bool) (s : State),
    (fmAnswers s = true) :=
  ⟨true, tOn, by decide⟩

/-- A state and operands that meet the hypotheses of `FabricRows`, clause 2 (`getLdInfo`). -/
theorem test_FabricRows_getLdInfo : ∃ (m : Bool) (port : Fin 17) (s : State),
    (fmAnswers s = true) :=
  ⟨true, 0, tOn, by decide⟩

/-- A state and operands that meet the hypotheses of `FabricRows`, clause 3 (`getLdAllocations`). -/
theorem test_FabricRows_getLdAllocations : ∃ (m : Bool) (port : Fin 17) (s : State),
    (fmAnswers s = true) :=
  ⟨true, 0, tOn, by decide⟩

/-- A state and operands that meet the hypotheses of `FabricRows`, clause 4 (`setLdAllocations`). -/
theorem test_FabricRows_setLdAllocations : ∃ (m : Bool) (port : Fin 17) (division : List (BitVec 8)) (s : State),
    (fmAnswers s = true) :=
  ⟨true, 0, [], tOn, by decide⟩

/-- A state and operands that meet the hypotheses of `FabricRows`, clause 5 (`getQosStatus`). -/
theorem test_FabricRows_getQosStatus : ∃ (m : Bool) (port : Fin 17) (ld : Fin 16) (s : State) (hid : Nat),
    (fmAnswers s = true) ∧ (tabFind s.q.bound (port.val * 16 + ld.val) = some hid) :=
  ⟨true, 0, 1, tOn, 7, by decide⟩

/-- A state and operands that meet the hypotheses of `FabricRows`, clause 6 (`fmTunnelItem`). -/
theorem test_FabricRows_fmTunnelItem : ∃ (words : List Word) (s : State),
    (fmAnswers s = true) ∧ (s.fw.started = true) ∧ (intakeShut s ⟨.tunnel, words, []⟩ = false) ∧ (words.length = 16 * hdrEntries words) :=
  ⟨tIdentify, tOn, by decide⟩

/-- A state and operands that meet the hypotheses of `FabricRows`, clause 7 (`bindHid`). -/
theorem test_FabricRows_bindHid : ∃ (m : Bool) (b0 b1 b2 : Byte) (s : State),
    (fmAnswers s = true) ∧ (s.fw.started = true) ∧ (b0.toNat ≤ 16 ∧ b1.toNat ≤ 15) ∧ (tabFind s.q.bound (b0.toNat * 16 + b1.toNat) = none) ∧ (ldOfHid s b2.toNat = none) ∧ (s.q.bound.length < 256) :=
  ⟨true, 2, 3, 9, tOn, by decide⟩

/-- A state and operands that meet the hypotheses of `FabricRows`, clause 8 (`unbindHid`). -/
theorem test_FabricRows_unbindHid : ∃ (m : Bool) (b0 b1 : Byte) (s : State),
    (fmAnswers s = true) ∧ (b0.toNat ≤ 16 ∧ b1.toNat ≤ 15) :=
  ⟨true, 0, 1, tOn, by decide⟩

/-- A state and operands that meet the hypotheses of `FabricRows`, clause 9 (`jtagDbgmbox`). -/
theorem test_FabricRows_jtagDbgmbox : ∃ (words : List Word) (host : List HostByte) (verifies : Bool) (lock : Option (Fin 28 × Nat)) (s : State),
    (s.pins.terpUp = true) ∧ (words.length = 16) ∧ (hdrOpcode words = 0xF0) :=
  ⟨tItem 0xF0 9 [] 1, [], false, none, tOn, by decide⟩

/-- A state and operands that meet the hypotheses of `FabricRows`, clause 10 (`jtagIdfuse`). -/
theorem test_FabricRows_jtagIdfuse : ∃ (s : State),
    (s.pins.terpUp = true) :=
  ⟨tOn, by decide⟩

/-- A state and operands that meet the hypotheses of `FabricRows`, clause 11 (`jtagExtest`). -/
theorem test_FabricRows_jtagExtest : ∃ (s : State),
    (s.pins.terpUp = true) :=
  ⟨tOn, by decide⟩

/-- A state and operands that meet the hypotheses of `AdminRows`, clause 1 (`identify`). -/
theorem test_AdminRows_identify : ∃ (it : Item) (s : State) (c : Cmd),
    (Waits 0x01 it s c) ∧ (field c.words 3 7 0 ≤ 2) ∧ (field c.words 3 7 0 = 2 ∨ field c.words 3 13 8 = 0) ∧ (field c.words 3 7 0 = 2 → srcIsMgmt (dispatchCmd c.serial s) c.src = true ∨
      polderBit (hitOf s (srcHid (dispatchCmd c.serial s) c.src)) (field c.words 3 13 8) = true) ∧ (word64 c.words 4 % 4096 = 0) ∧ (if c.src = .jtag then word64 c.words 4 = 0 else word64 c.words 4 ≠ 0 ∨ hpaCarried c.src (word64 c.words 4) = true) :=
  ⟨⟨.admin 0 1, tItem 1 5 [0, 4096] 1, []⟩, tWait tSluice ⟨.admin 0 1, tItem 1 5 [0, 4096] 1, []⟩, newCmd tSluice ⟨.admin 0 1, tItem 1 5 [0, 4096] 1, []⟩, by unfold Waits; decide⟩

/-- A state and operands that meet the hypotheses of `AdminRows`, clause 2 (`versionHandshake`). -/
theorem test_AdminRows_versionHandshake : ∃ (it : Item) (s : State) (c : Cmd),
    (Waits 0x02 it s c) ∧ (wordAt c.words 4 ≤ wordAt c.words 5) ∧ (versionFits s.fw.running.manifest.ifVersion.toNat (wordAt c.words 3) (wordAt c.words 4) (wordAt c.words 5) = true) :=
  ⟨⟨.admin 0 1, tItem 2 5 [0] 1, []⟩, tWait tSluice ⟨.admin 0 1, tItem 2 5 [0] 1, []⟩, newCmd tSluice ⟨.admin 0 1, tItem 2 5 [0] 1, []⟩, by unfold Waits; decide⟩

/-- A state and operands that meet the hypotheses of `AdminRows`, clause 3 (`versionRefused`). -/
theorem test_AdminRows_versionRefused : ∃ (it : Item) (s : State) (c : Cmd),
    (Waits 0x02 it s c) ∧ (wordAt c.words 4 ≤ wordAt c.words 5) ∧ (versionFits s.fw.running.manifest.ifVersion.toNat (wordAt c.words 3) (wordAt c.words 4) (wordAt c.words 5) = false) :=
  ⟨⟨.admin 0 1, tItem 2 5 [0x70000, 0, 0x80000] 1, []⟩, tWait tSluice ⟨.admin 0 1, tItem 2 5 [0x70000, 0, 0x80000] 1, []⟩, newCmd tSluice ⟨.admin 0 1, tItem 2 5 [0x70000, 0, 0x80000] 1, []⟩, by unfold Waits; decide⟩

/-- A state and operands that meet the hypotheses of `AdminRows`, clause 4 (`qpCreate`). -/
theorem test_AdminRows_qpCreate : ∃ (it : Item) (s : State) (c : Cmd) (ix : Nat) (sl : Sluice),
    (Waits 0x04 it s c) ∧ (srcSluice (dispatchCmd c.serial s) c.src = some ix) ∧ (findSluice s ix = some sl) ∧ (tabFind sl.qps (field c.words 3 23 16) = none) ∧ (ringOk (dispatchCmd c.serial s) ix sl (ringReq c.words) = true) :=
  ⟨⟨.admin 0 1, tItem 4 5 [0x40000, 0x404, 0x1000, 0, 0x2000, 0] 1, []⟩, tWait tSluice ⟨.admin 0 1, tItem 4 5 [0x40000, 0x404, 0x1000, 0, 0x2000, 0] 1, []⟩, newCmd tSluice ⟨.admin 0 1, tItem 4 5 [0x40000, 0x404, 0x1000, 0, 0x2000, 0] 1, []⟩, 1, tSl, by unfold Waits; decide⟩

/-- A state and operands that meet the hypotheses of `AdminRows`, clause 5 (`qpCreateTwice`). -/
theorem test_AdminRows_qpCreateTwice : ∃ (it : Item) (s : State) (c : Cmd) (ix : Nat) (sl : Sluice),
    (Waits 0x04 it s c) ∧ (srcSluice (dispatchCmd c.serial s) c.src = some ix) ∧ (findSluice s ix = some sl) ∧ ((tabFind sl.qps (field c.words 3 23 16)).isSome = true) :=
  ⟨⟨.admin 0 1, tItem 4 5 [0x30000, 0x404, 0x1000, 0, 0x2000, 0] 1, []⟩, tWait tSluice ⟨.admin 0 1, tItem 4 5 [0x30000, 0x404, 0x1000, 0, 0x2000, 0] 1, []⟩, newCmd tSluice ⟨.admin 0 1, tItem 4 5 [0x30000, 0x404, 0x1000, 0, 0x2000, 0] 1, []⟩, 1, tSl, by unfold Waits; decide⟩

/-- A state and operands that meet the hypotheses of `AdminRows`, clause 6 (`qpFlush`). -/
theorem test_AdminRows_qpFlush : ∃ (it : Item) (s : State) (c : Cmd) (ix : Nat),
    (Waits 0x06 it s c) ∧ (srcSluice (dispatchCmd c.serial s) c.src = some ix) ∧ ((getRing (dispatchCmd c.serial s) ix (some (field c.words 3 7 0))).isSome = true) :=
  ⟨⟨.admin 0 1, tItem 6 5 [3] 1, []⟩, tWait tSluice ⟨.admin 0 1, tItem 6 5 [3] 1, []⟩, newCmd tSluice ⟨.admin 0 1, tItem 6 5 [3] 1, []⟩, 1, by unfold Waits; decide⟩

/-- A state and operands that meet the hypotheses of `AdminRows`, clause 7 (`qpDelete`). -/
theorem test_AdminRows_qpDelete : ∃ (it : Item) (s : State) (c : Cmd) (ix : Nat) (r : Machine.Ring),
    (Waits 0x05 it s c) ∧ (srcSluice (dispatchCmd c.serial s) c.src = some ix) ∧ (getRing (dispatchCmd c.serial s) ix (some (field c.words 3 7 0)) = some r) ∧ (r.deleting = none) :=
  ⟨⟨.admin 0 1, tItem 5 5 [3] 1, []⟩, tWait tSluice ⟨.admin 0 1, tItem 5 5 [3] 1, []⟩, newCmd tSluice ⟨.admin 0 1, tItem 5 5 [3] 1, []⟩, 1, tRing, by unfold Waits; decide⟩

/-- A state and operands that meet the hypotheses of `AdminRows`, clause 8 (`deletePair`). -/
theorem test_AdminRows_deletePair : ∃ (c : Cmd) (s : State) (ix : Nat) (r : Machine.Ring),
    (srcSluice s c.src = some ix) ∧ (getRing s ix (some (field c.words 3 7 0)) = some r) ∧ ((s.q.cmds.any fun d => decide (d.src = pairSrc ix (field c.words 3 7 0))) = false) :=
  ⟨newCmd tSluice ⟨.admin 0 1, tItem 5 5 [3] 1, []⟩, tSluice, 1, tRing, by decide⟩

/-- A state and operands that meet the hypotheses of `AdminRows`, clause 9 (`recFreeze`). -/
theorem test_AdminRows_recFreeze : ∃ (it : Item) (s : State) (c : Cmd),
    (Waits 0xE8 it s c) :=
  ⟨⟨.admin 0 1, tItem 0xE8 5 [] 1, []⟩, tWait tSluice ⟨.admin 0 1, tItem 0xE8 5 [] 1, []⟩, newCmd tSluice ⟨.admin 0 1, tItem 0xE8 5 [] 1, []⟩, by unfold Waits; decide⟩

/-- A state and operands that meet the hypotheses of `AdminRows`, clause 10 (`recThaw`). -/
theorem test_AdminRows_recThaw : ∃ (it : Item) (s : State) (c : Cmd),
    (Waits 0xEA it s c) ∧ (s.recorder.frozen = true) :=
  ⟨⟨.admin 0 1, tItem 0xEA 5 [] 1, []⟩, tWait { tSluice with recorder := { frozen := true } } ⟨.admin 0 1, tItem 0xEA 5 [] 1, []⟩, newCmd tSluice ⟨.admin 0 1, tItem 0xEA 5 [] 1, []⟩, by unfold Waits; decide⟩

/-- A state and operands that meet the hypotheses of `AdminRows`, clause 11 (`recThawRunning`). -/
theorem test_AdminRows_recThawRunning : ∃ (it : Item) (s : State) (c : Cmd),
    (Waits 0xEA it s c) ∧ (s.recorder.frozen = false) :=
  ⟨⟨.admin 0 1, tItem 0xEA 5 [] 1, []⟩, tWait tSluice ⟨.admin 0 1, tItem 0xEA 5 [] 1, []⟩, newCmd tSluice ⟨.admin 0 1, tItem 0xEA 5 [] 1, []⟩, by unfold Waits; decide⟩

/-- A state and operands that meet the hypotheses of `AdminRows`, clause 12 (`recRead`). -/
theorem test_AdminRows_recRead : ∃ (it : Item) (s : State) (c : Cmd),
    (Waits 0xE9 it s c) ∧ (1 ≤ wordAt c.words 5) ∧ (wordAt c.words 5 ≤ 65536) ∧ (wordAt c.words 4 + wordAt c.words 5 ≤ (if flag c.words 3 0 then 4096 else 65536)) ∧ (word64 c.words 6 % 32 = 0) ∧ (hpaCarried c.src (word64 c.words 6) = false) :=
  ⟨⟨.admin 0 1, tItem 0xE9 5 [0, 0, 1, 4096] 1, []⟩, tWait tSluice ⟨.admin 0 1, tItem 0xE9 5 [0, 0, 1, 4096] 1, []⟩, newCmd tSluice ⟨.admin 0 1, tItem 0xE9 5 [0, 0, 1, 4096] 1, []⟩, by unfold Waits; decide⟩

/-- A state and operands that meet the hypotheses of `PolderRows`, clause 1 (`polderCreate`). -/
theorem test_PolderRows_polderCreate : ∃ (it : Item) (s : State) (c : Cmd) (q : PolderReq) (p : Polder),
    (Waits 0x10 it s c) ∧ (q = polderReq c.words) ∧ ((polderOf s q.number).state = .absent) ∧ (q.ranges % 64 = 0) ∧ (q.ranges ≠ 0 ∨ hpaCarried c.src q.ranges = true) ∧ (slicesFree s q = true) ∧ ((q.pools ||| q.cores) = q.cores) ∧ (q.ddr ≠ 0 ∨ q.nand ≠ 0 ∨ q.hbm ≠ 0 ∨ q.rows ≠ 0) ∧ (q.rowCache ≤ popcount 53 q.rows) ∧ (axisMask (reservedAxes q.modes ++ illegalAxes q.modes q.ddr q.hbm q.quarters) = 0) ∧ (buildPolder s q = some p) :=
  ⟨⟨.admin 0 1, tCreateWords, []⟩, tCreating, newCmd tSluice ⟨.admin 0 1, tCreateWords, []⟩, polderReq tCreateWords, (buildPolder tCreating (polderReq tCreateWords)).getD {}, by unfold Waits; decide, rfl, by decide, by decide, by decide, by decide, by decide, by decide, by decide, by decide, by decide⟩

/-- A state and operands that meet the hypotheses of `PolderRows`, clause 2 (`polderCreateIllegal`). -/
theorem test_PolderRows_polderCreateIllegal : ∃ (it : Item) (s : State) (c : Cmd) (q : PolderReq),
    (Waits 0x10 it s c) ∧ (q = polderReq c.words) ∧ ((polderOf s q.number).state = .absent) ∧ (q.ranges % 64 = 0) ∧ (q.ranges ≠ 0 ∨ hpaCarried c.src q.ranges = true) ∧ (slicesFree s q = true) ∧ ((q.pools ||| q.cores) = q.cores) ∧ (q.ddr ≠ 0 ∨ q.nand ≠ 0 ∨ q.hbm ≠ 0 ∨ q.rows ≠ 0) ∧ (q.rowCache ≤ popcount 53 q.rows) ∧ (axisMask (reservedAxes q.modes ++ illegalAxes q.modes q.ddr q.hbm q.quarters) ≠ 0) :=
  ⟨⟨.admin 0 1, tCreateBad, []⟩, tCreatingBad, newCmd tSluice ⟨.admin 0 1, tCreateBad, []⟩, polderReq tCreateBad, by unfold Waits; decide, rfl, by decide, by decide, by decide, by decide, by decide, by decide, by decide, by decide⟩

/-- A state and operands that meet the hypotheses of `PolderRows`, clause 3 (`polderModeSet`). -/
theorem test_PolderRows_polderModeSet : ∃ (it : Item) (s : State) (c : Cmd) (n : Nat) (p : Polder),
    (Waits 0x11 it s c) ∧ (n = field c.words 3 5 0) ∧ (p = polderOf s n) ∧ (p.state ≠ .absent) ∧ (field c.words 5 8 0 = 0 ∨ (p.state ≠ .draining ∧ p.state ≠ .scrubbing)) ∧ (modeRefusal s n c.words = 0) :=
  ⟨⟨.admin 0 1, tModeWords, []⟩, tWait tModeLive ⟨.admin 0 1, tModeWords, []⟩, newCmd tModeLive ⟨.admin 0 1, tModeWords, []⟩, 0, polderOf tModeLive 0, by unfold Waits; decide, by decide, rfl, by decide, by decide, by decide⟩

/-- A state and operands that meet the hypotheses of `PolderRows`, clause 4 (`polderModeRefused`). -/
theorem test_PolderRows_polderModeRefused : ∃ (it : Item) (s : State) (c : Cmd),
    (Waits 0x11 it s c) ∧ ((polderOf s (field c.words 3 5 0)).state = .live) ∧ (modeRefusal s (field c.words 3 5 0) c.words ≠ 0) :=
  ⟨⟨.admin 0 1, tItem 0x11 5 [0, 0x40000000, 1] 1, []⟩, tWait tModeLive ⟨.admin 0 1, tItem 0x11 5 [0, 0x40000000, 1] 1, []⟩, newCmd tModeLive ⟨.admin 0 1, tItem 0x11 5 [0, 0x40000000, 1] 1, []⟩, by unfold Waits; decide, by decide, by decide⟩

/-- A state and operands that meet the hypotheses of `PolderRows`, clause 5 (`polderDrain`). -/
theorem test_PolderRows_polderDrain : ∃ (it : Item) (s : State) (c : Cmd),
    (Waits 0x12 it s c) ∧ ((polderOf s (field c.words 3 5 0)).state = .live) ∧ (field c.words 3 9 8 ≤ 1) :=
  ⟨⟨.admin 0 1, tItem 0x12 5 [0] 1, []⟩, tWait tLive ⟨.admin 0 1, tItem 0x12 5 [0] 1, []⟩, newCmd tLive ⟨.admin 0 1, tItem 0x12 5 [0] 1, []⟩, by unfold Waits; decide, by decide, by decide⟩

/-- A state and operands that meet the hypotheses of `PolderRows`, clause 6 (`polderScrub`). -/
theorem test_PolderRows_polderScrub : ∃ (it : Item) (s : State) (c : Cmd),
    (Waits 0x12 it s c) ∧ ((polderOf s (field c.words 3 5 0)).state = .drained) ∧ (field c.words 3 9 8 = 1) :=
  ⟨⟨.admin 0 1, tItem 0x12 5 [256] 1, []⟩, tWait (tPolderIn .drained) ⟨.admin 0 1, tItem 0x12 5 [256] 1, []⟩, newCmd tLive ⟨.admin 0 1, tItem 0x12 5 [256] 1, []⟩, by unfold Waits; decide, by decide, by decide⟩

/-- A state and operands that meet the hypotheses of `PolderRows`, clause 7 (`polderReopen`). -/
theorem test_PolderRows_polderReopen : ∃ (it : Item) (s : State) (c : Cmd) (p : Polder),
    (Waits 0x12 it s c) ∧ (p = polderOf s (field c.words 3 5 0)) ∧ (p.state = .drained) ∧ (field c.words 3 9 8 = 2) ∧ ((p.realign && isReproducible p.modes) = false) :=
  ⟨⟨.admin 0 1, tItem 0x12 5 [512] 1, []⟩, tWait (tPolderIn .drained) ⟨.admin 0 1, tItem 0x12 5 [512] 1, []⟩, newCmd tLive ⟨.admin 0 1, tItem 0x12 5 [512] 1, []⟩, polderOf (tPolderIn .drained) 0, by unfold Waits; decide, rfl, by decide, by decide, by decide⟩

/-- A state and operands that meet the hypotheses of `PolderRows`, clause 8 (`polderDrainHeld`). -/
theorem test_PolderRows_polderDrainHeld : ∃ (it : Item) (s : State) (c : Cmd),
    (Waits 0x12 it s c) ∧ ((polderOf s (field c.words 3 5 0)).state = .draining ∨ (polderOf s (field c.words 3 5 0)).state = .scrubbing) :=
  ⟨⟨.admin 0 1, tItem 0x12 5 [512] 1, []⟩, tWait (tPolderIn .draining) ⟨.admin 0 1, tItem 0x12 5 [512] 1, []⟩, newCmd tLive ⟨.admin 0 1, tItem 0x12 5 [512] 1, []⟩, by unfold Waits; decide, by decide⟩

/-- A state and operands that meet the hypotheses of `TenantRows`, clause 1 (`hitWrite`). -/
theorem test_TenantRows_hitWrite : ∃ (it : Item) (s : State) (c : Cmd) (hid : Nat) (t : State),
    (Waits 0x14 it s c) ∧ (hid = field c.words 3 7 0) ∧ (field c.words 4 7 0 = hid) ∧ (flag c.words 4 8 = true →
      hitOk s (BitVec.ofNat 64 (word64 c.words 6)) ((List.range 16).map fun i => hitRangeAt c.words 4 i) = true) ∧ ((hitOf s hid).sweeping = false) ∧ ((s.polders.all fun e => decide (e.2.state ≠ .draining ∧ e.2.state ≠ .scrubbing)) = true) ∧ (t = setHit hid { hitOf s hid with
        valid := flag c.words 4 8, admin := flag c.words 4 10, dead := (hitOf s hid).dead && !flag c.words 4 8
        mask := BitVec.ofNat 64 (word64 c.words 6), ranges := (List.range 16).map fun i => hitRangeAt c.words 4 i } (dispatchCmd c.serial s)) :=
  ⟨⟨.admin 0 1, tItem 0x14 5 [8, 0x108] 3, []⟩, tWait tLive ⟨.admin 0 1, tItem 0x14 5 [8, 0x108] 3, []⟩, newCmd tLive ⟨.admin 0 1, tItem 0x14 5 [8, 0x108] 3, []⟩, 8, _, by unfold Waits; decide, by decide, by decide, by decide, by decide, by decide, rfl⟩

/-- A state and operands that meet the hypotheses of `TenantRows`, clause 2 (`hitRead`). -/
theorem test_TenantRows_hitRead : ∃ (it : Item) (s : State) (c : Cmd),
    (Waits 0x15 it s c) ∧ (word64 c.words 4 % 64 = 0) :=
  ⟨⟨.admin 0 1, tItem 0x15 5 [7, 4096] 1, []⟩, tWait tLive ⟨.admin 0 1, tItem 0x15 5 [7, 4096] 1, []⟩, newCmd tLive ⟨.admin 0 1, tItem 0x15 5 [7, 4096] 1, []⟩, by unfold Waits; decide, by decide⟩

/-- A state and operands that meet the hypotheses of `TenantRows`, clause 3 (`tenantCreate`). -/
theorem test_TenantRows_tenantCreate : ∃ (it : Item) (s : State) (c : Cmd) (ix : Nat),
    (Waits 0x18 it s c) ∧ ((tcxOf s (hdrTcx c.words)).state = .free) ∧ ((polderOf s (field c.words 3 5 0)).state = .live) ∧ (srcSluice (dispatchCmd c.serial s) c.src = some ix) :=
  ⟨⟨.admin 0 1, tItem 0x10018 5 [0] 1, []⟩, tWait tLive ⟨.admin 0 1, tItem 0x10018 5 [0] 1, []⟩, newCmd tLive ⟨.admin 0 1, tItem 0x10018 5 [0] 1, []⟩, 1, by unfold Waits; decide, by decide, by decide, by decide⟩

/-- A state and operands that meet the hypotheses of `TenantRows`, clause 4 (`tenantReset`). -/
theorem test_TenantRows_tenantReset : ∃ (it : Item) (s : State) (c : Cmd),
    (Waits 0x19 it s c) ∧ ((tcxOf s c.tcx).state ≠ .free) ∧ ((tcxOf s c.tcx).state ≠ .resetting) ∧ ((polderOf s (tcxOf s c.tcx).polder).state ≠ .draining) :=
  ⟨⟨.admin 0 1, tItem 0x19 5 [0] 1, []⟩, tWait tLive ⟨.admin 0 1, tItem 0x19 5 [0] 1, []⟩, newCmd tLive ⟨.admin 0 1, tItem 0x19 5 [0] 1, []⟩, by unfold Waits; decide, by decide, by decide, by decide⟩

/-- A state and operands that meet the hypotheses of `TenantRows`, clause 5 (`tenantResetJoined`). -/
theorem test_TenantRows_tenantResetJoined : ∃ (it : Item) (s : State) (c : Cmd),
    (Waits 0x19 it s c) ∧ ((tcxOf s c.tcx).state = .resetting) ∧ ((polderOf s (tcxOf s c.tcx).polder).state = .draining) :=
  ⟨⟨.admin 0 1, tItem 0x19 5 [0] 1, []⟩, tWait tDrainReset ⟨.admin 0 1, tItem 0x19 5 [0] 1, []⟩, newCmd tLive ⟨.admin 0 1, tItem 0x19 5 [0] 1, []⟩, by unfold Waits; decide, by decide, by decide⟩

/-- A state and operands that meet the hypotheses of `TenantRows`, clause 6 (`policerSet`). -/
theorem test_TenantRows_policerSet : ∃ (it : Item) (s : State) (c : Cmd) (n : Nat) (p : Policer),
    (Waits 0x1C it s c) ∧ (flag c.words 3 12 = true ∨ (tcxHeld s c.tcx = false ∧ field c.words 3 7 0 = 0)) ∧ (flag c.words 3 31 = true) ∧ (1 ≤ wordAt c.words 4 ∧ wordAt c.words 4 ≤ wordAt c.words 5 ∧ wordAt c.words 5 ≤ 819200) ∧ (1 ≤ wordAt c.words 6 ∧ wordAt c.words 6 ≤ wordAt c.words 7 ∧ wordAt c.words 7 ≤ 65536) ∧ (n = if flag c.words 3 12 then 4096 + field c.words 3 7 0 else c.tcx) ∧ (p = { enable := true, cir := wordAt c.words 4, pir := wordAt c.words 5, cbs := wordAt c.words 6 * 1024, pbs := wordAt c.words 7 * 1024, tc := wordAt c.words 6 * 1024000, tp := wordAt c.words 7 * 1024000, last := s.time }) :=
  ⟨⟨.admin 0 1, tPolicerWords, []⟩, tWait tLive ⟨.admin 0 1, tPolicerWords, []⟩, newCmd tLive ⟨.admin 0 1, tPolicerWords, []⟩, 0, _, by unfold Waits; decide, by decide, by decide, by decide, by decide, by decide, rfl⟩

/-- A state and operands that meet the hypotheses of `SegmentRows`, clause 1 (`segWrite`). -/
theorem test_SegmentRows_segWrite : ∃ (it : Item) (s : State) (c : Cmd) (seg : Nat) (new : Segment) (g : List Nat) (t : State),
    (Waits 0x20 it s c) ∧ (seg = field c.words 3 3 0) ∧ (new = segFromWords c.words 4 ((segOf s c.tcx seg).gen + 1)) ∧ (g = if new.valid && !isOpenMode (polderOf s (tcxOf s c.tcx).polder).modes && decide (regionOf (segStart new) ≠ .host) then granulesIn (segStart new) (segBytes new) else []) ∧ (tcxHeld s c.tcx = false) ∧ ((tcxOf s c.tcx).state ≠ .free) ∧ ((tcxOf s c.tcx).state = .bound → new.valid = false) ∧ (new.valid = true → segOk s c.tcx seg new = true) ∧ (flag c.words 3 4 = true ∨ field c.words 3 31 16 = (segOf s c.tcx seg).gen.toNat) ∧ (∀ a ∈ g, bindingOf s a = .unbound ∨ bindingOf s a = .bound c.tcx new.keySlot.toNat) ∧ (t = dropSegCopies c.tcx seg (setSeg c.tcx seg new (bindGranules c.tcx new.keySlot.toNat g (dispatchCmd c.serial s)))) :=
  ⟨⟨.admin 0 1, tSegWords, []⟩, tWait tLive ⟨.admin 0 1, tSegWords, []⟩, newCmd tLive ⟨.admin 0 1, tSegWords, []⟩, 0, segFromWords tSegWords 4 1, [], _, by unfold Waits; decide, by decide, by decide, by decide, by decide, by decide, by decide, by decide, by decide, by decide, rfl⟩

/-- A state and operands that meet the hypotheses of `SegmentRows`, clause 2 (`segWriteStale`). -/
theorem test_SegmentRows_segWriteStale : ∃ (it : Item) (s : State) (c : Cmd) (seg : Nat),
    (Waits 0x20 it s c) ∧ (seg = field c.words 3 3 0) ∧ (tcxHeld s c.tcx = false) ∧ ((tcxOf s c.tcx).state ≠ .free) ∧ ((tcxOf s c.tcx).state = .bound → flag c.words 4 31 = false) ∧ (flag c.words 4 31 = true → segOk s c.tcx seg (segFromWords c.words 4 ((segOf s c.tcx seg).gen + 1)) = true) ∧ (flag c.words 3 4 = false) ∧ (field c.words 3 31 16 ≠ (segOf s c.tcx seg).gen.toNat) :=
  ⟨⟨.admin 0 1, tSegStale, []⟩, tWait tLive ⟨.admin 0 1, tSegStale, []⟩, newCmd tLive ⟨.admin 0 1, tSegStale, []⟩, 0, by unfold Waits; decide, by decide, by decide, by decide, by decide, by decide, by decide, by decide⟩

/-- A state and operands that meet the hypotheses of `SegmentRows`, clause 3 (`segSync`). -/
theorem test_SegmentRows_segSync : ∃ (it : Item) (s : State) (c : Cmd),
    (Waits 0x21 it s c) ∧ (tcxHeld s c.tcx = false) ∧ ((tcxOf s c.tcx).state = .live ∨ (tcxOf s c.tcx).state = .frozen) ∧ (∀ n < 16, segCheck (segOf s c.tcx n) = wordAt c.words (4 + n)) :=
  ⟨⟨.admin 0 1, tSyncWords, []⟩, tWait tLive ⟨.admin 0 1, tSyncWords, []⟩, newCmd tLive ⟨.admin 0 1, tSyncWords, []⟩, tSync_waits, by decide, by decide, tSync_checks⟩

/-- A state and operands that meet the hypotheses of `SegmentRows`, clause 4 (`segSyncDiverged`). -/
theorem test_SegmentRows_segSyncDiverged : ∃ (it : Item) (s : State) (c : Cmd) (diff : Nat),
    (Waits 0x21 it s c) ∧ (tcxHeld s c.tcx = false) ∧ ((tcxOf s c.tcx).state = .live ∨ (tcxOf s c.tcx).state = .frozen) ∧ (diff = (((List.range 16).filter fun n => segCheck (segOf s c.tcx n) ≠ wordAt c.words (4 + n)).map fun n => 2 ^ n).sum) ∧ (∃ n < 16, segCheck (segOf s c.tcx n) ≠ wordAt c.words (4 + n)) :=
  ⟨⟨.admin 0 1, tSyncWords, []⟩, tWait tMapped ⟨.admin 0 1, tSyncWords, []⟩, newCmd tMapped ⟨.admin 0 1, tSyncWords, []⟩, _, tSync_waits', by decide, by decide, rfl, tSync_differs⟩

/-- A state and operands that meet the hypotheses of `SegmentRows`, clause 5 (`digestSetup`). -/
theorem test_SegmentRows_digestSetup : ∃ (it : Item) (s : State) (c : Cmd) (r : Run),
    (Waits 0xAC it s c) ∧ (flag c.words 3 31 = true) ∧ (word64 c.words 4 % 4096 = 0) ∧ (16 ≤ wordAt c.words 6 ∧ wordAt c.words 6 ≤ 65536) ∧ (popcount 17 (wordAt c.words 6) = 1) ∧ (r = checkWhole (word64 c.words 4) (160 * wordAt c.words 6) .write 0x3 (fun _ => false) (runOf (started s c) (dispatchCmd c.serial s))) ∧ (r.stopped = false) :=
  ⟨⟨.data 0 1 3, tDigestWords, []⟩, tWait tMapped ⟨.data 0 1 3, tDigestWords, []⟩, newCmd tMapped ⟨.data 0 1 3, tDigestWords, []⟩, _, by unfold Waits; decide, by decide, by decide, by decide, by decide, rfl, by decide⟩

/-- A state and operands that meet the hypotheses of `SegmentRows`, clause 6 (`digestOff`). -/
theorem test_SegmentRows_digestOff : ∃ (it : Item) (s : State) (c : Cmd),
    (Waits 0xAC it s c) ∧ (flag c.words 3 31 = false) :=
  ⟨⟨.data 0 1 3, tItem 0xAC 5 [] 1, []⟩, tWait tMapped ⟨.data 0 1 3, tItem 0xAC 5 [] 1, []⟩, newCmd tMapped ⟨.data 0 1 3, tItem 0xAC 5 [] 1, []⟩, by unfold Waits; decide, by decide⟩

/-- A state and operands that meet the hypotheses of `KeyRows`, clause 1 (`keyGenerate`). -/
theorem test_KeyRows_keyGenerate : ∃ (it : Item) (s : State) (c : Cmd) (slot : Nat) (id : BitVec 64) (o : Bool),
    (Waits 0x28 it s c) ∧ (field c.words 3 7 4 = 0) ∧ (slot = field c.words 3 1 0) ∧ (id = Config.drawnKeyId s.free) ∧ (o = decide (s.dbg.lock = .open_)) ∧ (tcxHeld s c.tcx = false) ∧ ((tcxOf s c.tcx).state ≠ .free) ∧ (isOpenMode (polderOf s (tcxOf s c.tcx).polder).modes = false) ∧ (keyFields c.words = true) ∧ (tabFind (tcxOf s c.tcx).keys slot = none) :=
  ⟨⟨.admin 0 1, tKeyWords 0, []⟩, tWait tEnc ⟨.admin 0 1, tKeyWords 0, []⟩, newCmd tEnc ⟨.admin 0 1, tKeyWords 0, []⟩, 0, _, _, by unfold Waits; decide, by decide, by decide, rfl, rfl, by decide, by decide, by decide, by decide, by decide⟩

/-- A state and operands that meet the hypotheses of `KeyRows`, clause 2 (`keyWrapped`). -/
theorem test_KeyRows_keyWrapped : ∃ (it : Item) (s : State) (c : Cmd) (slot : Nat),
    (Waits 0x28 it s c) ∧ (field c.words 3 7 4 = 1) ∧ (slot = field c.words 3 1 0) ∧ (tcxHeld s c.tcx = false) ∧ ((tcxOf s c.tcx).state ≠ .free) ∧ (isOpenMode (polderOf s (tcxOf s c.tcx).polder).modes = false) ∧ (keyFields c.words = true) ∧ (tabFind (tcxOf s c.tcx).keys slot = none) :=
  ⟨⟨.admin 0 1, tKeyWords 16, []⟩, tWait tEnc ⟨.admin 0 1, tKeyWords 16, []⟩, newCmd tEnc ⟨.admin 0 1, tKeyWords 16, []⟩, 0, by unfold Waits; decide, by decide, by decide, by decide, by decide, by decide, by decide, by decide⟩

/-- A state and operands that meet the hypotheses of `KeyRows`, clause 3 (`keyBlob`). -/
theorem test_KeyRows_keyBlob : ∃ (it : Item) (s : State) (c : Cmd) (slot : Nat) (o : Bool),
    (Waits 0x28 it s c) ∧ (field c.words 3 7 4 = 2) ∧ (slot = field c.words 3 1 0) ∧ (o = decide (s.dbg.lock = .open_)) ∧ (tcxHeld s c.tcx = false) ∧ ((tcxOf s c.tcx).state ≠ .free) ∧ (isOpenMode (polderOf s (tcxOf s c.tcx).polder).modes = false) ∧ (keyFields c.words = true) ∧ (tabFind (tcxOf s c.tcx).keys slot = none) :=
  ⟨⟨.admin 0 1, tKeyWords 32, []⟩, tWait tEnc ⟨.admin 0 1, tKeyWords 32, []⟩, newCmd tEnc ⟨.admin 0 1, tKeyWords 32, []⟩, 0, _, by unfold Waits; decide, by decide, by decide, rfl, by decide, by decide, by decide, by decide, by decide⟩

/-- A state and operands that meet the hypotheses of `KeyRows`, clause 4 (`keyDestroy`). -/
theorem test_KeyRows_keyDestroy : ∃ (it : Item) (s : State) (c : Cmd) (slot : Nat),
    (Waits 0x28 it s c) ∧ (field c.words 3 7 4 = 3) ∧ (slot = field c.words 3 1 0) ∧ (tcxHeld s c.tcx = false) ∧ ((tcxOf s c.tcx).state ≠ .free) ∧ (isOpenMode (polderOf s (tcxOf s c.tcx).polder).modes = false) ∧ (keyFields c.words = true) ∧ ((tabFind (tcxOf s c.tcx).keys slot).isSome = true) ∧ (keySlotUsed s c.tcx slot = false) :=
  ⟨⟨.admin 0 1, tKeyWords 48, []⟩, tWait tEncKey ⟨.admin 0 1, tKeyWords 48, []⟩, newCmd tEnc ⟨.admin 0 1, tKeyWords 48, []⟩, 0, by unfold Waits; decide, by decide, by decide, by decide, by decide, by decide, by decide, by decide, by decide⟩

/-- A state and operands that meet the hypotheses of `KeyRows`, clause 5 (`keyHeld`). -/
theorem test_KeyRows_keyHeld : ∃ (it : Item) (s : State) (c : Cmd),
    (Waits 0x28 it s c) ∧ (tcxHeld s c.tcx = true) :=
  ⟨⟨.admin 0 1, tKeyWords 0, []⟩, tWait tDrainReset ⟨.admin 0 1, tKeyWords 0, []⟩, newCmd tDrainReset ⟨.admin 0 1, tKeyWords 0, []⟩, by unfold Waits; decide, by decide⟩

/-- A state and operands that meet the hypotheses of `FirmwareRows`, clause 1 (`fwStage`). -/
theorem test_FirmwareRows_fwStage : ∃ (it : Item) (bundle : BundleRead) (s : State) (c : Cmd),
    (Waits 0xE0 it s c) ∧ (65536 ≤ wordAt c.words 6 ∧ wordAt c.words 6 ≤ 25165824) ∧ (word64 c.words 4 % 4096 = 0) ∧ ((s.q.cmds.any fun d => decide (d.opcode = 0xE0 ∧ d.serial ≠ c.serial ∧ 1 ≤ d.phase)) = false) ∧ (s.fw.activating = none) ∧ ((hpaBytes (dispatchCmd c.serial s) c).isSome = true) ∧ (bundle.signed = true) ∧ (bundle.consistent = true) ∧ (s.ident.minSvn.toNat ≤ bundle.svn.toNat) ∧ (norTaken (dispatchCmd c.serial s) c = false) :=
  ⟨⟨.admin 0 1, tStageWords, tHostAt 65536⟩, tRead, tWait tSluice ⟨.admin 0 1, tStageWords, tHostAt 65536⟩, newCmd tSluice ⟨.admin 0 1, tStageWords, tHostAt 65536⟩, tStage_waits, by decide, by decide, rfl, rfl, tStage_bytes, rfl, rfl, by decide, rfl⟩

/-- A state and operands that meet the hypotheses of `FirmwareRows`, clause 2 (`fwStageRefused`). -/
theorem test_FirmwareRows_fwStageRefused : ∃ (it : Item) (bundle : BundleRead) (s : State) (c : Cmd),
    (Waits 0xE0 it s c) ∧ (65536 ≤ wordAt c.words 6 ∧ wordAt c.words 6 ≤ 25165824) ∧ (word64 c.words 4 % 4096 = 0) ∧ ((s.q.cmds.any fun d => decide (d.opcode = 0xE0 ∧ d.serial ≠ c.serial ∧ 1 ≤ d.phase)) = false) ∧ (s.fw.activating = none) ∧ (hpaBytes (dispatchCmd c.serial s) c = none ∨ bundle.signed = false ∨ bundle.svn.toNat < s.ident.minSvn.toNat ∨ bundle.consistent = false) :=
  ⟨⟨.admin 0 1, tStageWords, []⟩, { tRead with signed := false }, tWait tSluice ⟨.admin 0 1, tStageWords, []⟩, newCmd tSluice ⟨.admin 0 1, tStageWords, []⟩, by unfold Waits; decide, by decide, by decide, rfl, rfl, Or.inr (Or.inl rfl)⟩

/-- A state and operands that meet the hypotheses of `FirmwareRows`, clause 3 (`fwActivate`). -/
theorem test_FirmwareRows_fwActivate : ∃ (it : Item) (s : State) (c : Cmd) (b : BundleCopy),
    (Waits 0xE1 it s c) ∧ (s.fw.staging = some b) ∧ (s.fw.staged = true) ∧ (b.manifest.handoffMin ≤ s.fw.running.manifest.handoff ∧ s.fw.running.manifest.handoff ≤ b.manifest.handoffMax) :=
  ⟨⟨.admin 0 1, tItem 0xE1 5 [] 1, []⟩, tWait tStaged ⟨.admin 0 1, tItem 0xE1 5 [] 1, []⟩, newCmd tStaged ⟨.admin 0 1, tItem 0xE1 5 [] 1, []⟩, {}, by unfold Waits; decide, by decide, by decide, by decide⟩

/-- A state and operands that meet the hypotheses of `FirmwareRows`, clause 4 (`fwRollBack`). -/
theorem test_FirmwareRows_fwRollBack : ∃ (it : Item) (digestsOk sectionsOk resumed : Bool) (s : State) (c : Cmd) (b : BundleCopy),
    (Waits 0xE1 it s c) ∧ (s.fw.staging = some b) ∧ (s.fw.staged = true) ∧ (b.manifest.handoffMin ≤ s.fw.running.manifest.handoff ∧ s.fw.running.manifest.handoff ≤ b.manifest.handoffMax) ∧ ((digestsOk && sectionsOk) = false) :=
  ⟨⟨.admin 0 1, tItem 0xE1 5 [] 1, []⟩, false, true, true, tWait tStaged ⟨.admin 0 1, tItem 0xE1 5 [] 1, []⟩, newCmd tStaged ⟨.admin 0 1, tItem 0xE1 5 [] 1, []⟩, {}, by unfold Waits; decide, by decide, by decide, by decide, by decide⟩

/-- A state and operands that meet the hypotheses of `FirmwareRows`, clause 5 (`fwHold`). -/
theorem test_FirmwareRows_fwHold : ∃ (it : Item) (s : State) (c : Cmd) (b : BundleCopy),
    (Waits 0xE1 it s c) ∧ (s.fw.staging = some b) ∧ (s.fw.staged = true) ∧ (b.manifest.handoffMin ≤ s.fw.running.manifest.handoff ∧ s.fw.running.manifest.handoff ≤ b.manifest.handoffMax) :=
  ⟨⟨.admin 0 1, tItem 0xE1 5 [] 1, []⟩, tWait tStaged ⟨.admin 0 1, tItem 0xE1 5 [] 1, []⟩, newCmd tStaged ⟨.admin 0 1, tItem 0xE1 5 [] 1, []⟩, {}, by unfold Waits; decide, by decide, by decide, by decide⟩

/-- A state and operands that meet the hypotheses of `FirmwareRows`, clause 6 (`fwNothing`). -/
theorem test_FirmwareRows_fwNothing : ∃ (it : Item) (digestsOk sectionsOk resumed : Bool) (s : State) (c : Cmd),
    (Waits 0xE1 it s c) ∧ (s.fw.staging = none) :=
  ⟨⟨.admin 0 1, tItem 0xE1 5 [] 1, []⟩, true, true, true, tWait tSluice ⟨.admin 0 1, tItem 0xE1 5 [] 1, []⟩, newCmd tSluice ⟨.admin 0 1, tItem 0xE1 5 [] 1, []⟩, by unfold Waits; decide, by decide⟩

/-- A state and operands that meet the hypotheses of `FirmwareRows`, clause 7 (`calExport`). -/
theorem test_FirmwareRows_calExport : ∃ (it : Item) (s : State) (c : Cmd),
    (Waits 0x30 it s c) ∧ (8192 ≤ wordAt c.words 6 ∧ wordAt c.words 6 ≤ 65536) ∧ (word64 c.words 4 % 4096 = 0) ∧ (norTaken (dispatchCmd c.serial s) c = false) :=
  ⟨⟨.admin 0 1, tItem 0x30 5 [0, 0, 1, 8192] 1, []⟩, tWait tSluice ⟨.admin 0 1, tItem 0x30 5 [0, 0, 1, 8192] 1, []⟩, newCmd tSluice ⟨.admin 0 1, tItem 0x30 5 [0, 0, 1, 8192] 1, []⟩, by unfold Waits; decide, by decide, by decide, rfl⟩

/-- A state and operands that meet the hypotheses of `FirmwareRows`, clause 8 (`calImport`). -/
theorem test_FirmwareRows_calImport : ∃ (it : Item) (s : State) (c : Cmd) (l : List Byte),
    (Waits 0x31 it s c) ∧ (4096 ≤ wordAt c.words 6 ∧ wordAt c.words 6 ≤ 65536) ∧ (word64 c.words 4 % 4096 = 0) ∧ (norTaken (dispatchCmd c.serial s) c = false) ∧ (hpaBytes (dispatchCmd c.serial s) c = some l) ∧ (calOk s.ident.serial l = true) :=
  ⟨⟨.admin 0 1, tCalWords, tHostOf 0 tCalSet⟩, tWait tCalOn ⟨.admin 0 1, tCalWords, tHostOf 0 tCalSet⟩, newCmd tCalOn ⟨.admin 0 1, tCalWords, tHostOf 0 tCalSet⟩, tCalSet, tCal_waits, by decide, by decide, rfl, tCal_bytes, tCal_ok⟩

/-- A state and operands that meet the hypotheses of `FirmwareRows`, clause 9 (`calImportRefused`). -/
theorem test_FirmwareRows_calImportRefused : ∃ (it : Item) (s : State) (c : Cmd) (l : List Byte),
    (Waits 0x31 it s c) ∧ (4096 ≤ wordAt c.words 6 ∧ wordAt c.words 6 ≤ 65536) ∧ (word64 c.words 4 % 4096 = 0) ∧ (norTaken (dispatchCmd c.serial s) c = false) ∧ (hpaBytes (dispatchCmd c.serial s) c = some l) ∧ (calOk s.ident.serial l = false) :=
  ⟨⟨.admin 0 1, tItem 0x31 5 [0, 0, 0, 4096] 1, tHostAt 4096⟩, tWait tSluice ⟨.admin 0 1, tItem 0x31 5 [0, 0, 0, 4096] 1, tHostAt 4096⟩, newCmd tSluice ⟨.admin 0 1, tItem 0x31 5 [0, 0, 0, 4096] 1, tHostAt 4096⟩, List.replicate 4096 0, tImport_waits, by decide, by decide, rfl, tImport_bytes, tCal_bad _ _ (by rw [List.length_replicate]; decide)⟩

/-- A state and operands that meet the hypotheses of `CopyCommands`, clause 1 (`copyAsync`). -/
theorem test_CopyCommands_copyAsync : ∃ (it : Item) (s : State) (c : Cmd) (q : CopyReq) (d : State) (ix : Nat),
    (Waits 0x40 it s c) ∧ (q = copyReq c) ∧ (d = dispatchCmd c.serial s) ∧ (srcSluice d c.src = some ix) ∧ (q.cntMode ≠ 3 ∧ (q.push = true → q.src = 0) ∧ (q.push = false → q.slot = 0)) ∧ (if flag c.words 3 12 then (tcxOf s q.dstTcx).state = .live ∧ polderBit (hitOf s (srcHid d c.src)) (tcxOf s q.dstTcx).polder = true ∧ adminOf d c.src (tcxOf s q.dstTcx).polder = true else field c.words 3 11 0 = 0) ∧ (1 ≤ q.length ∧ q.length ≤ 2 ^ 40 ∧ q.src + q.length ≤ 2 ^ 52 ∧ q.dst + q.length ≤ 2 ^ 52) ∧ (q.push = false → rangesOverlap (mappedRanges d c.tcx q.src q.length) (mappedRanges d q.dstTcx q.dst q.length) = false) ∧ (q.push = true → slotTaken d ix q.slot = false) ∧ (((copiesRunning d).filter fun x => x.tcx = c.tcx).length < 32) ∧ (((copiesRunning d).filter fun x => copyDie d x = copyDie d c).length < 256) :=
  ⟨⟨.data 0 1 3, tCopyGo, []⟩, tWait tMapped ⟨.data 0 1 3, tCopyGo, []⟩, newCmd tMapped ⟨.data 0 1 3, tCopyGo, []⟩, copyReq (newCmd tMapped ⟨.data 0 1 3, tCopyGo, []⟩), dispatchCmd 1 (tWait tMapped ⟨.data 0 1 3, tCopyGo, []⟩), 1, by unfold Waits; decide, rfl, by decide, by decide, by decide, by decide, by decide, by decide, by decide, by decide, by decide⟩

/-- A state and operands that meet the hypotheses of `CopyCommands`, clause 2 (`copyHeld`). -/
theorem test_CopyCommands_copyHeld : ∃ (it : Item) (s : State) (c : Cmd) (q : CopyReq) (d : State) (ix : Nat),
    (Waits 0x40 it s c) ∧ (q = copyReq c) ∧ (d = dispatchCmd c.serial s) ∧ (srcSluice d c.src = some ix) ∧ (q.cntMode ≠ 3 ∧ q.push = true ∧ q.src = 0) ∧ (flag c.words 3 12 = false) ∧ (field c.words 3 11 0 = 0) ∧ (1 ≤ q.length ∧ q.length ≤ 2 ^ 40 ∧ q.src + q.length ≤ 2 ^ 52 ∧ q.dst + q.length ≤ 2 ^ 52) ∧ (slotTaken d ix q.slot = true) :=
  ⟨⟨.data 0 1 3, tPushGo, []⟩, tWait tSlots ⟨.data 0 1 3, tPushGo, []⟩, newCmd tSlots ⟨.data 0 1 3, tPushGo, []⟩, copyReq (newCmd tSlots ⟨.data 0 1 3, tPushGo, []⟩), dispatchCmd 1 (tWait tSlots ⟨.data 0 1 3, tPushGo, []⟩), 1, by unfold Waits; decide, rfl, by decide, by decide, by decide, by decide, by decide, by decide, by decide⟩

/-- A state and operands that meet the hypotheses of `CopyCommands`, clause 3 (`counterSet`). -/
theorem test_CopyCommands_counterSet : ∃ (it : Item) (s : State) (c : Cmd),
    (Waits 0x42 it s c) ∧ (field c.words 3 31 28 = 1) ∧ (field c.words 6 23 0 = 0) ∧ (flag c.words 8 31 = true → word64 c.words 7 % 8 = 0) :=
  ⟨⟨.data 0 1 3, tItem 0x42 5 [0x10000002, 7] 1, []⟩, tWait tMapped ⟨.data 0 1 3, tItem 0x42 5 [0x10000002, 7] 1, []⟩, newCmd tMapped ⟨.data 0 1 3, tItem 0x42 5 [0x10000002, 7] 1, []⟩, by unfold Waits; decide, by decide, by decide, by decide⟩

/-- A state and operands that meet the hypotheses of `CopyCommands`, clause 4 (`counterReached`). -/
theorem test_CopyCommands_counterReached : ∃ (it : Item) (s : State) (c : Cmd),
    (Waits 0x42 it s c) ∧ (field c.words 3 31 28 = 0) ∧ (field c.words 6 23 0 ≤ 10000000) ∧ (flag c.words 8 31 = true → word64 c.words 7 % 8 = 0) ∧ (word64 c.words 4 ≤ counterOf s c.tcx (field c.words 3 3 0)) :=
  ⟨⟨.data 0 1 3, tItem 0x42 5 [0, 0] 1, []⟩, tWait tMapped ⟨.data 0 1 3, tItem 0x42 5 [0, 0] 1, []⟩, newCmd tMapped ⟨.data 0 1 3, tItem 0x42 5 [0, 0] 1, []⟩, by unfold Waits; decide, by decide, by decide, by decide, by decide⟩

/-- A state and operands that meet the hypotheses of `CopyCommands`, clause 5 (`counterWaits`). -/
theorem test_CopyCommands_counterWaits : ∃ (it : Item) (s : State) (c : Cmd),
    (Waits 0x42 it s c) ∧ (field c.words 3 31 28 = 0) ∧ (field c.words 6 23 0 ≤ 10000000) ∧ (flag c.words 8 31 = true → word64 c.words 7 % 8 = 0) ∧ (counterOf s c.tcx (field c.words 3 3 0) < word64 c.words 4) ∧ (((waitsPending (dispatchCmd c.serial s)).filter fun d => d.tcx = c.tcx).length < 64) ∧ ((waitsPending (dispatchCmd c.serial s)).length < 4096) :=
  ⟨⟨.data 0 1 3, tItem 0x42 5 [0, 9] 1, []⟩, tWait tMapped ⟨.data 0 1 3, tItem 0x42 5 [0, 9] 1, []⟩, newCmd tMapped ⟨.data 0 1 3, tItem 0x42 5 [0, 9] 1, []⟩, by unfold Waits; decide, by decide, by decide, by decide, by decide, by decide, by decide⟩

/-- A state and operands that meet the hypotheses of `CopyCommands`, clause 6 (`abort`). -/
theorem test_CopyCommands_abort : ∃ (it : Item) (s : State) (c d : Cmd) (ix : Nat) (src : Src) (t : State),
    (Waits 0x43 it s c) ∧ (flag c.words 3 31 = true → field c.words 3 23 16 = 0) ∧ (srcSluice (dispatchCmd c.serial s) c.src = some ix) ∧ (src = if flag c.words 3 31 then .admin (Fin.ofNat 17 (ix / 16)) (Fin.ofNat 16 (ix % 16)) else pairSrc ix (field c.words 3 23 16)) ∧ (t = fetchToTail src ix (if flag c.words 3 31 then none else some (field c.words 3 23 16)) c.host (dispatchCmd c.serial s)) ∧ ((t.q.cmds.find? fun x => decide (x.src = src ∧ x.cid = field c.words 3 15 0)) = some d) ∧ (unabortable d = false) ∧ (pastDecision d = false) :=
  ⟨⟨.admin 0 1, tItem 0x43 5 [0x30000] 1, []⟩, tAborting, newCmd tCopy ⟨.admin 0 1, tItem 0x43 5 [0x30000] 1, []⟩, tCopyCmd, 1, .data 0 1 3, _, by unfold Waits; decide, by decide, by decide, by decide, rfl, by decide, by decide, by decide⟩

/-- A state and operands that meet the hypotheses of `CopyCommands`, clause 7 (`abortDone`). -/
theorem test_CopyCommands_abortDone : ∃ (it : Item) (s : State) (c : Cmd) (ix : Nat) (src : Src) (t : State),
    (Waits 0x43 it s c) ∧ (flag c.words 3 31 = true → field c.words 3 23 16 = 0) ∧ (srcSluice (dispatchCmd c.serial s) c.src = some ix) ∧ (src = if flag c.words 3 31 then .admin (Fin.ofNat 17 (ix / 16)) (Fin.ofNat 16 (ix % 16)) else pairSrc ix (field c.words 3 23 16)) ∧ (t = fetchToTail src ix (if flag c.words 3 31 then none else some (field c.words 3 23 16)) c.host (dispatchCmd c.serial s)) ∧ (∀ x, (t.q.cmds.find? fun x => decide (x.src = src ∧ x.cid = field c.words 3 15 0)) = some x →
      unabortable x = false ∧ pastDecision x = true) :=
  ⟨⟨.admin 0 1, tItem 0x43 5 [0x30008] 1, []⟩, tWait tLive ⟨.admin 0 1, tItem 0x43 5 [0x30008] 1, []⟩, newCmd tLive ⟨.admin 0 1, tItem 0x43 5 [0x30008] 1, []⟩, 1, .data 0 1 3, _, by unfold Waits; decide, by decide, by decide, by decide, rfl, by intro x h; cases h⟩

/-- A state and operands that meet the hypotheses of `CopyCommands`, clause 8 (`fence`). -/
theorem test_CopyCommands_fence : ∃ (it : Item) (s : State) (c : Cmd),
    (Waits 0x41 it s c) :=
  ⟨⟨.data 0 1 3, tFence, []⟩, tWait tLive ⟨.data 0 1 3, tFence, []⟩, newCmd tLive ⟨.data 0 1 3, tFence, []⟩, by unfold Waits; decide⟩

/-- A state and operands that meet the hypotheses of `CopyCommands`, clause 9 (`atomic`). -/
theorem test_CopyCommands_atomic : ∃ (it : Item) (s : State) (c : Cmd) (b : Nat) (n tpa : Nat),
    (Waits 0x44 it s c) ∧ (b = if field c.words 3 1 0 = 2 then 4 else 8) ∧ (2 ≤ field c.words 3 1 0) ∧ (1 ≤ field c.words 3 7 4 ∧ field c.words 3 7 4 ≤ 4) ∧ (word64 c.words 4 % b = 0) ∧ (word64 c.words 6 < 2 ^ (8 * b) ∧ word64 c.words 8 < 2 ^ (8 * b)) ∧ (field c.words 3 7 4 ≠ 2 → word64 c.words 8 = 0) ∧ (checkByte s c.tcx (word64 c.words 4) .atomic = .at n tpa) ∧ (writesLocked s tpa = false) :=
  ⟨⟨.data 0 1 3, tItem 0x44 5 [0x12, 0, 0, 5] 1, []⟩, tWait tMapped ⟨.data 0 1 3, tItem 0x44 5 [0x12, 0, 0, 5] 1, []⟩, newCmd tMapped ⟨.data 0 1 3, tItem 0x44 5 [0x12, 0, 0, 5] 1, []⟩, 4, 0, 0, by unfold Waits; decide, by decide, by decide, by decide, by decide, by decide, by decide, by decide, by decide⟩

/-- A state and operands that meet the hypotheses of `CopyCommands`, clause 10 (`fetchAdd`). -/
theorem test_CopyCommands_fetchAdd : ∃ (it : Item) (s : State) (c : Cmd) (b : Nat) (n tpa : Nat),
    (Waits 0x44 it s c) ∧ (b = if field c.words 3 1 0 = 2 then 4 else 8) ∧ (2 ≤ field c.words 3 1 0) ∧ (field c.words 3 7 4 = 0) ∧ (word64 c.words 4 % b = 0) ∧ (word64 c.words 6 < 2 ^ (8 * b)) ∧ (word64 c.words 8 = 0) ∧ (checkByte s c.tcx (word64 c.words 4) .atomic = .at n tpa) ∧ (writesLocked s tpa = false) :=
  ⟨⟨.data 0 1 3, tItem 0x44 5 [2, 0, 0, 5] 1, []⟩, tWait tMapped ⟨.data 0 1 3, tItem 0x44 5 [2, 0, 0, 5] 1, []⟩, newCmd tMapped ⟨.data 0 1 3, tItem 0x44 5 [2, 0, 0, 5] 1, []⟩, 4, 0, 0, by unfold Waits; decide, by decide, by decide, by decide, by decide, by decide, by decide, by decide, by decide⟩

/-- A state and operands that meet the hypotheses of `CopyCommands`, clause 11 (`atomicUnmapped`). -/
theorem test_CopyCommands_atomicUnmapped : ∃ (it : Item) (s : State) (c : Cmd) (b : Nat),
    (Waits 0x44 it s c) ∧ (b = if field c.words 3 1 0 = 2 then 4 else 8) ∧ (2 ≤ field c.words 3 1 0) ∧ (field c.words 3 7 4 ≤ 4) ∧ (word64 c.words 4 % b = 0) ∧ (word64 c.words 6 < 2 ^ (8 * b) ∧ word64 c.words 8 < 2 ^ (8 * b)) ∧ (field c.words 3 7 4 ≠ 2 → word64 c.words 8 = 0) ∧ (checkByte s c.tcx (word64 c.words 4) .atomic = .unmapped) :=
  ⟨⟨.data 0 1 3, tItem 0x44 5 [2, 0, 0, 5] 1, []⟩, tWait tLive ⟨.data 0 1 3, tItem 0x44 5 [2, 0, 0, 5] 1, []⟩, newCmd tLive ⟨.data 0 1 3, tItem 0x44 5 [2, 0, 0, 5] 1, []⟩, 4, by unfold Waits; decide, by decide, by decide, by decide, by decide, by decide, by decide, by decide⟩

/-- A state and operands that meet the hypotheses of `StatisticsRows`, clause 1 (`resilStats`). -/
theorem test_StatisticsRows_resilStats : ∃ (it : Item) (s : State) (c : Cmd),
    (Waits 0x45 it s c) :=
  ⟨⟨.data 0 1 3, tItem 0x45 5 [] 1, []⟩, tWait tMapped ⟨.data 0 1 3, tItem 0x45 5 [] 1, []⟩, newCmd tMapped ⟨.data 0 1 3, tItem 0x45 5 [] 1, []⟩, by unfold Waits; decide⟩

/-- A state and operands that meet the hypotheses of `StatisticsRows`, clause 2 (`copyStats`). -/
theorem test_StatisticsRows_copyStats : ∃ (it : Item) (s : State) (c : Cmd),
    (Waits 0x47 it s c) ∧ (dvaClear c.words 4 = true) :=
  ⟨⟨.data 0 1 3, tItem 0x47 5 [] 1, []⟩, tWait tMapped ⟨.data 0 1 3, tItem 0x47 5 [] 1, []⟩, newCmd tMapped ⟨.data 0 1 3, tItem 0x47 5 [] 1, []⟩, by unfold Waits; decide, by decide⟩

/-- A state and operands that meet the hypotheses of `StatisticsRows`, clause 3 (`tierStats`). -/
theorem test_StatisticsRows_tierStats : ∃ (it : Item) (s : State) (c : Cmd),
    (Waits 0x4C it s c) :=
  ⟨⟨.data 0 1 3, tItem 0x4C 5 [] 1, []⟩, tWait tMapped ⟨.data 0 1 3, tItem 0x4C 5 [] 1, []⟩, newCmd tMapped ⟨.data 0 1 3, tItem 0x4C 5 [] 1, []⟩, by unfold Waits; decide⟩

/-- A state and operands that meet the hypotheses of `StatisticsRows`, clause 4 (`lookupStats`). -/
theorem test_StatisticsRows_lookupStats : ∃ (it : Item) (s : State) (c : Cmd),
    (Waits 0x52 it s c) :=
  ⟨⟨.data 0 1 3, tItem 0x52 5 [] 1, []⟩, tWait tMapped ⟨.data 0 1 3, tItem 0x52 5 [] 1, []⟩, newCmd tMapped ⟨.data 0 1 3, tItem 0x52 5 [] 1, []⟩, by unfold Waits; decide⟩

/-- A state and operands that meet the hypotheses of `StatisticsRows`, clause 5 (`statsRun`). -/
theorem test_StatisticsRows_statsRun : ∃ (c : Cmd) (block : List Byte) (clear : Polder → Polder) (s : State) (r : Run),
    (r = writeRange (word64 c.words 4) (cleanBytes block)
      (checkWhole (word64 c.words 4) block.length .write 0x3 (fun _ => false) (runOf c s))) :=
  ⟨newCmd tMapped ⟨.data 0 1 3, tItem 0x52 5 [] 1, []⟩, [1], id, tMapped, _, rfl⟩

/-- A state and operands that meet the hypotheses of `StatisticsRows`, clause 6 (`weirStats`). -/
theorem test_StatisticsRows_weirStats : ∃ (it : Item) (s : State) (c : Cmd) (r : Run),
    (Waits 0x46 it s c) ∧ (dvaClear c.words 4 = true) ∧ (flag c.words 3 1 = false) ∧ (r = writeRange (word64 c.words 4) (cleanBytes (weirBlock s c.tcx))
      (checkWhole (word64 c.words 4) 96 .write 0x3 (fun _ => false) (runOf (started s c) (dispatchCmd c.serial s)))) ∧ (r.stopped = false) :=
  ⟨⟨.data 0 1 3, tItem 0x46 5 [] 1, []⟩, tWait tMapped ⟨.data 0 1 3, tItem 0x46 5 [] 1, []⟩, newCmd tMapped ⟨.data 0 1 3, tItem 0x46 5 [] 1, []⟩, _, by unfold Waits; decide, by decide, by decide, rfl, by decide⟩

/-- A state and operands that meet the hypotheses of `StatisticsRows`, clause 7 (`weirStop`). -/
theorem test_StatisticsRows_weirStop : ∃ (it : Item) (s : State) (c : Cmd),
    (Waits 0x46 it s c) ∧ (dvaClear c.words 4 = true) ∧ (flag c.words 3 1 = true) ∧ (field c.words 3 31 16 = 0) :=
  ⟨⟨.data 0 1 3, tItem 0x46 5 [2] 1, []⟩, tWait tMapped ⟨.data 0 1 3, tItem 0x46 5 [2] 1, []⟩, newCmd tMapped ⟨.data 0 1 3, tItem 0x46 5 [2] 1, []⟩, by unfold Waits; decide, by decide, by decide, by decide⟩

/-- A state and operands that meet the hypotheses of `TableCommands`, clause 1 (`tableDefine`). -/
theorem test_TableCommands_tableDefine : ∃ (it : Item) (s : State) (c : Cmd) (fmt width stride : Nat) (v : Version),
    (Waits 0x50 it s c) ∧ (field c.words 3 31 28 = 0) ∧ (fmt = field c.words 3 15 12) ∧ (width = field c.words 4 10 0) ∧ (stride = field c.words 4 31 22) ∧ (v = versionBlock c.words 1) ∧ (tabFind s.tbl.tables (tableKey c.tcx (field c.words 3 21 16)) = none) ∧ (s.tbl.tables.length < 8192) ∧ (fmt ≤ 5 ∧ 4 ≤ width ∧ width ≤ 1024 ∧ 1 ≤ stride ∧ stride ≤ 512 ∧ rowBytes fmt width ≤ stride * 8) ∧ (rowsFit v stride = true) ∧ (versionOk s c.tcx fmt width v = true) :=
  ⟨⟨.data 0 1 3, tDefine, []⟩, tWait tMapped ⟨.data 0 1 3, tDefine, []⟩, newCmd tMapped ⟨.data 0 1 3, tDefine, []⟩, 0, 4, 2, _, by unfold Waits; decide, by decide, by decide, by decide, by decide, rfl, by decide, by decide, by decide, by decide, by decide⟩

/-- A state and operands that meet the hypotheses of `TableCommands`, clause 2 (`tableDestroy`). -/
theorem test_TableCommands_tableDestroy : ∃ (it : Item) (s : State) (c : Cmd) (key : Nat) (t : Table),
    (Waits 0x50 it s c) ∧ (key = tableKey c.tcx (field c.words 3 21 16)) ∧ (field c.words 3 31 28 = 1) ∧ (field c.words 3 15 12 = 0) ∧ (((c.words.drop 4).all fun w => decide (w = 0)) = true) ∧ (tabFind s.tbl.tables key = some t) ∧ (t.destroying = none) :=
  ⟨⟨.data 0 1 3, tItem 0x50 5 [0x10000000] 1, []⟩, tWait tTabled ⟨.data 0 1 3, tItem 0x50 5 [0x10000000] 1, []⟩, newCmd tTabled ⟨.data 0 1 3, tItem 0x50 5 [0x10000000] 1, []⟩, 0, tTable, by unfold Waits; decide, by decide, by decide, by decide, by decide, by decide, by decide⟩

/-- A state and operands that meet the hypotheses of `TableCommands`, clause 3 (`tableRefreshBegin`). -/
theorem test_TableCommands_tableRefreshBegin : ∃ (it : Item) (s : State) (c : Cmd) (key : Nat) (t : Table) (v : Version),
    (Waits 0x48 it s c) ∧ (key = tableKey c.tcx (field c.words 3 21 16)) ∧ (tabFind s.tbl.tables key = some t) ∧ (v = versionBlock c.words t.next) ∧ (field c.words 3 31 28 = 0) ∧ (field c.words 4 22 0 = 0) ∧ (t.destroying = none ∧ t.opened = none ∧ t.retiring.length ≤ 1) ∧ (poolBytes (polderOf s c.polder) ≠ 0) ∧ (rowsFit v t.stride = true) ∧ (versionOk s c.tcx t.fmt t.width v = true) :=
  ⟨⟨.data 0 1 3, tItem 0x48 5 [] 1, []⟩, tWait tTabled ⟨.data 0 1 3, tItem 0x48 5 [] 1, []⟩, newCmd tTabled ⟨.data 0 1 3, tItem 0x48 5 [] 1, []⟩, 0, tTable, _, by unfold Waits; decide, by decide, by decide, rfl, by decide, by decide, by decide, by decide, by decide, by decide⟩

/-- A state and operands that meet the hypotheses of `TableCommands`, clause 4 (`tableRefreshDelta`). -/
theorem test_TableCommands_tableRefreshDelta : ∃ (it : Item) (s : State) (c : Cmd) (key rows : Nat) (t : Table) (v : Version),
    (Waits 0x48 it s c) ∧ (key = tableKey c.tcx (field c.words 3 21 16)) ∧ (tabFind s.tbl.tables key = some t) ∧ (v = versionBlock c.words t.next) ∧ (rows = field c.words 4 22 0) ∧ (field c.words 3 31 28 = 1) ∧ (1 ≤ rows ∧ rows ≤ 4194304) ∧ (t.destroying = none ∧ t.opened = none ∧ t.retiring = [] ∧ unmerged t.current = false) ∧ (v.base = t.current.base) ∧ ((polderOf s c.polder).workUsed + overlayBytes rows t.stride ≤ poolBytes (polderOf s c.polder)) ∧ (rowsFit v t.stride = true) ∧ (versionOk s c.tcx t.fmt t.width v = true) :=
  ⟨⟨.data 0 1 3, tItem 0x48 5 [0x10000000, 1] 1, []⟩, tWait tTabled ⟨.data 0 1 3, tItem 0x48 5 [0x10000000, 1] 1, []⟩, newCmd tTabled ⟨.data 0 1 3, tItem 0x48 5 [0x10000000, 1] 1, []⟩, 0, 1, tTable, _, by unfold Waits; decide, by decide, by decide, rfl, by decide, by decide, by decide, by decide, by decide, by decide, by decide, by decide⟩

/-- A state and operands that meet the hypotheses of `TableCommands`, clause 5 (`tableWrite`). -/
theorem test_TableCommands_tableWrite : ∃ (it : Item) (s : State) (c : Cmd) (key n step size : Nat) (t : Table) (v : Version) (rows ib : CellBytes) (r1 r2 : Run) (o : Tab (List Byte)),
    (Waits 0x51 it s c) ∧ (key = tableKey c.tcx (field c.words 3 31 26)) ∧ (n = field c.words 8 20 0) ∧ (tabFind s.tbl.tables key = some t) ∧ (t.opened = some v) ∧ (v.delta = true) ∧ (1 ≤ n ∧ n ≤ 1048576) ∧ (step = t.stride * 8) ∧ (size = rowBytes t.fmt t.width) ∧ (readRange (word64 c.words 4) ((n - 1) * step + size) (runOf (started s c) (dispatchCmd c.serial s)) = (some rows, r1)) ∧ (readRange (word64 c.words 6) (n * 8) r1 = (some ib, r2)) ∧ (runBlocked r2 = false) ∧ ((rows.any Prod.snd || ib.any Prod.snd) = false) ∧ (((indexEntries ib n).any fun e => outOfRange v e.1) = false) ∧ (o = (indexEntries ib n).zipIdx.foldl (fun o e => tabInsert o e.1.1 (((rows.drop (e.2 * step)).take size).map Prod.fst)) v.overlay) ∧ (o.length ≤ v.overlayCap) :=
  ⟨⟨.data 0 1 3, tTableWrite, []⟩, tWait tOpened ⟨.data 0 1 3, tTableWrite, []⟩, newCmd tOpened ⟨.data 0 1 3, tTableWrite, []⟩, 0, 1, 8, 8, { tTable with fmt := 1, width := 4, stride := 1, opened := some tOpenVersion }, tOpenVersion, _, _, _, _, _, by unfold Waits; decide, by decide, by decide, by decide, by decide, by decide, by decide, by decide, by decide, rfl, rfl, by decide, by decide, by decide, rfl, by decide⟩

/-- A state and operands that meet the hypotheses of `TableCommands`, clause 6 (`tableRefreshCommit`). -/
theorem test_TableCommands_tableRefreshCommit : ∃ (it : Item) (s : State) (c : Cmd) (keys : List Nat),
    (Waits 0x49 it s c) ∧ (keys = (maskBits 64 (word64 c.words 4)).map (tableKey c.tcx)) ∧ (field c.words 3 31 28 = 0) ∧ (∀ k ∈ keys, ∃ t v, tabFind s.tbl.tables k = some t ∧ t.opened = some v ∧ v.lost = false) :=
  ⟨⟨.data 0 1 3, tItem 0x49 5 [0, 1] 1, []⟩, tWait tOpened ⟨.data 0 1 3, tItem 0x49 5 [0, 1] 1, []⟩, newCmd tOpened ⟨.data 0 1 3, tItem 0x49 5 [0, 1] 1, []⟩, [0], by unfold Waits; decide, by decide, by decide, by intro k hk; cases List.mem_singleton.mp hk; exact ⟨_, _, rfl, rfl, rfl⟩⟩

/-- A state and operands that meet the hypotheses of `TableCommands`, clause 7 (`tableRefreshDiscard`). -/
theorem test_TableCommands_tableRefreshDiscard : ∃ (it : Item) (s : State) (c : Cmd) (keys : List Nat),
    (Waits 0x49 it s c) ∧ (keys = (maskBits 64 (word64 c.words 4)).map (tableKey c.tcx)) ∧ (field c.words 3 31 28 = 1) ∧ (∀ k ∈ keys, ∃ t v, tabFind s.tbl.tables k = some t ∧ t.opened = some v) :=
  ⟨⟨.data 0 1 3, tItem 0x49 5 [0x10000000, 1] 1, []⟩, tWait tOpened ⟨.data 0 1 3, tItem 0x49 5 [0x10000000, 1] 1, []⟩, newCmd tOpened ⟨.data 0 1 3, tItem 0x49 5 [0x10000000, 1] 1, []⟩, [0], by unfold Waits; decide, by decide, by decide, by intro k hk; cases List.mem_singleton.mp hk; exact ⟨_, _, rfl, rfl⟩⟩

/-- A state and operands that meet the hypotheses of `TierCommands`, clause 1 (`tierPromote`). -/
theorem test_TierCommands_tierPromote : ∃ (it : Item) (s : State) (c : Cmd) (r : Run) (l : List Nat) (done : State × Bool),
    (Waits 0x4A it s c) ∧ (tierFields c.words = true) ∧ (r = tierRun (started s c) (dispatchCmd c.serial s)) ∧ (r.stopped = false) ∧ (l = (blockTpas s c.tcx (word64 c.words 4) (wordAt c.words 6)).filterMap id) ∧ (done = promoteAll c.polder (field c.words 3 2 0) (flag c.words 3 3) l r.s) :=
  ⟨⟨.data 0 1 3, tItem 0x4A 5 [2, 0, 0, 1] 1, []⟩, tWait tMapped ⟨.data 0 1 3, tItem 0x4A 5 [2, 0, 0, 1] 1, []⟩, newCmd tMapped ⟨.data 0 1 3, tItem 0x4A 5 [2, 0, 0, 1] 1, []⟩, _, _, _, by unfold Waits; decide, by decide, rfl, by decide, rfl, rfl⟩

/-- A state and operands that meet the hypotheses of `TierCommands`, clause 2 (`tierDemote`). -/
theorem test_TierCommands_tierDemote : ∃ (it : Item) (s : State) (c : Cmd) (r : Run) (l : List Nat) (t : State),
    (Waits 0x4B it s c) ∧ (tierFields c.words = true) ∧ (r = tierRun (started s c) (dispatchCmd c.serial s)) ∧ (r.stopped = false) ∧ (l = (blockTpas s c.tcx (word64 c.words 4) (wordAt c.words 6)).filterMap id) ∧ (t = l.foldl (demoteBlock c.polder (field c.words 3 2 0) (flag c.words 3 3)) r.s) :=
  ⟨⟨.data 0 1 3, tItem 0x4B 5 [2, 0, 0, 1] 1, []⟩, tWait tMapped ⟨.data 0 1 3, tItem 0x4B 5 [2, 0, 0, 1] 1, []⟩, newCmd tMapped ⟨.data 0 1 3, tItem 0x4B 5 [2, 0, 0, 1] 1, []⟩, _, _, _, by unfold Waits; decide, by decide, rfl, by decide, rfl, rfl⟩

/-- A state and operands that meet the hypotheses of `TierCommands`, clause 3 (`tierDemotePromoted`). -/
theorem test_TierCommands_tierDemotePromoted : ∃ (p : Nat) (pinOnly : Bool) (s : State) (tpa : Nat) (b : Promoted),
    (tabFind s.tier.promoted (tpa / 65536) = some b) :=
  ⟨0, false, { tMapped with tier := { promoted := [(0, tPromoted)] } }, 0, tPromoted, rfl⟩

/-- A state and operands that meet the hypotheses of `TierCommands`, clause 4 (`htwWrite`). -/
theorem test_TierCommands_htwWrite : ∃ (it : Item) (s : State) (c : Cmd) (d : Window) (n : Nat),
    (Waits 0x4D it s c) ∧ (d = windowRequest c.words) ∧ (n = windowNumber c.words) ∧ (windowRights (dispatchCmd c.serial s) c.src d.hid.toNat = true) ∧ (d.valid = true → d.length ≠ 0 ∧ d.length.toNat ≤ 0x8000 ∧ (tcxOf s d.owner.toNat).state ≠ .free
      ∧ polderBit (hitOf s d.hid.toNat) (tcxOf s d.owner.toNat).polder = true) :=
  ⟨⟨.admin 0 1, tWindowWords, []⟩, tWait tLive ⟨.admin 0 1, tWindowWords, []⟩, newCmd tLive ⟨.admin 0 1, tWindowWords, []⟩, windowRequest tWindowWords, 0, by unfold Waits; decide, rfl, by decide, by decide, by decide⟩

/-- A state and operands that meet the hypotheses of `TierCommands`, clause 5 (`htwRights`). -/
theorem test_TierCommands_htwRights : ∃ (it : Item) (s : State) (c : Cmd),
    (Waits 0x4D it s c) ∧ (windowRights (dispatchCmd c.serial s) c.src (windowRequest c.words).hid.toNat = false) :=
  ⟨⟨.admin 0 1, tItem 0x4D 5 [0, 9] 1, []⟩, tWait tLive ⟨.admin 0 1, tItem 0x4D 5 [0, 9] 1, []⟩, newCmd tLive ⟨.admin 0 1, tItem 0x4D 5 [0, 9] 1, []⟩, by unfold Waits; decide, by decide⟩

/-- A state and operands that meet the hypotheses of `TierCommands`, clause 6 (`htwRead`). -/
theorem test_TierCommands_htwRead : ∃ (it : Item) (s : State) (c : Cmd) (d : Window),
    (Waits 0x4E it s c) ∧ (d = windowOf s (windowNumber c.words)) ∧ (windowRights (dispatchCmd c.serial s) c.src d.hid.toNat = true) :=
  ⟨⟨.admin 0 1, tItem 0x4E 5 [0] 1, []⟩, tWait tWindowed ⟨.admin 0 1, tItem 0x4E 5 [0] 1, []⟩, newCmd tLive ⟨.admin 0 1, tItem 0x4E 5 [0] 1, []⟩, { hid := 7 }, by unfold Waits; decide, by decide, by decide⟩

/-- A state and operands that meet the hypotheses of `TierCommands`, clause 7 (`flashTrim`). -/
theorem test_TierCommands_flashTrim : ∃ (it : Item) (s : State) (c : Cmd) (u : Nat) (l : List (Nat × Nat)),
    (Waits 0x4F it s c) ∧ (field c.words 3 3 0 = 0) ∧ (u = field c.words 6 26 0) ∧ (flashFields c.words = true) ∧ ((checkWhole (word64 c.words 4) (u * 16384) .write 0x3 (fun tpa => decide (regionOf tpa ≠ .flash)) (runOf (started s c) (dispatchCmd c.serial s))).stopped = false) ∧ (l = flashRanges s c.tcx (word64 c.words 4) (u * 16384)) ∧ (flashAligned s c.tcx 0 (word64 c.words 4) (u * 16384) l = true) ∧ (∀ ch ∈ flashChannels (polderOf s c.polder) l, (nandOf s ch).health = .ok ∧ (nandOf s ch).mapLoaded = true) :=
  ⟨⟨.data 0 1 3, tTrimWords, []⟩, tWait tFlashMapped ⟨.data 0 1 3, tTrimWords, []⟩, newCmd tFlashMapped ⟨.data 0 1 3, tTrimWords, []⟩, 1, [(2 ^ 45, 16384)], by unfold Waits; decide, by decide, by decide, by decide, by decide, by decide, by decide, by decide⟩

/-- A state and operands that meet the hypotheses of `TierCommands`, clause 8 (`flashStats`). -/
theorem test_TierCommands_flashStats : ∃ (it : Item) (s : State) (c : Cmd),
    (Waits 0x4F it s c) ∧ (field c.words 3 3 0 = 3) ∧ (field c.words 6 26 0 = 0) ∧ (dvaClear c.words 4 = true) :=
  ⟨⟨.data 0 1 3, tItem 0x4F 5 [3] 1, []⟩, tWait tMapped ⟨.data 0 1 3, tItem 0x4F 5 [3] 1, []⟩, newCmd tMapped ⟨.data 0 1 3, tItem 0x4F 5 [3] 1, []⟩, by unfold Waits; decide, by decide, by decide, by decide⟩

/-- A state and operands that meet the hypotheses of `LookupCommands`, clause 1 (`lookupPooled`). -/
theorem test_LookupCommands_lookupPooled : ∃ (it : Item) (s : State) (c : Cmd) (t : Table) (v : Version) (m : Cmd × State) (a : LookupArrays × Run) (f : List Fetched × Run),
    (Waits 0x80 it s c) ∧ (tabFind s.tbl.tables (tableKey c.tcx (field c.words 3 31 26)) = some t) ∧ (pinnedVersion t c.pinned = some v) ∧ (lookupValid 0x80 t c.words = true) ∧ (m = markLate (started s c) 10 (dispatchCmd c.serial s)) ∧ (a = lookupArrays 0x80 (lookupReq c.words) { runOf m.1 m.2 with engine := 2, unit := 0xFF }) ∧ ((a.2.stopped || runBlocked a.2) = false) ∧ (offsetsOk (lookupReq c.words).indices (lookupOffsets (lookupReq c.words) a.1) = true) ∧ (f = fetchRows t v 10 ((lookupReq c.words).ofmt ≠ 0xF) (indexEntries a.1.idx (lookupReq c.words).indices) a.2) ∧ ((f.2.stopped || runBlocked f.2) = false) :=
  ⟨⟨.data 0 1 3, tLookWords 1, []⟩, tPinned tLook (tLookWords 1), tPinnedCmd tLook (tLookWords 1), tTable, {}, _, _, _, by unfold Waits; decide, by decide, by decide, by decide, rfl, rfl, by decide, by decide, rfl, by decide⟩

/-- A state and operands that meet the hypotheses of `LookupCommands`, clause 2 (`gatherRows`). -/
theorem test_LookupCommands_gatherRows : ∃ (it : Item) (s : State) (c : Cmd) (t : Table) (v : Version) (m : Cmd × State) (a : LookupArrays × Run) (f : List Fetched × Run),
    (Waits 0x81 it s c) ∧ (tabFind s.tbl.tables (tableKey c.tcx (field c.words 3 31 26)) = some t) ∧ (pinnedVersion t c.pinned = some v) ∧ (lookupValid 0x81 t c.words = true) ∧ (m = markLate (started s c) 10 (dispatchCmd c.serial s)) ∧ (a = lookupArrays 0x81 (lookupReq c.words) { runOf m.1 m.2 with engine := 2, unit := 0xFF }) ∧ ((a.2.stopped || runBlocked a.2) = false) ∧ (f = fetchRows t v 10 ((lookupReq c.words).ofmt ≠ 0xF) (indexEntries a.1.idx (lookupReq c.words).indices) a.2) ∧ ((f.2.stopped || runBlocked f.2) = false) :=
  ⟨⟨.data 0 1 3, tLookWords 0, []⟩, tPinned tLook (tLookWords 0), tPinnedCmd tLook (tLookWords 0), tTable, {}, _, _, _, by unfold Waits; decide, by decide, by decide, by decide, rfl, rfl, by decide, rfl, by decide⟩

/-- A state and operands that meet the hypotheses of `LookupCommands`, clause 3 (`lookupInvalid`). -/
theorem test_LookupCommands_lookupInvalid : ∃ (it : Item) (s : State) (c : Cmd),
    (Waits 0x80 it s c ∨ Waits 0x81 it s c) ∧ (∀ t, tabFind s.tbl.tables (tableKey c.tcx (field c.words 3 31 26)) = some t →
      pinnedVersion t c.pinned = none ∨ lookupValid (hdrOpcode it.words) t c.words = false) :=
  ⟨⟨.data 0 1 3, tLookWords 1, []⟩, tPinned tMapped (tLookWords 1), tPinnedCmd tMapped (tLookWords 1), by unfold Waits; decide, by intro t h; cases h⟩

/-- A state and operands that meet the hypotheses of `LookupCommands`, clause 4 (`seqPool`). -/
theorem test_LookupCommands_seqPool : ∃ (it : Item) (s : State) (c : Cmd) (q : SeqReq) (kn vn : Nat) (kt vt : Table) (kv vv : Version) (m : Cmd × State) (a b : CellBytes × Run) (f : List SeqOut × Run),
    (Waits 0x84 it s c) ∧ (q = seqReq c.words) ∧ (kn = field c.words 3 31 26) ∧ (vn = if q.mode = 4 then field c.words 3 25 20 else kn) ∧ (pinnedTable s (tableKey c.tcx kn) c.pinned = some (kt, kv)) ∧ (pinnedTable s (tableKey c.tcx vn) (if q.mode = 4 then c.pinned2 else c.pinned) = some (vt, vv)) ∧ (seqValid c.words vt.width = true) ∧ (m = markLate (started s c) 20 (dispatchCmd c.serial s)) ∧ (a = readArray q.desc (32 * q.nseq) true { runOf m.1 m.2 with engine := 2 }) ∧ (b = readArray q.query (4 * kt.width * q.nseq) (decide (q.mode = 4)) a.2) ∧ ((b.2.stopped || runBlocked b.2) = false) ∧ ((List.range q.nseq).all (descOk a.1) = true) ∧ ((((List.range q.nseq).map (seqDesc a.1)).map (taken q)).sum ≤ 16777216) ∧ (f = runSequences kt vt kv vv q a.1 b.1 q.nseq 0 b.2) ∧ ((f.2.stopped || runBlocked f.2) = false) :=
  ⟨⟨.data 0 1 3, tSeqWords, []⟩, tPinned tSeqMem tSeqWords, tPinnedCmd tSeqMem tSeqWords, _, 0, 0, tTable, tTable, {}, {}, _, _, _, _, by unfold Waits; decide, rfl, by decide, by decide, by decide, by decide, by decide, rfl, rfl, rfl, by decide, by decide, by decide, rfl, by decide⟩

/-- A state and operands that meet the hypotheses of `LookupCommands`, clause 5 (`seqInvalid`). -/
theorem test_LookupCommands_seqInvalid : ∃ (it : Item) (s : State) (c : Cmd),
    (Waits 0x84 it s c) ∧ (pinnedTable s (tableKey c.tcx (field c.words 3 31 26)) c.pinned = none) :=
  ⟨⟨.data 0 1 3, tSeqWords, []⟩, tPinned tMapped tSeqWords, tPinnedCmd tMapped tSeqWords, by unfold Waits; decide, by decide⟩

/-- A state and operands that meet the hypotheses of `LookupCommands`, clause 6 (`decodeAttn`). -/
theorem test_LookupCommands_decodeAttn : ∃ (it : Item) (s : State) (c : Cmd) (q : AttnReq) (m : Cmd × State) (a : CellBytes × Run) (l : List (Nat × Nat × Nat × Bool)) (p : List CellBytes × Run) (b : CellBytes × Run) (f : List AttnOut × Run),
    (Waits 0x86 it s c) ∧ (q = attnReq c.words) ∧ (attnValid q = true) ∧ (m = markLate (started s c) 20 (dispatchCmd c.serial s)) ∧ (a = readArray q.desc (16 * q.nseq) true { runOf m.1 m.2 with engine := 0 }) ∧ ((a.2.stopped || runBlocked a.2) = false) ∧ (l = (List.range q.nseq).map (attnDesc a.1)) ∧ (l.any attnDescBad = false) ∧ (p = readTables (l.map fun d => (d.1, d.2.1)) a.2) ∧ (b = readArray q.query (4 * q.d * attnHeads q * q.nseq) true p.2) ∧ ((b.2.stopped || runBlocked b.2) = false) ∧ (f = attnSequences q b.1 (attnSeqs l p.1) b.2) ∧ ((f.2.stopped || runBlocked f.2) = false) :=
  ⟨⟨.data 0 1 3, tAttnWords, []⟩, tWait tAttnMem ⟨.data 0 1 3, tAttnWords, []⟩, newCmd tAttnMem ⟨.data 0 1 3, tAttnWords, []⟩, _, _, _, _, _, _, _, by unfold Waits; decide, rfl, by decide, rfl, rfl, by decide, rfl, by decide, rfl, rfl, by decide, rfl, by decide⟩

/-- A state and operands that meet the hypotheses of `LookupCommands`, clause 7 (`attnInvalid`). -/
theorem test_LookupCommands_attnInvalid : ∃ (it : Item) (s : State) (c : Cmd),
    (Waits 0x86 it s c) ∧ (attnValid (attnReq c.words) = false) :=
  ⟨⟨.data 0 1 3, tItem 0x86 5 [] 2, []⟩, tWait tMapped ⟨.data 0 1 3, tItem 0x86 5 [] 2, []⟩, newCmd tMapped ⟨.data 0 1 3, tItem 0x86 5 [] 2, []⟩, by unfold Waits; decide, by decide⟩

/-- A state and operands that meet the hypotheses of `SearchAndLaunchCommands`, clause 1 (`search`). -/
theorem test_SearchAndLaunchCommands_search : ∃ (it : Item) (s : State) (c : Cmd) (x : SearchRead × Run) (chans : List Nat) (s1 : State) (d : Cmd) (y : SearchRead × Run),
    (Waits 0x88 it s c) ∧ (searchReady 0x88 (started s c) (dispatchCmd c.serial s) = some x) ∧ (chans = engineChannels (allUnits (dispatchCmd c.serial s) c.tcx x.1.ctx)) ∧ (tabFind s.srch.runs c.serial = none) ∧ ((spills (started s c) && decide (hdrDeadline c.words ≤ 60)) = false) ∧ ((chans.any fun ch => decide ((tabGet s.srch.queued [] ch).length ≥ 32)) = false) ∧ (c.pool = 0) ∧ (takePool (started s c) (searchPool x.1.ctx.req) (dispatchCmd c.serial s) = some s1) ∧ (((queueScans c.serial chans s1).q.cmds.find? fun d => decide (d.serial = c.serial)) = some d) ∧ (searchReady 0x88 { d with host := c.host, phase := 1 } (queueScans c.serial chans s1) = some y) :=
  ⟨⟨.data 0 1 3, tSearchWords, []⟩, tSearchWait, newCmd tSearchReady ⟨.data 0 1 3, tSearchWords, []⟩, tSearchRead, tSearchChans, tSearchPool, tSearchFound, tSearchAgain, by unfold Waits; decide, tGet (by decide) rfl, rfl, by decide, by decide, List.any_eq_false.mpr (fun _ _ => of_decide_eq_false rfl), by decide, tGet (by decide) rfl, tGet (by decide) rfl, tGet (by decide) rfl⟩

/-- A state and operands that meet the hypotheses of `SearchAndLaunchCommands`, clause 2 (`searchCompat`). -/
theorem test_SearchAndLaunchCommands_searchCompat : ∃ (it : Item) (s : State) (c : Cmd) (x : SearchRead × Run) (chans : List Nat) (s1 : State) (d : Cmd) (y : SearchRead × Run),
    (Waits 0x89 it s c) ∧ (searchReady 0x89 (started s c) (dispatchCmd c.serial s) = some x) ∧ (chans = engineChannels (allUnits (dispatchCmd c.serial s) c.tcx x.1.ctx)) ∧ (tabFind s.srch.runs c.serial = none) ∧ ((spills (started s c) && decide (hdrDeadline c.words ≤ 60)) = false) ∧ ((chans.any fun ch => decide ((tabGet s.srch.queued [] ch).length ≥ 32)) = false) ∧ (c.pool = 0) ∧ (takePool (started s c) (searchPool x.1.ctx.req) (dispatchCmd c.serial s) = some s1) ∧ (((queueScans c.serial chans s1).q.cmds.find? fun d => decide (d.serial = c.serial)) = some d) ∧ (searchReady 0x89 { d with host := c.host, phase := 1 } (queueScans c.serial chans s1) = some y) :=
  ⟨⟨.data 0 1 3, tCompatWords, []⟩, tCompatWait, newCmd tCompatReady ⟨.data 0 1 3, tCompatWords, []⟩, tCompatRead, tCompatChans, tCompatPool, tCompatFound, tCompatAgain, by unfold Waits; decide, tGet (by decide) rfl, rfl, by decide, by decide, List.any_eq_false.mpr (fun _ _ => of_decide_eq_false rfl), by decide, tGet (by decide) rfl, tGet (by decide) rfl, tGet (by decide) rfl⟩

/-- A state and operands that meet the hypotheses of `SearchAndLaunchCommands`, clause 3 (`kernelLaunch`). -/
theorem test_SearchAndLaunchCommands_kernelLaunch : ∃ (it : Item) (s : State) (c : Cmd) (l : Launch) (r : Run) (n : Nat),
    (Waits 0xA0 it s c) ∧ (launchFieldsOk true c.words = true) ∧ (launchReady true (started s c) (dispatchCmd c.serial s) = some (l, r)) ∧ (n = min (if field c.words 3 7 0 = 0 then l.image.coresMax else field c.words 3 7 0) (usableCores s c.polder).length) ∧ (l.image.coresMin ≤ n) ∧ (l.image.code + field c.words 8 15 0 ≤ l.image.localBytes) :=
  ⟨⟨.data 0 1 3, tKernelWords, []⟩, tKernelWait, newCmd tKernelMem ⟨.data 0 1 3, tKernelWords, []⟩, tKernel.1, tKernel.2, 1, by unfold Waits; decide, by decide, tKernel_ready, tKernel_cores, tKernel_min, tKernel_local⟩

/-- A state and operands that meet the hypotheses of `SearchAndLaunchCommands`, clause 4 (`crownRun`). -/
theorem test_SearchAndLaunchCommands_crownRun : ∃ (it : Item) (s : State) (c : Cmd) (l : Launch) (r r1 r2 r3 : Run) (n : Nat),
    (Waits 0xA8 it s c) ∧ (launchFieldsOk false c.words = true) ∧ (launchReady false (started s c) (dispatchCmd c.serial s) = some (l, r)) ∧ (n = min (if field c.words 3 7 0 = 0 then l.image.coresMax else field c.words 3 7 0) (usableCrown s c.polder).length) ∧ (l.image.coresMin ≤ n ∧ field c.words 19 15 0 < n ∧ l.image.data.length + n * l.image.stack ≤ l.image.work) ∧ (n ≤ (freeCrownCores (dispatchCmd c.serial s) c.polder).length) ∧ (writesPending s c.tcx = false) ∧ (r1 = checkWhole (word64 c.words 16) l.image.work .read 0x2 (fun _ => false) r) ∧ (r1.stopped = false) ∧ (r2 = checkWhole (word64 c.words 16) l.image.work .write 0x3 (fun _ => false) r1) ∧ (r3 = writeRange (word64 c.words 16) (cleanBytes (l.image.data ++ List.replicate (l.image.work - l.image.data.length - n * l.image.stack) 0)) r2) ∧ ((r3.stopped || runBlocked r3) = false) :=
  ⟨⟨.data 0 1 3, tCrownWords, []⟩, tCrownWait, newCmd tCrownMem ⟨.data 0 1 3, tCrownWords, []⟩, tCrown.1, tCrown.2, _, _, _, 1, by unfold Waits; decide, by decide, tCrown_ready, tCrown_cores, tCrown_room, by decide, by decide, rfl, tCrown_fields.2.2.2.1, rfl, rfl, tCrown_fields.2.2.2.2⟩

/-- A state and operands that meet the hypotheses of `SearchAndLaunchCommands`, clause 5 (`collectiveOpen`). -/
theorem test_SearchAndLaunchCommands_collectiveOpen : ∃ (op : Nat) (it : Item) (s : State) (c : Cmd) (q : CollReq) (need ix : Nat) (s1 : State),
    (op = 0xC0 ∨ op = 0xC1 ∨ op = 0xC2) ∧ (Waits op it s c) ∧ (q = collReq c.words) ∧ (need = q.count * collBytes op q + collOutput op q) ∧ (collValid op c.words = true) ∧ (poolBytes (polderOf s c.polder) ≠ 0) ∧ (need ≤ poolBytes (polderOf s c.polder)) ∧ (srcSluice (dispatchCmd c.serial s) c.src = some ix) ∧ (q.push = true → slotTaken s ix q.slot = false) ∧ (tabFind s.copy.groups (groupKey c) = none) ∧ ((s.copy.groups.filter fun e => e.1 / 2 ^ 32 = c.polder).length < 64) ∧ (takePool (started s c) need (dispatchCmd c.serial s) = some s1) :=
  ⟨0xC0, ⟨.data 0 1 3, tReduceWords 0, []⟩, tWait tPooled ⟨.data 0 1 3, tReduceWords 0, []⟩, newCmd tPooled ⟨.data 0 1 3, tReduceWords 0, []⟩, _, 12, 1, (takePool (started (tWait tPooled ⟨.data 0 1 3, tReduceWords 0, []⟩) (newCmd tPooled ⟨.data 0 1 3, tReduceWords 0, []⟩)) 12 (dispatchCmd 1 (tWait tPooled ⟨.data 0 1 3, tReduceWords 0, []⟩))).get (by decide), by decide, by unfold Waits; decide, rfl, by decide, by decide, by decide, by decide, by decide, by decide, by decide, by decide, tGet (by decide) rfl⟩

/-- A state and operands that meet the hypotheses of `SearchAndLaunchCommands`, clause 6 (`collectiveJoin`). -/
theorem test_SearchAndLaunchCommands_collectiveJoin : ∃ (op : Nat) (it : Item) (s : State) (c : Cmd) (q : CollReq) (ix : Nat) (g : Group),
    (op = 0xC0 ∨ op = 0xC1 ∨ op = 0xC2) ∧ (Waits op it s c) ∧ (q = collReq c.words) ∧ (collValid op c.words = true) ∧ (poolBytes (polderOf s c.polder) ≠ 0) ∧ (q.count * collBytes op q + collOutput op q ≤ poolBytes (polderOf s c.polder)) ∧ (srcSluice (dispatchCmd c.serial s) c.src = some ix) ∧ (q.push = true → slotTaken s ix q.slot = false) ∧ (tabFind s.copy.groups (groupKey c) = some g) ∧ (g.full = false ∧ g.opcode = op ∧ g.params = collParams c.words) ∧ ((g.members.any fun m => decide (m.rank = q.rank)) = false) :=
  ⟨0xC0, ⟨.data 0 1 3, tReduceWords 1, []⟩, tWait tGrouped ⟨.data 0 1 3, tReduceWords 1, []⟩, newCmd tGrouped ⟨.data 0 1 3, tReduceWords 1, []⟩, _, 1, tFirst, by decide, by unfold Waits; decide, rfl, by decide, by decide, by decide, by decide, by decide, by decide, by decide, by decide⟩

/-- A state and operands that meet the hypotheses of `DebugCommands`, clause 1 (`status`). -/
theorem test_DebugCommands_status : ∃ (it : Item) (s : State) (c : Cmd),
    (Waits 0xF0 it s c) :=
  ⟨⟨.admin 0 1, tItem 0xF0 5 [] 1, []⟩, tWait tLive ⟨.admin 0 1, tItem 0xF0 5 [] 1, []⟩, newCmd tLive ⟨.admin 0 1, tItem 0xF0 5 [] 1, []⟩, by unfold Waits; decide⟩

/-- A state and operands that meet the hypotheses of `DebugCommands`, clause 2 (`challenge`). -/
theorem test_DebugCommands_challenge : ∃ (it : Item) (s : State) (c : Cmd),
    (Waits 0xF1 it s c) :=
  ⟨⟨.admin 0 1, tItem 0xF1 5 [] 1, []⟩, tWait tLive ⟨.admin 0 1, tItem 0xF1 5 [] 1, []⟩, newCmd tLive ⟨.admin 0 1, tItem 0xF1 5 [] 1, []⟩, by unfold Waits; decide⟩

/-- A state and operands that meet the hypotheses of `DebugCommands`, clause 3 (`unlock`). -/
theorem test_DebugCommands_unlock : ∃ (it : Item) (s : State) (c : Cmd) (n : BitVec 64) (t : Nat),
    (Waits 0xF2 it s c) ∧ (field c.words 3 1 0 = 1 ∨ field c.words 3 1 0 = 2) ∧ (lockCode s.dbg.lock < field c.words 3 1 0) ∧ (word64 c.words 7 % 8 = 0) ∧ (s.dbg.nonce = some (n, t)) ∧ (s.time - t ≤ 1500000000) :=
  ⟨⟨.admin 0 1, tItem 0xF2 5 [1] 1, []⟩, tWait tNonced ⟨.admin 0 1, tItem 0xF2 5 [1] 1, []⟩, newCmd tNonced ⟨.admin 0 1, tItem 0xF2 5 [1] 1, []⟩, 7, 0, by unfold Waits; decide, by decide, by decide, by decide, by decide, by decide⟩

/-- A state and operands that meet the hypotheses of `DebugCommands`, clause 4 (`unlockRefused`). -/
theorem test_DebugCommands_unlockRefused : ∃ (it : Item) (s : State) (c : Cmd) (ok : Bool),
    (Waits 0xF2 it s c) ∧ (field c.words 3 1 0 = 1 ∨ field c.words 3 1 0 = 2) ∧ (lockCode s.dbg.lock < field c.words 3 1 0) ∧ (word64 c.words 7 % 8 = 0) ∧ (ok = false ∨ nonceFresh s = false) :=
  ⟨⟨.admin 0 1, tItem 0xF2 5 [1] 1, []⟩, tWait tLive ⟨.admin 0 1, tItem 0xF2 5 [1] 1, []⟩, newCmd tLive ⟨.admin 0 1, tItem 0xF2 5 [1] 1, []⟩, true, by unfold Waits; decide, by decide, by decide, by decide, by decide⟩

/-- A state and operands that meet the hypotheses of `DebugCommands`, clause 5 (`lock`). -/
theorem test_DebugCommands_lock : ∃ (it : Item) (s : State) (c : Cmd),
    (Waits 0xF3 it s c) :=
  ⟨⟨.admin 0 1, tItem 0xF3 5 [] 1, []⟩, tWait tLive ⟨.admin 0 1, tItem 0xF3 5 [] 1, []⟩, newCmd tLive ⟨.admin 0 1, tItem 0xF3 5 [] 1, []⟩, by unfold Waits; decide⟩

/-- A state and operands that meet the hypotheses of `DebugCommands`, clause 6 (`peek`). -/
theorem test_DebugCommands_peek : ∃ (it : Item) (s : State) (c : Cmd) (d : DebugAddr) (a len : Nat) (p : List Byte × State),
    (Waits 0xF4 it s c) ∧ (a = word64 c.words 4 ∧ len = wordAt c.words 6) ∧ (s.dbg.lock ≠ .locked ∧ (needsOpen a = true → s.dbg.lock = .open_)) ∧ (4 ≤ len ∧ len ≤ 4096 ∧ len % 4 = 0 ∧ debugHpa c = true) ∧ (debugAddr s a len = some d) ∧ (p = peekBytes d len (dispatchCmd c.serial s)) :=
  ⟨⟨.admin 0 1, tItem 0xF4 5 [0, 0, 0, 8] 1, []⟩, tWait tSafe ⟨.admin 0 1, tItem 0xF4 5 [0, 0, 0, 8] 1, []⟩, newCmd tSafe ⟨.admin 0 1, tItem 0xF4 5 [0, 0, 0, 8] 1, []⟩, .regs 0, 0, 8, _, by unfold Waits; decide, by decide, by decide, by decide, by decide, rfl⟩

/-- A state and operands that meet the hypotheses of `DebugCommands`, clause 7 (`peekRefused`). -/
theorem test_DebugCommands_peekRefused : ∃ (it : Item) (s : State) (c : Cmd),
    (Waits 0xF4 it s c ∧ (s.dbg.lock = .locked ∨ needsOpen (word64 c.words 4) = true ∧ s.dbg.lock ≠ .open_) ∨ Waits 0xF5 it s c ∧ s.dbg.lock ≠ .open_) :=
  ⟨⟨.admin 0 1, tItem 0xF4 5 [0, 0, 0, 8] 1, []⟩, tWait tLive ⟨.admin 0 1, tItem 0xF4 5 [0, 0, 0, 8] 1, []⟩, newCmd tLive ⟨.admin 0 1, tItem 0xF4 5 [0, 0, 0, 8] 1, []⟩, by left; refine ⟨?_, by decide⟩; unfold Waits; decide⟩

/-- A state and operands that meet the hypotheses of `DebugCommands`, clause 8 (`poke`). -/
theorem test_DebugCommands_poke : ∃ (it : Item) (s : State) (c : Cmd) (d : DebugAddr) (l : List Byte) (a len : Nat) (p : State × Status),
    (Waits 0xF5 it s c) ∧ (a = word64 c.words 4 ∧ len = wordAt c.words 6) ∧ (s.dbg.lock = .open_) ∧ (4 ≤ len ∧ len ≤ 64 ∧ len % 4 = 0 ∧ word64 c.words 7 % 8 = 0) ∧ (debugAddr s a len = some d) ∧ (hostBytes c.host (srcHid (dispatchCmd c.serial s) c.src) (word64 c.words 7) len = some l) ∧ (p = pokeBytes d l (dispatchCmd c.serial s)) :=
  ⟨⟨.admin 0 1, tPokeWords, tPokeHost⟩, tWait tOpen ⟨.admin 0 1, tPokeWords, tPokeHost⟩, newCmd tOpen ⟨.admin 0 1, tPokeWords, tPokeHost⟩, .regs 0, [1, 2, 3, 4], 0, 4, _, by unfold Waits; decide, by decide, by decide, by decide, by decide, by decide, rfl⟩

/-- A state and operands that meet the hypotheses of `DebugCommands`, clause 9 (`halt`). -/
theorem test_DebugCommands_halt : ∃ (it : Item) (s : State) (c : Cmd) (core : Nat),
    (Waits 0xF6 it s c) ∧ (core = field c.words 3 4 0) ∧ (core ≤ 27) ∧ (haltAllowed s.dbg.lock core = true) :=
  ⟨⟨.admin 0 1, tItem 0xF6 5 [3] 1, []⟩, tWait tSafe ⟨.admin 0 1, tItem 0xF6 5 [3] 1, []⟩, newCmd tSafe ⟨.admin 0 1, tItem 0xF6 5 [3] 1, []⟩, 3, by unfold Waits; decide, by decide, by decide, by decide⟩

/-- A state and operands that meet the hypotheses of `DebugCommands`, clause 10 (`haltDeferred`). -/
theorem test_DebugCommands_haltDeferred : ∃ (it : Item) (s : State) (c : Cmd) (core : Nat) (x : Fin 28 × Nat) (t : State),
    (Waits 0xF6 it s c) ∧ (core = field c.words 3 4 0) ∧ (core ≤ 27) ∧ (haltAllowed s.dbg.lock core = true) ∧ (x.2 ≠ c.serial) ∧ ((s.q.cmds.any fun d => decide (d.serial = x.2)) = true) ∧ (t = modCmd c.serial (fun c => { c with phase := 1, decided := true }) (dispatchCmd c.serial s)) :=
  ⟨⟨.admin 0 1, tItem 0xF6 5 [3] 1, []⟩, tHaltWait, newCmd tHaltBase ⟨.admin 0 1, tItem 0xF6 5 [3] 1, []⟩, 3, (4, 1), _, by unfold Waits; decide, by decide, by decide, by decide, by decide, by decide, rfl⟩

/-- A state and operands that meet the hypotheses of `DebugCommands`, clause 11 (`resume`). -/
theorem test_DebugCommands_resume : ∃ (it : Item) (s : State) (c : Cmd) (core : Nat),
    (Waits 0xF7 it s c) ∧ (core = field c.words 3 4 0) ∧ (core ≤ 27) ∧ (haltAllowed s.dbg.lock core = true) :=
  ⟨⟨.admin 0 1, tItem 0xF7 5 [3] 1, []⟩, tWait tSafe ⟨.admin 0 1, tItem 0xF7 5 [3] 1, []⟩, newCmd tSafe ⟨.admin 0 1, tItem 0xF7 5 [3] 1, []⟩, 3, by unfold Waits; decide, by decide, by decide, by decide⟩

end Sys2Proof.Tests
end

/-!
What a debug peek leaves behind (R9, R462): every space reads without an effect, but for the latches that a read of the
register space sets (R495, R496) and the count of free values.
-/

namespace Sys2Proof.Machine

/-- `s` with the latches of `t` (upper halves, window records) and its count of free values: what a peek may change. -/
def takeLatches (s t : State) : State :=
  { s with
    free := t.free
    regs := { s.regs with timeHi := t.regs.timeHi, beatHi := t.regs.beatHi, winLatch := t.regs.winLatch, precLatch := t.regs.precLatch } }

theorem takeLatches_self (s : State) : takeLatches s s = s := rfl

theorem takeLatches_takeLatches (s t u : State) : takeLatches (takeLatches s t) u = takeLatches s u := rfl

/-- Two states in a row that each change nothing but latches change nothing but latches together. -/
theorem takeLatches_trans {s t u : State} (hst : takeLatches s t = t) (htu : takeLatches t u = u) : takeLatches s u = u :=
  calc takeLatches s u
    _ = takeLatches (takeLatches s t) u := (takeLatches_takeLatches s t u).symm
    _ = takeLatches t u := by rw [hst]
    _ = u := htu

theorem takeLatches_drawFree (s : State) : takeLatches s (drawFree s) = drawFree s := rfl

theorem takeLatches_latchWindow (prec : Bool) (s : State) : takeLatches s (latchWindow prec s) = latchWindow prec s := by
  cases prec with
  | false => rfl
  | true => rfl

theorem takeLatches_readLatches (off : Nat) (s : State) : takeLatches s (readLatches off s) = readLatches off s := by
  unfold readLatches
  split_ifs
  · exact takeLatches_latchWindow false s
  · exact takeLatches_latchWindow true s
  · rfl
  · rfl
  · exact takeLatches_self s

/-- A peeked register sets its latches and clears no RC field; the next one is read from there. -/
theorem readRegs_peek_succ (n off : Nat) (s : State) :
    (readRegs true (n + 1) off s).2 = (readRegs true n (off + 4) (readLatches off s)).2 := rfl

theorem takeLatches_readRegs_peek (n off : Nat) (s : State) : takeLatches s (readRegs true n off s).2 = (readRegs true n off s).2 := by
  induction n generalizing off s with
  | zero => exact takeLatches_self s
  | succ n ih =>
    rw [readRegs_peek_succ]
    exact takeLatches_trans (takeLatches_readLatches off s) (ih (off + 4) (readLatches off s))

theorem takeLatches_peekBytes (d : DebugAddr) (len : Nat) (s : State) : takeLatches s (peekBytes d len s).2 = (peekBytes d len s).2 := by
  cases d with
  | regs off => exact takeLatches_readRegs_peek (len / 4) off s
  | core n off => exact takeLatches_drawFree s
  | bar ix off => exact takeLatches_self s
  | dir slot => exact takeLatches_self s
  | map unit => exact takeLatches_self s
  | tray tpa => exact takeLatches_self s
  | localStore core off => exact takeLatches_self s

/-- Settles O17: of the seven spaces only the registers and a core's bytes change the state at all, the first by the
latches of each word read, the second by one draw. -/
theorem peekClearsNothing : Obligations.PeekClearsNothing := by
  unfold Obligations.PeekClearsNothing
  rintro d len s _ rfl
  exact (takeLatches_peekBytes d len s).symm

end Sys2Proof.Machine

/-!
What every step keeps: the clusters and the warning pin after a command's effect has settled (R424, R481).
-/

namespace Sys2Proof.Machine

/-- A cluster with work that is ACTIVE and undisturbed, or waking, follows. -/
theorem clusterFollows_of_busy {cl : Nat} {s : State} (hb : clusterBusy s cl = true)
    (hx : ((clusterOf s cl).state = .active ∧ (clusterOf s cl).entering = none ∧ (clusterOf s cl).flushing = none)
      ∨ (clusterOf s cl).waking = true) : clusterFollows s cl := by
  unfold clusterFollows
  dsimp only
  rwa [if_pos hb]

theorem requestWake_clusterFollows {cl : Nat} {s : State} (h : clusterBusy s cl = true) : clusterFollows (requestWake cl s) cl := by
  unfold requestWake
  dsimp only
  split_ifs with hactive hwaking
  · exact clusterFollows_of_busy h (.inl hactive)
  · exact clusterFollows_of_busy h (.inr hwaking)
  · refine clusterFollows_of_busy (by rwa [modCluster_busy]) ?_
    rw [modCluster_same]
    cases he : (clusterOf s cl).entering with
    | some t => simp
    | none => by_cases hs : (clusterOf s cl).state = .active <;> simp [hs]

/-- A cluster without work that has left ACTIVE follows. -/
theorem clusterFollows_of_idle {cl : Nat} {s : State} (hb : clusterBusy s cl ≠ true) (hs : (clusterOf s cl).state ≠ .active) :
    clusterFollows s cl := by
  unfold clusterFollows
  dsimp only
  rw [if_neg hb]
  exact hs

theorem settleCluster_clusterFollows (cl : Nat) (s : State) : clusterFollows (settleCluster cl s) cl := by
  unfold settleCluster
  dsimp only
  split_ifs with hb hactive hevac
  · exact requestWake_clusterFollows hb
  · exact clusterFollows_of_idle (by rwa [modCluster_busy]) (by rw [modCluster_same]; exact DomainState.noConfusion)
  · exact clusterFollows_of_idle (by rwa [modCluster_busy]) (by rw [modCluster_same]; exact hactive)
  · exact clusterFollows_of_idle hb hactive

/-- `clusterFollows` of a cluster reads its entry and its work, and nothing else. -/
theorem clusterFollows_congr {s t : State} {cl : Nat} (hb : clusterBusy t cl = clusterBusy s cl) (hc : clusterOf t cl = clusterOf s cl)
    (h : clusterFollows s cl) : clusterFollows t cl := by
  unfold clusterFollows at h ⊢
  rwa [hb, hc]

theorem settleCluster_clusterFollows_other {cl j : Nat} {s : State} (hj : j ≠ cl) (h : clusterFollows s j) :
    clusterFollows (settleCluster cl s) j :=
  clusterFollows_congr (settleCluster_busy cl j s) (settleCluster_other cl j s hj) h

theorem foldClusters_keeps {l : List Nat} {j : Nat} {s : State} (h : clusterFollows s j) :
    clusterFollows (l.foldl (fun s cl => settleCluster cl s) s) j := by
  induction l generalizing s with
  | nil => exact h
  | cons cl l ih =>
    refine ih ?_
    by_cases hj : j = cl
    · subst hj; exact settleCluster_clusterFollows j s
    · exact settleCluster_clusterFollows_other hj h

theorem foldClusters_clusterFollows {l : List Nat} {j : Nat} (hj : j ∈ l) (s : State) :
    clusterFollows (l.foldl (fun s cl => settleCluster cl s) s) j := by
  induction l generalizing s with
  | nil => cases hj
  | cons cl l ih =>
    cases hj with
    | head => exact foldClusters_keeps (s := settleCluster j s) (settleCluster_clusterFollows j s)
    | tail _ hj => exact ih hj _

/-- Whatever came before, a settled state meets the invariant. -/
theorem settle_inv (s : State) : Inv (settle s) := by
  unfold settle
  generalize (if quiet s then s else settlePasses (4 * s.q.cmds.length + 8) s) = x
  have hcl : ∀ cl < 24, clusterFollows (settleClusters x) cl := fun cl hcl =>
    foldClusters_clusterFollows (List.mem_range.mpr hcl) x
  generalize settleClusters x = y at hcl ⊢
  exact ⟨rfl, fun cl h => clusterFollows_congr rfl rfl (hcl cl h)⟩

/-- Time passing concerns neither the pin nor a cluster. -/
theorem tick_inv {s : State} (h : Inv s) : Inv (tick s) := h

theorem step_of_pending {s : State} {c : Instr} {rest : List Instr} (h : s.pending = c :: rest) :
    step s = exec c { s with pending := rest } := by
  unfold step
  rw [h]

theorem step_of_idle {s : State} (h : s.pending = []) : step s = .next (tick s) := by
  unfold step
  rw [h]

/-- Settles O7: a command's result is a settled state, which has the invariant; an idle step is a tick, which keeps it. -/
theorem stepKeepsInv : Obligations.StepKeepsInv := by
  unfold Obligations.StepKeepsInv
  intro s t hinv hstep
  cases hp : s.pending with
  | nil =>
    rw [step_of_idle hp] at hstep
    cases hstep
    exact tick_inv hinv
  | cons c rest =>
    rw [step_of_pending hp] at hstep
    obtain ⟨x, hx⟩ := exec_settled c { s with pending := rest }
    rw [hx, Host.Outcome.next.injEq] at hstep
    rw [← hstep]
    exact settle_inv x

/-- Settles O8, by the frame of settling a quiet state. -/
theorem settlingFrame : Obligations.SettlingFrame := by
  unfold Obligations.SettlingFrame
  intro s hq
  have h := settle_of_quiet hq
  generalize settle s = t at h ⊢
  generalize (settleClusters s).pwr.clusters = c at h
  subst h
  rfl

/-- Settles O6: nothing is listed at reset, and the clusters start idle. -/
theorem resetInv : Obligations.ResetInv := by
  unfold Obligations.ResetInv
  refine ⟨rfl, fun cl _ => clusterFollows_of_idle ?_ ?_⟩
  · unfold clusterBusy
    split <;> exact Bool.false_ne_true
  · exact DomainState.noConfusion

/-- Settles O1, by the front of the queue. -/
theorem stepRunsFront : Obligations.StepRunsFront := by
  unfold Obligations.StepRunsFront
  intro c rest s hp
  exact step_of_pending hp

/-- Settles O2: the step of an empty queue is a tick. -/
theorem idleStep : Obligations.IdleStep := by
  unfold Obligations.IdleStep
  intro s hp
  rw [step_of_idle hp]
  rfl

/-- Settles O3, by the empty decoder. -/
theorem tableWords : Obligations.TableWords := by
  unfold Obligations.TableWords
  intro nbits w s
  exact ⟨rfl, rfl⟩

/-- Settles O4: the result of every command is a settled state. -/
theorem everyCommandAnswers : Obligations.EveryCommandAnswers := by
  unfold Obligations.EveryCommandAnswers
  intro c s
  obtain ⟨x, hx⟩ := exec_settled c s
  exact ⟨settle x, hx⟩

/-- Settles O5: every table of the reset state is empty, so each entry reads its default. -/
theorem resetValues : Obligations.ResetValues := by
  unfold Obligations.ResetValues
  exact ⟨rfl, rfl, fun _ => rfl, fun _ => ⟨rfl, rfl, rfl⟩, fun _ _ => rfl, fun _ => rfl, fun _ => rfl, fun _ => rfl,
    rfl, rfl, rfl, rfl⟩

end Sys2Proof.Machine

/-!
The bytes of the tray, statuses, the order of dispatch, combined fetch-adds, the recorder and the completion entry.
-/

namespace Sys2Proof.Machine

/-! ### Bytes of a line (R70, R75) -/

theorem setBytes_get_other (base a : Nat) (bytes : List (Nat × Byte)) (s : State) (h : ∀ e ∈ bytes, a ≠ base * 64 + e.1) :
    tabGet (bytes.foldl (fun s b => setByte (base * 64 + b.1) b.2 s) s).mem.bytes 0 a = tabGet s.mem.bytes 0 a := by
  induction bytes generalizing s with
  | nil => rfl
  | cons b bytes ih =>
    rw [List.foldl_cons, ih _ fun e he => h e (List.mem_cons_of_mem _ he)]
    exact setByte_get_other s _ _ _ (h b List.mem_cons_self)

theorem setBytes_get_same (base o : Nat) (v : Byte) (bytes : List (Nat × Byte)) (s : State) (hn : (bytes.map (·.1)).Nodup)
    (h : (o, v) ∈ bytes) :
    tabGet (bytes.foldl (fun s b => setByte (base * 64 + b.1) b.2 s) s).mem.bytes 0 (base * 64 + o) = v := by
  induction bytes generalizing s with
  | nil => cases h
  | cons b bytes ih =>
    rw [List.map_cons, List.nodup_cons] at hn
    obtain ⟨hfresh, hn⟩ := hn
    rw [List.foldl_cons]
    cases h with
    | tail _ h => exact ih _ hn h
    | head =>
      rw [setBytes_get_other]
      · exact setByte_get_same s _ _
      · intro e he heq
        have ho : e.1 = o := by omega
        exact hfresh (List.mem_map.mpr ⟨e, he, ho⟩)

/-- What a home can serve it writes byte by byte; the rest of the write is poison, seals and counters (Table 7.3). -/
theorem writeLineBytes_bytes {line : Nat} {s : State} (bytes : List (Nat × Byte)) (poison : Bool) (h : lineDead s (line * 64) = false) :
    (writeLineBytes line bytes poison s).1.mem.bytes
      = (bytes.foldl (fun t b => setByte (cellOf s (line * 64) / 64 * 64 + b.1) b.2 t) s).mem.bytes := by
  unfold writeLineBytes
  dsimp only
  rw [if_neg (by rw [h]; exact Bool.false_ne_true)]
  split_ifs <;> rfl

theorem writeLineBytes_dead {line : Nat} {s : State} (bytes : List (Nat × Byte)) (poison : Bool) (h : lineDead s (line * 64) = true) :
    writeLineBytes line bytes poison s = (bumpResil ((polderAt s (line * 64)).getD 64) 0x48 1 s, .poisoned) := by
  unfold writeLineBytes
  dsimp only
  rw [if_pos h]

/-- Settles O9, by the lemmas on each operation's canonical form. -/
theorem memoryCanonical : Obligations.MemoryCanonical := by
  unfold Obligations.MemoryCanonical
  refine ⟨?_, ?_, ?_, ?_, reset_wf⟩
  · intro cell b s h
    exact setByte_wf cell b h
  · intro line bytes poison s h
    exact ⟨writeLineBytes_wf line bytes poison h, homeWrite_wf line bytes poison h⟩
  · intro a len l s h
    exact ⟨openUnit_wf a h, unmapUnits_wf l h, zeroTpa_wf a len h⟩
  · intro w s h
    exact ⟨undoWrite_wf w h, afterDeviceReset_wf h, afterTerpReset_wf h⟩

/-- Settles O10: a live line is written byte by byte, a dead one not at all. -/
theorem memoryReadsBack : Obligations.MemoryReadsBack := by
  unfold Obligations.MemoryReadsBack
  refine ⟨?_, ?_, ?_⟩
  · intro line a bytes poison s ha
    cases hd : lineDead s (line * 64) with
    | true => rw [writeLineBytes_dead bytes poison hd, bumpResil_mem]
    | false =>
      rw [writeLineBytes_bytes bytes poison hd]
      exact setBytes_get_other _ a bytes s ha
  · intro line o b bytes poison s hd hn hb
    rw [writeLineBytes_bytes bytes poison hd]
    exact setBytes_get_same _ o b bytes s hn hb
  · intro line bytes poison s hd
    rw [writeLineBytes_dead bytes poison hd]
    exact ⟨bumpResil_mem _ _ _ _, rfl⟩

/-! ### Statuses (R378, R379) -/

theorem statusJoin_mem (a b : Status) : statusJoin a b = a ∨ statusJoin a b = b := by
  unfold statusJoin
  split_ifs
  · exact .inl rfl
  · exact .inr rfl

theorem statusRank_statusJoin (a b : Status) : statusRank (statusJoin a b) = min (statusRank a) (statusRank b) := by
  unfold statusJoin
  split_ifs with h
  · exact (Nat.min_eq_left h).symm
  · exact (Nat.min_eq_right (Nat.le_of_not_le h)).symm

theorem foldl_statusJoin_mem (l : List Status) (a : Status) : l.foldl statusJoin a ∈ a :: l := by
  induction l generalizing a with
  | nil => exact List.mem_singleton_self a
  | cons b l ih =>
    have h := ih (statusJoin a b)
    rw [List.foldl_cons]
    rw [List.mem_cons] at h
    rcases h with h | h
    · rw [h]
      rcases statusJoin_mem a b with hj | hj <;> simp [hj]
    · exact List.mem_cons_of_mem _ (List.mem_cons_of_mem _ h)

theorem statusRank_foldl_le (l : List Status) (a : Status) :
    statusRank (l.foldl statusJoin a) ≤ statusRank a ∧ ∀ st ∈ l, statusRank (l.foldl statusJoin a) ≤ statusRank st := by
  induction l generalizing a with
  | nil => exact ⟨Nat.le_refl _, by simp⟩
  | cons b l ih =>
    obtain ⟨hj, hl⟩ := ih (statusJoin a b)
    rw [statusRank_statusJoin] at hj
    refine ⟨le_trans hj (Nat.min_le_left _ _), fun st hst => ?_⟩
    rw [List.mem_cons] at hst
    rcases hst with rfl | hst
    · exact le_trans hj (Nat.min_le_right _ _)
    · exact hl st hst

/-- A sole status that is decided stands. -/
theorem foldl_statusJoin_of_sole (l : List Status) {a : Status} (h : statusRank a = 0) : l.foldl statusJoin a = a := by
  induction l with
  | nil => rfl
  | cons b l ih =>
    have hj : statusJoin a b = a := if_pos (by omega)
    rw [List.foldl_cons, hj, ih]

theorem foldl_statusJoin_find_sole (l : List Status) {a st : Status} (ha : statusRank a ≠ 0) (h : l.find? statusSole = some st) :
    l.foldl statusJoin a = st := by
  induction l generalizing a with
  | nil => cases h
  | cons b l ih =>
    rw [List.foldl_cons]
    by_cases hb : statusRank b = 0
    · have hj : statusJoin a b = b := if_neg (by omega)
      have hs : b = st := by simpa [statusSole, hb] using h
      rw [hj, foldl_statusJoin_of_sole l hb, hs]
    · refine ih ?_ (by simpa [statusSole, hb] using h)
      rw [statusRank_statusJoin]
      omega

/-- Settles O13: a join takes the lower rank, the first decided of equals. -/
theorem statusRank_holds : Obligations.StatusRank := by
  unfold Obligations.StatusRank
  refine ⟨?_, ?_⟩
  · intro l _
    exact ⟨foldl_statusJoin_mem l .ok, (statusRank_foldl_le l .ok).2⟩
  · intro l st h
    exact foldl_statusJoin_find_sole l (by decide) h

/-! ### The order of dispatch (R347) -/

theorem before_eq_false_iff (a b : Cmd) :
    before a b = false ↔ hdrPrio a.words < hdrPrio b.words ∨ (hdrPrio a.words = hdrPrio b.words ∧ b.serial ≤ a.serial) := by
  simp only [before, Bool.or_eq_false_iff, Bool.and_eq_false_iff, decide_eq_false_iff_not]
  omega

theorem before_eq_true_iff (a b : Cmd) :
    before a b = true ↔ hdrPrio b.words < hdrPrio a.words ∨ (hdrPrio a.words = hdrPrio b.words ∧ a.serial < b.serial) := by
  simp [before]

/-- Fetched commands that SCH may dispatch. -/
def readyCmds (s : State) : List Cmd := s.q.cmds.filter fun c => c.waiting && dispatchable s c && !ownRow c.opcode

theorem mem_readyCmds {s : State} {c : Cmd} :
    c ∈ readyCmds s ↔ c ∈ s.q.cmds ∧ c.waiting = true ∧ dispatchable s c = true ∧ ownRow c.opcode = false := by
  simp [readyCmds, and_assoc]

/-- Of the best so far and a command, the one that goes first. -/
def betterCmd (best : Option Cmd) (c : Cmd) : Option Cmd :=
  match best with
  | none => some c
  | some b => some (if before c b then c else b)

theorem nextDispatch_eq (s : State) : nextDispatch s = (readyCmds s).foldl betterCmd none := rfl

/-- A search that has a best so far ends with one that no command seen goes before. -/
theorem foldl_betterCmd_some (l : List Cmd) (b : Cmd) :
    ∃ c, l.foldl betterCmd (some b) = some c ∧ c ∈ b :: l ∧ before b c = false ∧ ∀ d ∈ l, before d c = false := by
  induction l generalizing b with
  | nil => exact ⟨b, rfl, List.mem_singleton_self b, (before_eq_false_iff b b).mpr (.inr ⟨rfl, Nat.le_refl _⟩), by simp⟩
  | cons e l ih =>
    obtain ⟨c, hc, hmem, hbest, hall⟩ := ih (if before e b then e else b)
    rw [List.foldl_cons]
    refine ⟨c, hc, ?_⟩
    by_cases he : before e b = true
    · rw [if_pos he] at hmem hbest
      have hb : before b c = false := by
        rw [before_eq_false_iff] at hbest ⊢
        rw [before_eq_true_iff] at he
        omega
      exact ⟨List.mem_cons_of_mem _ hmem, hb, List.forall_mem_cons.mpr ⟨hbest, hall⟩⟩
    · rw [if_neg he] at hmem hbest
      have hec : before e c = false := by
        rw [Bool.not_eq_true, before_eq_false_iff] at he
        rw [before_eq_false_iff] at hbest ⊢
        omega
      refine ⟨?_, hbest, List.forall_mem_cons.mpr ⟨hec, hall⟩⟩
      rw [List.mem_cons] at hmem ⊢
      exact hmem.imp_right (List.mem_cons_of_mem _)

theorem nextDispatch_some {s : State} {c : Cmd} (h : nextDispatch s = some c) :
    c ∈ readyCmds s ∧ ∀ d ∈ readyCmds s, before d c = false := by
  rw [nextDispatch_eq] at h
  cases hl : readyCmds s with
  | nil => rw [hl] at h; cases h
  | cons b l =>
    rw [hl, List.foldl_cons] at h
    obtain ⟨c', hc, hmem, hb, hall⟩ := foldl_betterCmd_some l b
    cases h.symm.trans hc
    exact ⟨hmem, List.forall_mem_cons.mpr ⟨hb, hall⟩⟩

theorem nextDispatch_none {s : State} (h : nextDispatch s = none) : readyCmds s = [] := by
  rw [nextDispatch_eq] at h
  cases hl : readyCmds s with
  | nil => rfl
  | cons b l =>
    rw [hl, List.foldl_cons] at h
    obtain ⟨c, hc, -⟩ := foldl_betterCmd_some l b
    cases h.symm.trans hc

/-- Settles O14: the search keeps the command that no other goes before. -/
theorem dispatchOrder : Obligations.DispatchOrder := by
  unfold Obligations.DispatchOrder
  refine ⟨?_, ?_⟩
  · intro s c h
    obtain ⟨hmem, hall⟩ := nextDispatch_some h
    refine ⟨mem_readyCmds.mp hmem, fun d hd hw hr ho => ?_⟩
    have hdc := (before_eq_false_iff d c).mp (hall d (mem_readyCmds.mpr ⟨hd, hw, hr, ho⟩))
    exact hdc.imp_right fun ⟨hp, hs⟩ => ⟨hp, hs⟩
  · intro s d h hd
    have hnot : d ∉ readyCmds s := by rw [nextDispatch_none h]; exact List.not_mem_nil
    rw [mem_readyCmds] at hnot
    simp only [hd, true_and, not_and, Bool.not_eq_false] at hnot
    cases hw : d.waiting with
    | false => exact .inl rfl
    | true =>
      cases hr : dispatchable s d with
      | false => exact .inr (.inl rfl)
      | true => exact .inr (.inr (hnot hw hr))

/-! ### Combined fetch-adds (R188) -/

theorem answerMembers_cons (bytes line old : Nat) (bad tag : Bool) (asker : Asker) (addend : Nat) (rest : List (Asker × Nat)) (s : State) :
    answerMembers bytes line old bad tag ((asker, addend) :: rest) s =
      answerMembers bytes line (if bad then 0 else (old + addend) % 2 ^ (8 * bytes)) bad tag rest (atomicAnswer asker line old bad tag s) := rfl

/-- The members behind `bef` start from the old value plus the addends of `bef`. -/
theorem answerMembers_append (bytes line : Nat) (tag : Bool) (bef rest : List (Asker × Nat)) {old : Nat} (s : State)
    (h : old < 2 ^ (8 * bytes)) :
    answerMembers bytes line old false tag (bef ++ rest) s =
      answerMembers bytes line ((old + (bef.map (·.2)).sum) % 2 ^ (8 * bytes)) false tag rest (answerMembers bytes line old false tag bef s) := by
  induction bef generalizing old s with
  | nil => rw [List.map_nil, List.sum_nil, Nat.add_zero, Nat.mod_eq_of_lt h]; rfl
  | cons m bef ih =>
    obtain ⟨asker, addend⟩ := m
    rw [List.cons_append, answerMembers_cons, answerMembers_cons, if_neg Bool.false_ne_true,
      ih _ (Nat.mod_lt _ (Nat.two_pow_pos _)), List.map_cons, List.sum_cons, Nat.mod_add_mod, Nat.add_assoc]

/-- In a batch that met poison the members behind the first read 0. -/
theorem answerMembers_append_bad (bytes line old : Nat) (tag : Bool) (bef rest : List (Asker × Nat)) (s : State) (h : bef ≠ []) :
    answerMembers bytes line old true tag (bef ++ rest) s =
      answerMembers bytes line 0 true tag rest (answerMembers bytes line old true tag bef s) := by
  induction bef generalizing old s with
  | nil => exact absurd rfl h
  | cons m bef ih =>
    obtain ⟨asker, addend⟩ := m
    rw [List.cons_append, answerMembers_cons, answerMembers_cons, if_pos rfl]
    cases bef with
    | nil => rfl
    | cons m' bef => exact ih 0 _ (List.cons_ne_nil _ _)

/-- Settles O15, by what the members before one leave for it. -/
theorem batchAnswers : Obligations.BatchAnswers := by
  unfold Obligations.BatchAnswers
  refine ⟨?_, ?_, ?_⟩
  · intro b s h
    unfold sendBatch sendFetchAdd
    rw [if_neg h]
  · intro bytes line old tag bef rest asker addend s h
    rw [answerMembers_append bytes line tag bef _ s h, answerMembers_cons, if_neg Bool.false_ne_true, Nat.mod_add_mod]
  · intro bytes line old tag bef rest asker addend s h
    rw [answerMembers_append_bad bytes line old tag bef _ s h, answerMembers_cons, if_pos rfl]

/-! ### The recorder (R454, R456) -/

theorem raiseIrq_recorder (n : Nat) (s : State) : (raiseIrq n s).recorder = s.recorder := by rw [raiseIrq_frame]

theorem putRecord_true_recorder (e : Record) (s : State) :
    (putRecord true e s).recorder = storePersistent (storeVolatile s.recorder e) e := by
  unfold putRecord
  exact raiseIrq_recorder 6 _

theorem putRecord_false_recorder (e : Record) (s : State) : (putRecord false e s).recorder = storeVolatile s.recorder e := by
  unfold putRecord
  dsimp only
  rw [if_neg Bool.false_ne_true]

/-- The volatile part takes a record alike, whether or not the persistent part takes it. -/
theorem putRecord_volatile (persist : Bool) (e : Record) (s : State) :
    (putRecord persist e s).recorder.entries = (storeVolatile s.recorder e).entries
      ∧ (putRecord persist e s).recorder.frozenDrops = (storeVolatile s.recorder e).frozenDrops
      ∧ (putRecord persist e s).recorder.fullDrops = (storeVolatile s.recorder e).fullDrops := by
  cases persist with
  | false => rw [putRecord_false_recorder]; exact ⟨rfl, rfl, rfl⟩
  | true => rw [putRecord_true_recorder, storePersistent]; exact ⟨rfl, rfl, rfl⟩

theorem storeVolatile_persistent (r : RecSt) (e : Record) : (storeVolatile r e).persistent = r.persistent := by
  unfold storeVolatile
  split_ifs <;> rfl

theorem storeVolatile_frozen {r : RecSt} (e : Record) (h : r.frozen = true) :
    storeVolatile r e = { r with frozenDrops := satAdd 32 r.frozenDrops 1, frozenSince := satAdd 32 r.frozenSince 1 } := if_pos h

theorem storeVolatile_room {r : RecSt} (e : Record) (h : r.frozen = false) (hn : r.entries.length < 65536) :
    storeVolatile r e = { r with entries := r.entries ++ [e] } := by
  unfold storeVolatile
  rw [if_neg (by rw [h]; exact Bool.false_ne_true), if_neg (Nat.not_le.mpr hn)]

theorem storeVolatile_full {r : RecSt} (e : Record) (h : r.frozen = false) (hn : 65536 ≤ r.entries.length) :
    storeVolatile r e = { r with fullDrops := satAdd 32 r.fullDrops 1, fullSince := satAdd 32 r.fullSince 1 } := by
  unfold storeVolatile
  rw [if_neg (by rw [h]; exact Bool.false_ne_true), if_pos hn]

theorem length_lastN_le {α : Type} (n : Nat) (l : List α) : (lastN n l).length ≤ n := by
  rw [lastN, List.length_drop]
  omega

/-- Settles O16: the volatile part by its three states, the persistent part by the newest it keeps. -/
theorem recorderStores : Obligations.RecorderStores := by
  unfold Obligations.RecorderStores
  refine ⟨?_, ?_, ?_, ?_, ?_⟩
  · intro persist e s h
    obtain ⟨h1, h2, h3⟩ := putRecord_volatile persist e s
    rw [h1, h2, h3, storeVolatile_frozen e h]
    exact ⟨rfl, rfl, rfl⟩
  · intro persist e s h hn
    obtain ⟨h1, h2, h3⟩ := putRecord_volatile persist e s
    rw [h1, h2, h3, storeVolatile_room e h hn]
    exact ⟨rfl, rfl, rfl⟩
  · intro persist e s h hn
    obtain ⟨h1, h2, h3⟩ := putRecord_volatile persist e s
    rw [h1, h2, h3, storeVolatile_full e h hn]
    exact ⟨rfl, rfl, rfl⟩
  · intro e s
    have hp : (putRecord true e s).recorder.persistent = lastN 4096 (s.recorder.persistent ++ [e]) := by
      rw [putRecord_true_recorder, storePersistent, storeVolatile_persistent]
    rw [hp]
    refine ⟨?_, fun _ => length_lastN_le 4096 _⟩
    rw [lastN, List.length_append, List.length_singleton]
  · intro e s
    rw [putRecord_false_recorder, storeVolatile_persistent]

/-! ### The completion entry (R351, Table 17.8) -/

theorem statusCode_lt (st : Status) : statusCode st < 2 ^ 16 := by
  cases st <;> decide

theorem srcQueue_lt (src : Src) : (srcQueue src).getD 0 < 2 ^ 8 := by
  cases src with
  | data p l qp => exact qp.isLt
  | admin p l => exact Nat.two_pow_pos 8
  | tunnel => decide
  | jtag => decide
  | crown run core => exact Nat.two_pow_pos 8

/-- An entry of the admin queue or the tunnel carries the mark of Table 17.8. -/
def adminMark (src : Src) : Bool := match src with | .admin _ _ | .tunnel => true | _ => false

/-- The words of an entry as numbers. -/
theorem wordAt_entryWords (src : Src) (op cid : Nat) (r : Result) :
    wordAt (entryWords src op cid r) 0 = r.value % 2 ^ 32 ∧
    wordAt (entryWords src op cid r) 1 = r.value / 2 ^ 32 % 2 ^ 32 ∧
    wordAt (entryWords src op cid r) 2 = r.faultDva % 2 ^ 32 ∧
    wordAt (entryWords src op cid r) 3 = r.faultDva / 2 ^ 32 % 2 ^ 20 ∧
    wordAt (entryWords src op cid r) 4 = (if adminMark src then 2 ^ 24 else 0) + (srcQueue src).getD 0 * 2 ^ 16 ∧
    wordAt (entryWords src op cid r) 5 = (min r.faultTiles 0xFFFF * 2 ^ 16 + cid) % 2 ^ 32 ∧
    wordAt (entryWords src op cid r) 6 = statusCode r.status * 2 ^ 16 + (if r.digested then 1 else 0) ∧
    wordAt (entryWords src op cid r) 7 = op * 2 ^ 8 % 2 ^ 32 := by
  have hst := statusCode_lt r.status
  have hq := srcQueue_lt src
  have h3 : wordAt (entryWords src op cid r) 3 = r.faultDva / 2 ^ 32 % 2 ^ 20 % 2 ^ 32 := by
    simp [wordAt, entryWords, bits, Nat.shiftRight_eq_div_pow]
  have h4 : wordAt (entryWords src op cid r) 4 = ((if adminMark src then 2 ^ 24 else 0) + (srcQueue src).getD 0 * 2 ^ 16) % 2 ^ 32 :=
    BitVec.toNat_ofNat _ _
  have h6 : wordAt (entryWords src op cid r) 6 = (statusCode r.status * 2 ^ 16 + (if r.digested then 1 else 0)) % 2 ^ 32 := by
    simp [wordAt, entryWords]
  refine ⟨?_, ?_, ?_, ?_, ?_, ?_, ?_, ?_⟩
  · simp [wordAt, entryWords]
  · simp [wordAt, entryWords]
  · simp [wordAt, entryWords]
  · rw [h3]; omega
  · rw [h4]; split_ifs <;> omega
  · simp [wordAt, entryWords]
  · rw [h6]; split_ifs <;> omega
  · simp [wordAt, entryWords]

theorem bits_eq (v hi lo : Nat) : bits v hi lo = v / 2 ^ lo % 2 ^ (hi + 1 - lo) := by
  rw [bits, Nat.shiftRight_eq_div_pow]

/-- Settles O18: each field of Table 17.8 reads back from the word it was put in. -/
theorem completionWords : Obligations.CompletionWords := by
  unfold Obligations.CompletionWords
  rintro src op cid r w ⟨hv, hd, hc, ho⟩ rfl
  obtain ⟨h0, h1, h2, h3, h4, h5, h6, h7⟩ := wordAt_entryWords src op cid r
  have hst := statusCode_lt r.status
  have hq := srcQueue_lt src
  refine ⟨rfl, ?_, ?_, ?_, ?_, ?_, ?_, ?_, ?_, ?_⟩
  · simp only [word64, wideAt, h0, h1]
    omega
  · simp only [word64, wideAt, h2, h3]
    omega
  · rw [field, bits_eq, h4]
    split_ifs <;> omega
  · rw [flag, h4, Nat.testBit_eq_decide_div_mod_eq]
    change _ = adminMark src
    cases adminMark src <;> simp <;> omega
  · rw [field, bits_eq, h5]
    omega
  · rw [field, bits_eq, h5]
    omega
  · rw [field, bits_eq, h6]
    split_ifs <;> omega
  · rw [flag, h6, Nat.testBit_eq_decide_div_mod_eq]
    cases r.digested <;> simp <;> omega
  · rw [field, bits_eq, h7]
    omega

end Sys2Proof.Machine

/-!
The rows of items: a waiting command is dispatched, and its meaning runs on a state that differs by the dispatch alone.
-/

namespace Sys2Proof.Machine

/-- Equal effects settle alike. -/
theorem next_settle {x y : State} (h : x = y) :
    (.next (settle x) : Host.Outcome State Fault Refusal) = .next (settle y) := by rw [h]

/-- The row of an item whose command waits answers what the command's meaning makes of the dispatched state. -/
theorem exec_item {op : Nat} {it : Item} {s y : State} {c : Cmd} {i : Instr} {body : Cmd → State → State} (h : Waits op it s c)
    (hi : exec i s = .next (settle (runItem op it body s))) (hy : body (started s c) (dispatchCmd c.serial s) = y) :
    exec i s = .next (settle y) := by
  rw [hi, runItem_waiting body h, hy]

@[simp] theorem started_serial (s : State) (c : Cmd) : (started s c).serial = c.serial := rfl
@[simp] theorem started_words (s : State) (c : Cmd) : (started s c).words = c.words := rfl
@[simp] theorem started_src (s : State) (c : Cmd) : (started s c).src = c.src := rfl
@[simp] theorem started_host (s : State) (c : Cmd) : (started s c).host = c.host := rfl
@[simp] theorem started_opcode (s : State) (c : Cmd) : (started s c).opcode = c.opcode := rfl
@[simp] theorem started_cid (s : State) (c : Cmd) : (started s c).cid = c.cid := rfl
@[simp] theorem started_tcx (s : State) (c : Cmd) : (started s c).tcx = c.tcx := rfl
@[simp] theorem started_polder (s : State) (c : Cmd) : (started s c).polder = c.polder := rfl
@[simp] theorem started_phase (s : State) (c : Cmd) : (started s c).phase = c.phase := rfl
@[simp] theorem started_value (s : State) (c : Cmd) : (started s c).value = c.value := rfl
@[simp] theorem started_waiting (s : State) (c : Cmd) : (started s c).waiting = false := rfl
@[simp] theorem started_modes (s : State) (c : Cmd) : (started s c).modes = (polderOf s c.polder).modes := rfl
@[simp] theorem started_arith (s : State) (c : Cmd) : (started s c).arith = s.fw.running.manifest.arith := rfl

@[simp] theorem modCmd_sluices (k : Nat) (f : Cmd → Cmd) (s : State) : (modCmd k f s).q.sluices = s.q.sluices := rfl

@[simp] theorem dispatchCmd_sluices (k : Nat) (s : State) : (dispatchCmd k s).q.sluices = s.q.sluices := rfl

@[simp] theorem polderOf_dispatchCmd (k p : Nat) (s : State) : polderOf (dispatchCmd k s) p = polderOf s p := rfl
@[simp] theorem tcxOf_dispatchCmd (k t : Nat) (s : State) : tcxOf (dispatchCmd k s) t = tcxOf s t := rfl
@[simp] theorem hitOf_dispatchCmd (k h : Nat) (s : State) : hitOf (dispatchCmd k s) h = hitOf s h := rfl
@[simp] theorem findSluice_dispatchCmd (k ix : Nat) (s : State) : findSluice (dispatchCmd k s) ix = findSluice s ix := rfl
@[simp] theorem nandOf_dispatchCmd (k n : Nat) (s : State) : nandOf (dispatchCmd k s) n = nandOf s n := rfl
@[simp] theorem segOf_dispatchCmd (k t n : Nat) (s : State) : segOf (dispatchCmd k s) t n = segOf s t n := rfl

/-! A change of a sluice leaves the other queues' state alone. -/

@[simp] theorem modSluice_bound (ix : Nat) (f : Sluice → Sluice) (s : State) : (modSluice ix f s).q.bound = s.q.bound := by
  unfold modSluice; split <;> rfl
@[simp] theorem modSluice_cmds (ix : Nat) (f : Sluice → Sluice) (s : State) : (modSluice ix f s).q.cmds = s.q.cmds := by
  unfold modSluice; split <;> rfl
@[simp] theorem modSluice_next (ix : Nat) (f : Sluice → Sluice) (s : State) : (modSluice ix f s).q.next = s.q.next := by
  unfold modSluice; split <;> rfl
@[simp] theorem modSluice_intakeHeld (ix : Nat) (f : Sluice → Sluice) (s : State) : (modSluice ix f s).q.intakeHeld = s.q.intakeHeld := by
  unfold modSluice; split <;> rfl
@[simp] theorem modSluice_captured (ix : Nat) (f : Sluice → Sluice) (s : State) : (modSluice ix f s).q.captured = s.q.captured := by
  unfold modSluice; split <;> rfl
@[simp] theorem modSluice_tunnelBusy (ix : Nat) (f : Sluice → Sluice) (s : State) : (modSluice ix f s).q.tunnelBusy = s.q.tunnelBusy := by
  unfold modSluice; split <;> rfl
@[simp] theorem modSluice_discarded (ix : Nat) (f : Sluice → Sluice) (s : State) : (modSluice ix f s).q.discarded = s.q.discarded := by
  unfold modSluice; split <;> rfl
@[simp] theorem modSluice_portHeld (ix : Nat) (f : Sluice → Sluice) (s : State) : (modSluice ix f s).q.portHeld = s.q.portHeld := by
  unfold modSluice; split <;> rfl
@[simp] theorem modSluice_creator (ix : Nat) (f : Sluice → Sluice) (s : State) : (modSluice ix f s).q.creator = s.q.creator := by
  unfold modSluice; split <;> rfl

end Sys2Proof.Machine

/-!
The admin commands of the interface and the recorder (chapters 17, 18 and 23).
-/

namespace Sys2Proof.Machine

/-- Settles O46, command by command. -/
theorem adminRows : Obligations.AdminRows := by
  unfold Obligations.AdminRows
  refine ⟨?_, ?_, ?_, ?_, ?_, ?_, ?_, ?_, ?_, ?_, ?_, ?_⟩
  · intro it s c hw hcns hn hgrant halign hhpa
    refine exec_item hw rfl ?_
    have hzero : (if c.src = .jtag then decide (word64 c.words 4 = 0)
        else decide (word64 c.words 4 ≠ 0) || hpaCarried c.src (word64 c.words 4)) = true := by
      split_ifs at hhpa ⊢ <;> simpa using hhpa
    refine (if_neg ?_).trans (if_neg ?_)
    · rintro (h | h | h | h)
      · exact h halign
      · exact Bool.false_ne_true (h.symm.trans hzero)
      · exact Nat.not_lt.mpr hcns h
      · exact hn.elim h.1 h.2
    · rintro ⟨h2, hm, hb⟩
      rw [Bool.not_eq_true'] at hm hb
      rcases hgrant h2 with h | h
      · exact Bool.false_ne_true (hm.symm.trans h)
      · exact Bool.false_ne_true (hb.symm.trans h)
  · intro it s c hw hle hfit
    refine exec_item hw rfl ?_
    simp [versionHandshakeBody, Nat.not_lt.mpr hle, hfit]
  · intro it s c hw hle hfit
    refine exec_item hw rfl ?_
    simp [versionHandshakeBody, Nat.not_lt.mpr hle, hfit]
  · intro it s c ix sl hw hix hsl hnone hok
    refine exec_item hw rfl ?_
    simp [qpCreateBody, hix, hsl, hnone, hok]
  · intro it s c ix sl hw hix hsl hsome
    refine exec_item hw rfl ?_
    simp [qpCreateBody, hix, hsl, hsome]
  · intro it s c ix hw hix hring
    refine exec_item hw rfl ?_
    simp [qpFlushBody, hix, Option.isSome_iff_ne_none.mp hring]
  · intro it s c ix r hw hix hring hdel
    refine exec_item hw rfl ?_
    simp [qpDeleteBody, hix, hring, hdel]
  · intro c s ix r hix hring hnone
    simp only [deletePair, hix, hring, Option.getD_some, hnone]
    simp
  · intro it s c hw
    exact exec_item hw rfl rfl
  · intro it s c hw hfr
    refine exec_item hw rfl ?_
    simp [recThawBody, hfr]
  · intro it s c hw hfr
    refine exec_item hw rfl ?_
    simp [recThawBody, hfr]
  · intro it s c hw hlo hhi hfit halign hhpa
    refine exec_item hw rfl ?_
    refine (if_neg ?_).trans ?_
    · rintro (h | h | h | h)
      · exact Nat.not_lt.mpr hlo h
      · exact Nat.not_lt.mpr hhi h
      · exact Nat.not_lt.mpr hfit h
      · exact h halign
    · simp [hhpa]

end Sys2Proof.Machine

/-!
Polders, hosts, tenant contexts and segments: what their commands do when they are dispatched (chapters 2, 3, 9, 16 and 18).
-/

namespace Sys2Proof.Machine

/-! ### Polders (R21 to R33, R328 to R335) -/

/-- What `POLDER_CREATE` asks of a request before its mode word (R29, R369). -/
theorem polderRequest_wellFormed {src : Src} {s : State} {q : PolderReq} (habs : (polderOf s q.number).state = .absent)
    (halign : q.ranges % 64 = 0) (hhpa : q.ranges ≠ 0 ∨ hpaCarried src q.ranges = true) (hfree : slicesFree s q = true)
    (hpools : (q.pools ||| q.cores) = q.cores) (hsome : q.ddr ≠ 0 ∨ q.nand ≠ 0 ∨ q.hbm ≠ 0 ∨ q.rows ≠ 0)
    (hrow : q.rowCache ≤ popcount 53 q.rows) :
    ¬((polderOf s q.number).state ≠ .absent
      ∨ (decide (q.ranges % 64 = 0) && (decide (q.ranges ≠ 0) || hpaCarried src q.ranges)) = false
      ∨ slicesFree s q = false ∨ (q.pools ||| q.cores) ≠ q.cores
      ∨ (q.ddr = 0 ∧ q.nand = 0 ∧ q.hbm = 0 ∧ q.rows = 0) ∨ q.rowCache > popcount 53 q.rows) := by
  have hok : (decide (q.ranges % 64 = 0) && (decide (q.ranges ≠ 0) || hpaCarried src q.ranges)) = true := by
    simpa [halign] using hhpa
  rintro (h | h | h | h | h | h)
  · exact h habs
  · exact Bool.false_ne_true (h.symm.trans hok)
  · exact Bool.false_ne_true (h.symm.trans hfree)
  · exact h hpools
  · obtain ⟨hd, hn, hh, hr⟩ := h
    exact hsome.elim (· hd) (·.elim (· hn) (·.elim (· hh) (· hr)))
  · exact Nat.not_lt.mpr hrow h

/-- An ABSENT polder neither drains nor is scrubbed. -/
theorem not_moving_of_absent {st : PolderState} (h : st = .absent) : ¬(st = .draining ∨ st = .scrubbing) := by
  rw [h]
  exact fun h => h.elim PolderState.noConfusion PolderState.noConfusion

/-- Settles O47, command by command. -/
theorem polderRows : Obligations.PolderRows := by
  unfold Obligations.PolderRows
  refine ⟨?_, ?_, ?_, ?_, ?_, ?_, ?_, ?_⟩
  · rintro it s c q p hw rfl habs halign hhpa hfree hpools hsome hrow hmask hbuild
    refine exec_item hw rfl ?_
    have hb : buildPolder (dispatchCmd c.serial s) (polderReq c.words) = some p := hbuild
    refine (if_neg (not_moving_of_absent habs)).trans
      ((if_neg (polderRequest_wellFormed habs halign hhpa hfree hpools hsome hrow)).trans ((if_neg (not_not.mpr hmask)).trans ?_))
    simp only [started_words, hb]
    rfl
  · rintro it s c q hw rfl habs halign hhpa hfree hpools hsome hrow hmask
    refine exec_item hw rfl ?_
    exact (if_neg (not_moving_of_absent habs)).trans
      ((if_neg (polderRequest_wellFormed habs halign hhpa hfree hpools hsome hrow)).trans (if_pos hmask))
  · rintro it s c n p hw rfl rfl habs hmoving hmask
    refine exec_item hw rfl ?_
    have hm : modeRefusal (dispatchCmd c.serial s) (field c.words 3 5 0) c.words = 0 := hmask
    refine (if_neg habs).trans ((if_neg ?_).trans ((if_neg (not_not.mpr hm)).trans rfl))
    rintro ⟨h, hd⟩
    rcases hmoving with h0 | ⟨h1, h2⟩
    · exact h h0
    · exact hd.elim h1 h2
  · intro it s c hw hlive hmask
    refine exec_item hw rfl ?_
    have hm : modeRefusal (dispatchCmd c.serial s) (field c.words 3 5 0) c.words = modeRefusal s (field c.words 3 5 0) c.words := rfl
    simp [polderModeSetBody, hlive, hm, hmask]
  · intro it s c hw hlive haction
    refine exec_item hw rfl ?_
    have h01 : field c.words 3 9 8 = 0 ∨ field c.words 3 9 8 = 1 := by omega
    rcases h01 with h | h <;> simp [polderDrainBody, hlive, h]
  · intro it s c hw hdrained haction
    refine exec_item hw rfl ?_
    simp [polderDrainBody, hdrained, haction]
  · rintro it s c p hw rfl hdrained haction hrealign
    refine exec_item hw rfl ?_
    simp only [polderDrainBody, started_words, polderOf_dispatchCmd, hdrained, haction, reopen, hrealign]
    simp
  · rintro it s c hw (h | h)
    · refine exec_item hw rfl ?_
      simp [polderDrainBody, h]
    · refine exec_item hw rfl ?_
      simp [polderDrainBody, h]

/-! ### Hosts and tenant contexts (R35 to R43, R180) -/

/-- Where no listed polder drains or is scrubbed, no polder does. -/
theorem polderOf_settled {s : State} (h : (s.polders.all fun e => decide (e.2.state ≠ .draining ∧ e.2.state ≠ .scrubbing)) = true) (p : Nat) :
    (polderOf s p).state ≠ .draining ∧ (polderOf s p).state ≠ .scrubbing := by
  unfold polderOf tabGet
  cases hf : tabFind s.polders p with
  | none => exact ⟨PolderState.noConfusion, PolderState.noConfusion⟩
  | some x => simpa using List.all_eq_true.mp h _ (tabFind_mem _ _ _ hf)

/-- Rates in their ranges are set at the four entry dies, with full buckets. -/
theorem policerSetBody_enable {c : Cmd} {s : State}
    (hheld : flag c.words 3 12 = true ∨ (tcxHeld s c.tcx = false ∧ field c.words 3 7 0 = 0)) (hen : flag c.words 3 31 = true)
    (hir : 1 ≤ wordAt c.words 4 ∧ wordAt c.words 4 ≤ wordAt c.words 5 ∧ wordAt c.words 5 ≤ 819200)
    (hbs : 1 ≤ wordAt c.words 6 ∧ wordAt c.words 6 ≤ wordAt c.words 7 ∧ wordAt c.words 7 ≤ 65536) :
    policerSetBody c s = finishWith c .ok 0 ((List.range 4).foldl (fun t d =>
      { t with
        weir := { t.weir with
          policers := tabPut t.weir.policers {} (4 * (if flag c.words 3 12 then 4096 + field c.words 3 7 0 else c.tcx) + d)
            { enable := true, cir := wordAt c.words 4, pir := wordAt c.words 5, cbs := wordAt c.words 6 * 1024
              pbs := wordAt c.words 7 * 1024, tc := wordAt c.words 6 * 1024000, tp := wordAt c.words 7 * 1024000
              last := s.time } } }) s) := by
  unfold policerSetBody
  rw [if_neg, if_neg]
  · simp only [hen, if_true]
  · simp only [hen, Bool.or_eq_true, Bool.and_eq_true, Bool.not_eq_true', decide_eq_true_eq, decide_eq_false_iff_not, true_and]
    rcases hheld with h | ⟨-, h⟩
    · simp only [h, Bool.true_eq_false, false_and, false_or]
      omega
    · omega
  · rcases hheld with h | ⟨h, -⟩ <;> simp [h]

/-- Settles O48, command by command. -/
theorem tenantRows : Obligations.TenantRows := by
  unfold Obligations.TenantRows
  refine ⟨?_, ?_, ?_, ?_, ?_, ?_⟩
  · rintro it s c hid t hw rfl hhid hok hsweep hsettled rfl
    refine exec_item hw rfl ?_
    refine (if_neg (not_not.mpr hhid)).trans ((if_neg ?_).trans ((if_neg ?_).trans rfl))
    · intro h
      rw [Bool.and_eq_true, Bool.not_eq_true'] at h
      exact Bool.false_ne_true (h.2.symm.trans (hok h.1))
    · rintro (h | ⟨-, h⟩)
      · exact Bool.false_ne_true (hsweep.symm.trans h)
      · obtain ⟨r, -, hr⟩ := List.any_eq_true.mp h
        rw [Bool.and_eq_true] at hr
        have hmoving := hr.2
        split at hmoving
        · next p _ =>
          obtain ⟨hd, hs⟩ := polderOf_settled hsettled p
          exact (of_decide_eq_true hmoving).elim hd hs
        · cases hmoving
  · intro it s c hw halign
    refine exec_item hw rfl ?_
    exact if_neg (not_not.mpr halign)
  · intro it s c ix hw hfree hlive hix
    refine exec_item hw rfl ?_
    have hix' : ∀ x, srcSluice (setTcx (hdrTcx c.words) x (dispatchCmd c.serial s)) c.src = some ix := fun _ => hix
    simp only [tenantCreateBody, started_words, started_src, tcxOf_dispatchCmd, polderOf_dispatchCmd, hfree, hlive, hix']
    simp
    rfl
  · intro it s c hw hfree hreset hdrain
    refine exec_item hw rfl ?_
    simp [tenantResetBody, hfree, hreset, hdrain]
  · intro it s c hw hreset hdrain
    refine exec_item hw rfl ?_
    simp [tenantResetBody, hreset, hdrain]
  · rintro it s c n p hw hheld hen hir hbs rfl rfl
    refine exec_item hw rfl ?_
    exact policerSetBody_enable (c := started s c) (s := dispatchCmd c.serial s) hheld hen hir hbs

/-! ### Segments (R48 to R54, R316) -/

/-- No bit of a mask of segments is set exactly where every segment passes the test. -/
theorem segMask_eq_zero_iff (p : Nat → Prop) [DecidablePred p] :
    (((List.range 16).filter fun n => decide (p n)).map fun n => 2 ^ n).sum = 0 ↔ ∀ n < 16, ¬ p n := by
  simp only [List.sum_eq_zero_iff, List.forall_mem_map, List.mem_filter, List.mem_range, decide_eq_true_eq, and_imp]
  exact forall_congr' fun n => forall_congr' fun _ => forall_congr' fun _ => iff_of_false (Nat.two_pow_pos n).ne' id

/-- Settles O49, command by command. -/
theorem segmentRows : Obligations.SegmentRows := by
  unfold Obligations.SegmentRows
  refine ⟨?_, ?_, ?_, ?_, ?_, ?_⟩
  · rintro it s c seg new g t hw rfl rfl rfl hheld hfree hbound hok hgen hbind rfl
    refine exec_item hw rfl ?_
    have hh : tcxHeld (dispatchCmd c.serial s) c.tcx = false := hheld
    refine (if_neg (by rw [started_tcx, hh]; exact Bool.false_ne_true)).trans ((if_neg ?_).trans ((if_neg ?_).trans
      ((if_neg ?_).trans ((if_neg ?_).trans ((if_neg ?_).trans ?_)))))
    · rintro (h | ⟨h, hv⟩)
      · exact hfree h
      · exact Bool.false_ne_true ((hbound h).symm.trans hv)
    · rintro ⟨hv, hno⟩
      exact Bool.false_ne_true (hno.symm.trans (hok hv))
    · rintro ⟨hno, hne⟩
      exact hgen.elim (fun h => Bool.false_ne_true (hno.symm.trans h)) hne
    · intro h
      obtain ⟨a, ha, hother⟩ := List.any_eq_true.mp h
      have hbinding : bindingOf (dispatchCmd c.serial s) a = bindingOf s a := rfl
      rcases hbind a ha with hu | hb
      · simp [hbinding, hu] at hother
      · simp [hbinding, hb] at hother
    · rw [not_not, List.filter_eq_nil_iff]
      intro a ha hstale
      have hbinding : bindingOf (dispatchCmd c.serial s) a = bindingOf s a := rfl
      rcases hbind a ha with hu | hb
      · simp [hbinding, hu] at hstale
      · simp [hbinding, hb] at hstale
    · rfl
  · rintro it s c seg hw rfl hheld hfree hbound hok hforce hgen
    refine exec_item hw rfl ?_
    have hh : tcxHeld (dispatchCmd c.serial s) c.tcx = false := hheld
    refine (if_neg (by rw [started_tcx, hh]; exact Bool.false_ne_true)).trans ((if_neg ?_).trans ((if_neg ?_).trans (if_pos ?_)))
    · rintro (h | ⟨h, hv⟩)
      · exact hfree h
      · exact Bool.false_ne_true ((hbound h).symm.trans hv)
    · rintro ⟨hv, hno⟩
      exact Bool.false_ne_true (hno.symm.trans (hok hv))
    · exact ⟨hforce, hgen⟩
  · intro it s c hw hheld hst hcheck
    refine exec_item hw rfl ?_
    have hh : tcxHeld (dispatchCmd c.serial s) c.tcx = false := hheld
    refine (if_neg (by rw [started_tcx, hh]; exact Bool.false_ne_true)).trans ((if_neg (by rintro ⟨h1, h2⟩; exact hst.elim h1 h2)).trans (if_pos ?_))
    exact (segMask_eq_zero_iff _).mpr fun n hn => not_not.mpr (hcheck n hn)
  · rintro it s c diff hw hheld hst hdiff ⟨n, hn, hne⟩
    refine exec_item hw rfl ?_
    have hh : tcxHeld (dispatchCmd c.serial s) c.tcx = false := hheld
    have hd : diff ≠ 0 := fun h => (segMask_eq_zero_iff _).mp (hdiff ▸ h) n hn hne
    subst hdiff
    exact (if_neg (by rw [started_tcx, hh]; exact Bool.false_ne_true)).trans ((if_neg (by rintro ⟨h1, h2⟩; exact hst.elim h1 h2)).trans (if_neg hd))
  · rintro it s c r hw hen halign hentries hpow rfl hrun
    refine exec_item hw rfl ?_
    obtain ⟨h16, hmax⟩ := hentries
    have hbad : ¬(word64 c.words 4 % 4096 ≠ 0 ∨ wordAt c.words 6 < 16 ∨ wordAt c.words 6 > 65536 ∨ popcount 17 (wordAt c.words 6) ≠ 1) := by
      omega
    refine (if_neg (by rw [started_words, hen]; decide)).trans ((if_neg hbad).trans (if_neg ?_))
    simpa using hrun
  · intro it s c hw hen
    refine exec_item hw rfl ?_
    simp [digestSetupBody, hen]

end Sys2Proof.Machine

/-!
Keys, firmware and calibration: `KEY_LOAD`, staging and activation, and the calibration set (chapters 8, 19 and 24).
-/

namespace Sys2Proof.Machine

/-! ### Keys (R154 to R157) -/

/-- A `KEY_LOAD` of an encrypted polder's TCX whose fields are legal and that finds its slot as its operation needs it. -/
theorem keyLoad_legal {c : Cmd} {s : State} (hfree : (tcxOf s c.tcx).state ≠ .free)
    (hopen : isOpenMode (polderOf s (tcxOf s c.tcx).polder).modes = false) (hop : field c.words 3 7 4 ≤ 3) (hfields : keyFields c.words = true)
    (hslot : field c.words 3 7 4 ≠ 3 → tabFind (tcxOf s c.tcx).keys (field c.words 3 1 0) = none)
    (hdestroy : field c.words 3 7 4 = 3 → (tabFind (tcxOf s c.tcx).keys (field c.words 3 1 0)).isSome = true
      ∧ keySlotUsed s c.tcx (field c.words 3 1 0) = false) :
    ¬((tcxOf s c.tcx).state = .free ∨ isOpenMode (polderOf s (tcxOf s c.tcx).polder).modes = true ∨ field c.words 3 7 4 > 3
      ∨ keyFields c.words = false
      ∨ (field c.words 3 7 4 ≠ 3 ∧ (tabFind (tcxOf s c.tcx).keys (field c.words 3 1 0)).isSome = true)
      ∨ (field c.words 3 7 4 = 3 ∧ (!(tabFind (tcxOf s c.tcx).keys (field c.words 3 1 0)).isSome
          || keySlotUsed s c.tcx (field c.words 3 1 0)) = true)) := by
  rintro (h | h | h | h | ⟨h, h'⟩ | ⟨h, h'⟩)
  · exact hfree h
  · exact Bool.false_ne_true (hopen.symm.trans h)
  · exact Nat.not_lt.mpr hop h
  · exact Bool.false_ne_true (h.symm.trans hfields)
  · rw [hslot h] at h'
    exact Bool.false_ne_true h'
  · obtain ⟨hheld, hunused⟩ := hdestroy h
    rw [hheld, hunused] at h'
    exact Bool.false_ne_true h'

/-- Settles O50, operation by operation. -/
theorem keyRows : Obligations.KeyRows := by
  unfold Obligations.KeyRows
  refine ⟨?_, ?_, ?_, ?_, ?_⟩
  · rintro it s c slot id o hw hop rfl rfl rfl hheld hfree hopen hfields hslot
    refine exec_item hw rfl ?_
    refine (if_neg (Bool.eq_false_iff.mp hheld)).trans ((if_neg (keyLoad_legal (c := started s c) (s := dispatchCmd c.serial s)
      hfree hopen (by rw [started_words, hop]; decide) hfields (fun _ => hslot) (fun h => by simp [hop] at h))).trans ?_)
    simp only [started_words, hop]
    rfl
  · rintro it s c slot hw hop rfl hheld hfree hopen hfields hslot
    refine exec_item hw rfl ?_
    refine (if_neg (Bool.eq_false_iff.mp hheld)).trans ((if_neg (keyLoad_legal (c := started s c) (s := dispatchCmd c.serial s)
      hfree hopen (by rw [started_words, hop]; decide) hfields (fun _ => hslot) (fun h => by simp [hop] at h))).trans ?_)
    simp only [started_words, hop, started_src]
    cases hses : sessionOf (dispatchCmd c.serial s) c.src (wordAt c.words 4) with
    | none => rfl
    | some x =>
      simp only [Option.bind_some]
      cases hkey : Config.transportKey x.secret ((keyData c.words).take 40) with
      | none => rfl
      | some key => rfl
  · rintro it s c slot o hw hop rfl rfl hheld hfree hopen hfields hslot
    refine exec_item hw rfl ?_
    refine (if_neg (Bool.eq_false_iff.mp hheld)).trans ((if_neg (keyLoad_legal (c := started s c) (s := dispatchCmd c.serial s)
      hfree hopen (by rw [started_words, hop]; decide) hfields (fun _ => hslot) (fun h => by simp [hop] at h))).trans ?_)
    simp only [started_words, hop]
    rfl
  · rintro it s c slot hw hop rfl hheld hfree hopen hfields hslot hused
    refine exec_item hw rfl ?_
    refine (if_neg (Bool.eq_false_iff.mp hheld)).trans ((if_neg (keyLoad_legal (c := started s c) (s := dispatchCmd c.serial s)
      hfree hopen (by rw [started_words, hop]) hfields (fun h => absurd hop h) (fun _ => ⟨hslot, hused⟩))).trans ?_)
    simp only [started_words, hop]
    rfl
  · intro it s c hw hheld
    exact exec_item hw rfl (if_pos hheld)

/-! ### Firmware and calibration (R373, R391 to R394, R470) -/

/-- A dispatch does not change what a test reads that looks at no dispatched field. -/
theorem any_dispatchCmd (k : Nat) (s : State) (p : Cmd → Bool)
    (hp : ∀ d : Cmd, ∀ m a, p { d with waiting := false, modes := m, arith := a } = p d) :
    (dispatchCmd k s).q.cmds.any p = s.q.cmds.any p := by
  simp only [dispatchCmd, modCmd, List.any_map]
  refine congrArg (s.q.cmds.any ·) (funext fun d => ?_)
  dsimp only [Function.comp]
  split_ifs
  · exact hp d _ _
  · rfl

/-- The fields that `CAL_EXPORT` and `CAL_IMPORT` share are legal. -/
theorem calFields_of {c : Cmd} (hlo : 4096 ≤ wordAt c.words 6) (hhi : wordAt c.words 6 ≤ 65536) (halign : word64 c.words 4 % 4096 = 0) :
    calFields c = true := decide_eq_true ⟨hlo, hhi, halign⟩

/-- `CAL_IMPORT` of a legal range, while no other command has the NOR, goes by the check of its bytes. -/
theorem calImportBody_eq {c : Cmd} {s : State} {l : List Byte} (hfields : calFields c = true) (hnor : norTaken s c = false)
    (hl : hpaBytes s c = some l) :
    calImportBody c s = if calOk s.ident.serial l then
      norWipe calBase 65536 (modCmd c.serial (fun d => { d with phase := 2, decided := true }) s) else finishWith c .invalid 0 s := by
  unfold calImportBody
  rw [hfields, hnor, hl]
  rfl

/-- `FW_STAGE` of a legal length and address, while no other bundle is staged or activated, goes by what its read found. -/
theorem fwStageBody_eq {r : BundleRead} {c : Cmd} {s : State} (hlen : 65536 ≤ wordAt c.words 6 ∧ wordAt c.words 6 ≤ 25165824)
    (halign : word64 c.words 4 % 4096 = 0)
    (hother : (s.q.cmds.any fun d => decide (d.opcode = 0xE0 ∧ d.serial ≠ c.serial ∧ 1 ≤ d.phase)) = false)
    (hact : s.fw.activating = none) :
    fwStageBody r c s =
      if (hpaBytes s c).isNone ∨ !(readBundle s r).verifies ∨ !(readBundle s r).consistent then finishWith c .imageRefused 0 s
      else if norTaken s c then modCmd c.serial (fun d => { d with phase := 1 }) { s with fw := { s.fw with candidate := some (readBundle s r) } }
      else stageProgram c { s with fw := { s.fw with candidate := some (readBundle s r) } } := by
  refine (if_neg ?_).trans ((if_neg ?_).trans rfl)
  · rw [halign]
    omega
  · rw [hother, hact]
    rintro (h | h) <;> exact Bool.false_ne_true h

/-- Settles O51, command by command. -/
theorem firmwareRows : Obligations.FirmwareRows := by
  unfold Obligations.FirmwareRows
  refine ⟨?_, ?_, ?_, ?_, ?_, ?_, ?_, ?_, ?_⟩
  · intro it bundle s c hw hlen halign hother hact hhost hsigned hcons hsvn hnor
    refine exec_item hw rfl ?_
    have ho := (any_dispatchCmd c.serial s (fun d => decide (d.opcode = 0xE0 ∧ d.serial ≠ c.serial ∧ 1 ≤ d.phase)) fun _ _ _ => rfl).trans hother
    refine (fwStageBody_eq (c := started s c) hlen halign ho hact).trans ((if_neg ?_).trans (if_neg (Bool.eq_false_iff.mp hnor)))
    have hh : (hpaBytes (dispatchCmd c.serial s) (started s c)).isNone = false := by
      rw [Option.isNone_eq_false_iff]
      exact hhost
    simp [hh, readBundle, svnOk, hsigned, hcons, hsvn]
  · intro it bundle s c hw hlen halign hother hact hbad
    refine exec_item hw rfl ?_
    have ho := (any_dispatchCmd c.serial s (fun d => decide (d.opcode = 0xE0 ∧ d.serial ≠ c.serial ∧ 1 ≤ d.phase)) fun _ _ _ => rfl).trans hother
    refine (fwStageBody_eq (c := started s c) hlen halign ho hact).trans (if_pos ?_)
    rcases hbad with h | h | h | h
    · exact .inl (Option.isNone_iff_eq_none.mpr h)
    · simp [readBundle, h]
    · have hsvn : svnOk s bundle.svn = false := decide_eq_false (Nat.not_le.mpr h)
      have hv : (readBundle (dispatchCmd c.serial s) bundle).verifies = false := by
        rw [readBundle]
        exact Bool.and_eq_false_iff.mpr (.inr hsvn)
      simp [hv]
    · simp [readBundle, h]
  · rintro it s c b hw hst hs ⟨hmin, hmax⟩
    refine exec_item hw rfl ?_
    simp [fwActivateBody, hst, hs, Nat.not_lt.mpr hmin, Nat.not_lt.mpr hmax]
  · rintro it d1 d2 resumed s c b hw hst hs ⟨hmin, hmax⟩ hfail
    refine exec_item hw rfl ?_
    have hfail' : d1 = false ∨ d2 = false := Bool.and_eq_false_iff.mp hfail
    simp [fwActivateBody, hst, hs, Nat.not_lt.mpr hmin, Nat.not_lt.mpr hmax, hfail']
  · rintro it s c b hw hst hs ⟨hmin, hmax⟩
    refine exec_item hw rfl ?_
    simp [fwActivateBody, hst, hs, Nat.not_lt.mpr hmin, Nat.not_lt.mpr hmax]
  · intro it d1 d2 resumed s c hw hst
    refine exec_item hw rfl ?_
    simp [fwActivateBody, hst]
  · rintro it s c hw ⟨hlo, hhi⟩ halign hnor
    refine exec_item hw rfl ?_
    have hfields : calFields (started s c) = true := calFields_of (c := started s c) (le_trans (by decide) hlo) hhi halign
    refine (if_neg ?_).trans ((if_neg (Bool.eq_false_iff.mp hnor)).trans rfl)
    rw [hfields]
    exact fun h => h.elim Bool.false_ne_true (Nat.not_lt.mpr hlo)
  · rintro it s c l hw ⟨hlo, hhi⟩ halign hnor hl hok
    refine exec_item hw rfl ?_
    exact (calImportBody_eq (c := started s c) (calFields_of (c := started s c) hlo hhi halign) hnor hl).trans (if_pos hok)
  · rintro it s c l hw ⟨hlo, hhi⟩ halign hnor hl hok
    refine exec_item hw rfl ?_
    exact (calImportBody_eq (c := started s c) (calFields_of (c := started s c) hlo hhi halign) hnor hl).trans
      (if_neg (Bool.eq_false_iff.mp hok))

end Sys2Proof.Machine

/-!
Copies, counters, fences, atomics and statistics: what their commands do when they are dispatched (chapters 4, 5, 7, 9, 10, 11 and 17).
-/

namespace Sys2Proof.Machine

/-! ### COPY_ASYNC (R191, R192) -/

/-- The lengths and fields that R191 asks of a copy. -/
theorem copyFields_legal {c : Cmd} {q : CopyReq} (hcnt : q.cntMode ≠ 3) (hpush : q.push = true → q.src = 0)
    (hslot : q.push = false → q.slot = 0) (hx : flag c.words 3 12 = false → field c.words 3 11 0 = 0)
    (hlen : 1 ≤ q.length ∧ q.length ≤ 2 ^ 40 ∧ q.src + q.length ≤ 2 ^ 52 ∧ q.dst + q.length ≤ 2 ^ 52) :
    ¬(q.cntMode = 3 ∨ (q.push = true ∧ q.src ≠ 0) ∨ ((!q.push) = true ∧ q.slot ≠ 0) ∨ ((!flag c.words 3 12) = true ∧ field c.words 3 11 0 ≠ 0)
      ∨ q.length = 0 ∨ q.length > 2 ^ 40 ∨ q.src + q.length > 2 ^ 52 ∨ q.dst + q.length > 2 ^ 52) := by
  obtain ⟨hpos, hmax, hs, hd⟩ := hlen
  simp only [Bool.not_eq_true']
  rintro (h | ⟨h, h'⟩ | ⟨h, h'⟩ | ⟨h, h'⟩ | h | h | h | h)
  · exact hcnt h
  · exact h' (hpush h)
  · exact h' (hslot h)
  · exact h' (hx h)
  · exact Nat.ne_of_gt hpos h
  · exact Nat.not_lt.mpr hmax h
  · exact Nat.not_lt.mpr hs h
  · exact Nat.not_lt.mpr hd h

/-- A copy that is no push, or whose slot is free, starts when its TCX and its copy unit have room. -/
theorem copyBody_starts {c : Cmd} {s : State} {ix : Nat} (hix : srcSluice s c.src = some ix)
    (hfields : (copyReq c).cntMode ≠ 3 ∧ ((copyReq c).push = true → (copyReq c).src = 0) ∧ ((copyReq c).push = false → (copyReq c).slot = 0))
    (hx : if flag c.words 3 12 then (tcxOf s (copyReq c).dstTcx).state = .live
        ∧ polderBit (hitOf s (srcHid s c.src)) (tcxOf s (copyReq c).dstTcx).polder = true
        ∧ adminOf s c.src (tcxOf s (copyReq c).dstTcx).polder = true else field c.words 3 11 0 = 0)
    (hlen : 1 ≤ (copyReq c).length ∧ (copyReq c).length ≤ 2 ^ 40 ∧ (copyReq c).src + (copyReq c).length ≤ 2 ^ 52
      ∧ (copyReq c).dst + (copyReq c).length ≤ 2 ^ 52)
    (hover : (copyReq c).push = false → rangesOverlap (mappedRanges s c.tcx (copyReq c).src (copyReq c).length)
      (mappedRanges s (copyReq c).dstTcx (copyReq c).dst (copyReq c).length) = false)
    (hslot : (copyReq c).push = true → slotTaken s ix (copyReq c).slot = false)
    (htcx : ((copiesRunning s).filter fun x => x.tcx = c.tcx).length < 32)
    (hunit : ((copiesRunning s).filter fun x => copyDie s x = copyDie s c).length < 256) :
    copyBody c s = modCmd c.serial (fun x => { x with phase := 1 })
      (if (copyReq c).push then bindSlot c (copyReq c).slot (copyReq c).length s else s) := by
  obtain ⟨hcnt, hpush, hslot0⟩ := hfields
  unfold copyBody
  dsimp only
  rw [hix, if_neg (copyFields_legal hcnt hpush hslot0 (fun h => by rw [h] at hx; exact hx) hlen), if_neg, if_neg, if_neg, if_neg, if_neg]
  · rintro (h | h)
    · exact Nat.not_le.mpr htcx h
    · exact Nat.not_le.mpr hunit h
  · rintro ⟨hp, h⟩
    exact Bool.false_ne_true ((hslot hp).symm.trans h)
  · rw [Bool.and_eq_true, Bool.not_eq_true']
    rintro ⟨hp, h⟩
    exact Bool.false_ne_true ((hover hp).symm.trans h)
  · rintro ⟨hf, h⟩
    rw [if_pos hf] at hx
    obtain ⟨hlive, -, hadmin⟩ := hx
    exact h.elim (· hlive) fun h => Bool.false_ne_true (h.symm.trans hadmin)
  · rintro ⟨hf, -, h⟩
    rw [if_pos hf] at hx
    obtain ⟨-, hbit, -⟩ := hx
    exact Bool.false_ne_true (h.symm.trans hbit)

/-- A push to a slot that another command holds is HELD. -/
theorem copyBody_slotTaken {c : Cmd} {s : State} {ix : Nat} (hix : srcSluice s c.src = some ix) (hcnt : (copyReq c).cntMode ≠ 3)
    (hpush : (copyReq c).push = true) (hsrc : (copyReq c).src = 0) (hx : flag c.words 3 12 = false) (hx0 : field c.words 3 11 0 = 0)
    (hlen : 1 ≤ (copyReq c).length ∧ (copyReq c).length ≤ 2 ^ 40 ∧ (copyReq c).src + (copyReq c).length ≤ 2 ^ 52
      ∧ (copyReq c).dst + (copyReq c).length ≤ 2 ^ 52) (hslot : slotTaken s ix (copyReq c).slot = true) :
    copyBody c s = finishWith c .held 0 s := by
  unfold copyBody
  dsimp only
  rw [hix, if_neg (copyFields_legal hcnt (fun _ => hsrc) (fun h => by rw [hpush] at h; cases h) (fun _ => hx0) hlen),
    if_neg (by simp [hx]), if_neg (by simp [hx]), if_neg (by simp [hpush]), if_pos ⟨hpush, hslot⟩]

/-! ### COUNTER_WAIT (R195, R196) -/

/-- A legal WAIT goes by its counter: satisfied at once, or pending where there is room. -/
theorem counterWaitBody_wait {c : Cmd} {s : State} (hop : field c.words 3 31 28 = 0) (htime : field c.words 6 23 0 ≤ 10000000)
    (hnotify : flag c.words 8 31 = true → word64 c.words 7 % 8 = 0) :
    counterWaitBody c s =
      if counterOf s c.tcx (field c.words 3 3 0) ≥ word64 c.words 4 then waitSatisfied c (counterOf s c.tcx (field c.words 3 3 0)) s
      else if ((waitsPending s).filter fun d => d.tcx = c.tcx).length ≥ 64 ∨ (waitsPending s).length ≥ 4096 then finishWith c .held 0 s
      else modCmd c.serial (fun d => { d with phase := 1 }) s := by
  unfold counterWaitBody
  dsimp only
  rw [if_neg, if_neg (by rw [hop]; decide)]
  rw [hop]
  rintro (h | h | ⟨h, -⟩ | ⟨h, h'⟩)
  · exact Nat.not_lt_zero _ h
  · exact Nat.not_lt.mpr htime h
  · exact Nat.zero_ne_one h
  · exact h' (hnotify h)

/-- SET writes the counter and completes. -/
theorem counterWaitBody_set {c : Cmd} {s : State} (hop : field c.words 3 31 28 = 1) (htime : field c.words 6 23 0 = 0)
    (hnotify : flag c.words 8 31 = true → word64 c.words 7 % 8 = 0) :
    counterWaitBody c s = finishWith c .ok (word64 c.words 4)
      (modTcx c.tcx (fun t => { t with arrival := tabPut t.arrival 0 (field c.words 3 3 0) (word64 c.words 4) }) s) := by
  unfold counterWaitBody
  dsimp only
  rw [if_neg, if_pos hop]
  rw [hop, htime]
  rintro (h | h | ⟨-, h⟩ | ⟨h, h'⟩)
  · exact Nat.lt_irrefl _ h
  · exact Nat.not_lt_zero _ h
  · exact h rfl
  · exact h' (hnotify h)

/-! ### ATOMIC (R78) -/

/-- The operand and alignment checks of an `ATOMIC` of `b` bytes. -/
theorem atomicFields_legal {op size dva operand new b : Nat} (hop : op ≤ 4) (hsize : 2 ≤ size) (halign : dva % b = 0)
    (hlt : operand < 2 ^ (8 * b) ∧ new < 2 ^ (8 * b)) (hnew : op ≠ 2 → new = 0) :
    ¬(op > 4 ∨ size < 2 ∨ dva % b ≠ 0 ∨ operand ≥ 2 ^ (8 * b) ∨ new ≥ 2 ^ (8 * b) ∨ (op ≠ 2 ∧ new ≠ 0)) := by
  rintro (h | h | h | h | h | ⟨h, h'⟩)
  · exact Nat.not_lt.mpr hop h
  · exact Nat.not_lt.mpr hsize h
  · exact h halign
  · exact Nat.not_le.mpr hlt.1 h
  · exact Nat.not_le.mpr hlt.2 h
  · exact h' (hnew h)

/-- An `ATOMIC` at a byte that its TCX may use goes to the home of its line. -/
theorem atomicBody_at {c : Cmd} {s : State} {b n tpa : Nat} (hb : b = if field c.words 3 1 0 = 2 then 4 else 8)
    (hsize : 2 ≤ field c.words 3 1 0) (hop : field c.words 3 7 4 ≤ 4) (halign : word64 c.words 4 % b = 0)
    (hlt : word64 c.words 6 < 2 ^ (8 * b) ∧ word64 c.words 8 < 2 ^ (8 * b)) (hnew : field c.words 3 7 4 ≠ 2 → word64 c.words 8 = 0)
    (hat : checkByte s c.tcx (word64 c.words 4) .atomic = .at n tpa) (hlock : writesLocked s tpa = false) :
    atomicBody c s =
      if field c.words 3 7 4 = 0 then stageFetchAdd (.command c.serial) tpa b c.tcx (1 + 4 * b) (word64 c.words 6)
        (modCmd c.serial (fun d => { d with decided := true, phase := 1, lines := [lineOf tpa] }) s)
      else requestLine (lineOf tpa)
        { op := .atomic (field c.words 3 7 4) b (word64 c.words 6) (word64 c.words 8), asker := .command c.serial, tpa := tpa }
        (modCmd c.serial (fun d => { d with decided := true, phase := 1, lines := [lineOf tpa] }) s) := by
  subst hb
  unfold atomicBody
  dsimp only
  rw [if_neg (atomicFields_legal hop hsize halign hlt hnew), hat]
  dsimp only
  rw [if_neg (by rw [hlock]; exact Bool.false_ne_true)]

theorem atomicBody_unmapped {c : Cmd} {s : State} {b : Nat} (hb : b = if field c.words 3 1 0 = 2 then 4 else 8)
    (hsize : 2 ≤ field c.words 3 1 0) (hop : field c.words 3 7 4 ≤ 4) (halign : word64 c.words 4 % b = 0)
    (hlt : word64 c.words 6 < 2 ^ (8 * b) ∧ word64 c.words 8 < 2 ^ (8 * b)) (hnew : field c.words 3 7 4 ≠ 2 → word64 c.words 8 = 0)
    (hun : checkByte s c.tcx (word64 c.words 4) .atomic = .unmapped) :
    atomicBody c s = concludeRun (faultTile 0x3 0xF (word64 c.words 4) b .mapFault true (runOf c s)) {} s := by
  subst hb
  unfold atomicBody
  dsimp only
  rw [if_neg (atomicFields_legal hop hsize halign hlt hnew), hun]

/-! ### ABORT (R355, R356) -/

/-- An ABORT of a legal queue looks for the command among what the queue has fetched to its tail. -/
theorem abortBody_eq {c : Cmd} {s : State} {ix : Nat} {src : Src} (hqp : flag c.words 3 31 = true → field c.words 3 23 16 = 0)
    (hix : srcSluice s c.src = some ix)
    (hsrc : src = if flag c.words 3 31 then .admin (Fin.ofNat 17 (ix / 16)) (Fin.ofNat 16 (ix % 16)) else pairSrc ix (field c.words 3 23 16))
    {t : State} (ht : t = fetchToTail src ix (if flag c.words 3 31 then none else some (field c.words 3 23 16)) c.host s) :
    abortBody c s = ((t.q.cmds.find? fun d => decide (d.src = src ∧ d.cid = field c.words 3 15 0)).elim (finishWith c .alreadyDone 0 t) fun d =>
      if unabortable d then finishWith c .invalid 0 t else if pastDecision d then finishWith c .alreadyDone 0 t
      else finishWith c .ok 0 (abortOne d t)) := by
  subst hsrc ht
  unfold abortBody
  dsimp only
  rw [hix, if_neg (fun h => h.2 (hqp h.1)), Option.getD_some]
  split
  · next h => rw [h]; rfl
  · next d h => rw [h]; rfl

/-- Settles O52, command by command. -/
theorem copyCommands : Obligations.CopyCommands := by
  unfold Obligations.CopyCommands
  refine ⟨?_, ?_, ?_, ?_, ?_, ?_, ?_, ?_, ?_, ?_, ?_⟩
  · rintro it s c q d ix hw rfl rfl hix hfields hx hlen hover hslot htcx hunit
    exact exec_item hw rfl (copyBody_starts (c := started s c) hix hfields hx hlen hover hslot htcx hunit)
  · rintro it s c q d ix hw rfl rfl hix ⟨hcnt, hpush, hsrc⟩ hx hx0 hlen hslot
    exact exec_item hw rfl (copyBody_slotTaken (c := started s c) hix hcnt hpush hsrc hx hx0 hlen hslot)
  · intro it s c hw hop htime hnotify
    exact exec_item hw rfl (counterWaitBody_set (c := started s c) hop htime hnotify)
  · intro it s c hw hop htime hnotify hreached
    exact exec_item hw rfl ((counterWaitBody_wait (c := started s c) hop htime hnotify).trans (if_pos hreached))
  · intro it s c hw hop htime hnotify hearly htcx hall
    refine exec_item hw rfl ((counterWaitBody_wait (c := started s c) hop htime hnotify).trans
      ((if_neg (Nat.not_le.mpr hearly)).trans (if_neg ?_)))
    exact fun h => h.elim (Nat.not_le.mpr htcx) (Nat.not_le.mpr hall)
  · intro it s c d ix src t hw hqp hix hsrc ht hfind hun hpast
    refine exec_item hw rfl ((abortBody_eq (c := started s c) hqp hix hsrc ht).trans ?_)
    rw [started_words, hfind, Option.elim_some, hun, hpast]
    rfl
  · intro it s c ix src t hw hqp hix hsrc ht hgone
    refine exec_item hw rfl ((abortBody_eq (c := started s c) hqp hix hsrc ht).trans ?_)
    rw [started_words]
    cases hfind : t.q.cmds.find? fun d => decide (d.src = src ∧ d.cid = field c.words 3 15 0) with
    | none => rfl
    | some d =>
      obtain ⟨hun, hpast⟩ := hgone d hfind
      rw [Option.elim_some, hun, hpast]
      rfl
  · intro it s c hw
    refine exec_item hw rfl ?_
    unfold fenceBody
    cases hl : fenceCovers (dispatchCmd c.serial s) (started s c) with
    | nil => rfl
    | cons k l => rfl
  · rintro it s c b n tpa hw hb hsize ⟨hop, hop4⟩ halign hlt hnew hat hlock
    exact exec_item hw rfl ((atomicBody_at (c := started s c) (s := dispatchCmd c.serial s) hb hsize hop4 halign hlt hnew hat hlock).trans
      (if_neg (Nat.ne_of_gt hop)))
  · intro it s c b n tpa hw hb hsize hop halign hlt hnew hat hlock
    refine exec_item hw rfl ((atomicBody_at (c := started s c) (s := dispatchCmd c.serial s) hb hsize ?_ halign ⟨hlt, ?_⟩ (fun _ => hnew) hat hlock).trans
      (if_pos hop))
    · exact le_of_eq_of_le hop (by decide)
    · exact lt_of_eq_of_lt hnew (Nat.two_pow_pos _)
  · intro it s c b hw hb hsize hop halign hlt hnew hun
    exact exec_item hw rfl (atomicBody_unmapped (c := started s c) (s := dispatchCmd c.serial s) hb hsize hop halign hlt hnew hun)

/-! ### Statistics (R108, R148, R184, R208, R234) -/

/-- Settles O53, command by command. -/
theorem statisticsRows : Obligations.StatisticsRows := by
  unfold Obligations.StatisticsRows
  refine ⟨?_, ?_, ?_, ?_, ?_, ?_, ?_⟩
  · intro it s c hw
    exact exec_item hw rfl rfl
  · intro it s c hw hdva
    refine exec_item hw rfl (if_neg ?_)
    rw [started_words, hdva]
    exact Bool.false_ne_true
  · intro it s c hw
    exact exec_item hw rfl rfl
  · intro it s c hw
    exact exec_item hw rfl rfl
  · rintro c block clear s r rfl
    unfold statsRun
    simp only [Bool.and_eq_true, Bool.not_eq_true']
  · rintro it s c r hw hdva hstop rfl hrun
    refine exec_item hw rfl ((if_neg ?_).trans ((if_neg ?_).trans ?_))
    · simp [hdva, hstop]
    · rw [started_words, hstop]
      exact Bool.false_ne_true
    · exact congrArg (fun r => concludeRun r {} (dispatchCmd c.serial s)) (if_neg (Bool.eq_false_iff.mp hrun))
  · intro it s c hw hdva hstop hperiod
    refine exec_item hw rfl ((if_neg ?_).trans (if_pos hstop))
    simp [hdva, hperiod]

end Sys2Proof.Machine

/-!
Tables, tiers, windows and flash management: what their commands do when they are dispatched (chapters 5, 6 and 11).
-/

namespace Sys2Proof.Machine

/-! ### Tables (R210 to R218, R228 to R231) -/

/-- `TABLE_DEFINE` of a free number with legal parameters. -/
theorem tableDefineBody_defines {c : Cmd} {s : State} (hop : field c.words 3 31 28 = 0)
    (hnew : tabFind s.tbl.tables (tableKey c.tcx (field c.words 3 21 16)) = none) (hroom : s.tbl.tables.length < 8192)
    (hshape : field c.words 3 15 12 ≤ 5 ∧ 4 ≤ field c.words 4 10 0 ∧ field c.words 4 10 0 ≤ 1024 ∧ 1 ≤ field c.words 4 31 22
      ∧ field c.words 4 31 22 ≤ 512 ∧ rowBytes (field c.words 3 15 12) (field c.words 4 10 0) ≤ field c.words 4 31 22 * 8)
    (hfit : rowsFit (versionBlock c.words 1) (field c.words 4 31 22) = true)
    (hok : versionOk s c.tcx (field c.words 3 15 12) (field c.words 4 10 0) (versionBlock c.words 1) = true) :
    tableDefineBody c s = finishWith c .ok 1 (putTable (tableKey c.tcx (field c.words 3 21 16))
      { fmt := field c.words 3 15 12, width := field c.words 4 10 0, stride := field c.words 4 31 22, bias := field c.words 4 21 18
        current := versionBlock c.words 1 } s) := by
  obtain ⟨hfmt, hw1, hw2, hs1, hs2, hrow⟩ := hshape
  unfold tableDefineBody
  dsimp only
  rw [if_neg (by rw [hop]; decide), if_neg]
  rw [hop, hnew, hfit, hok]
  rintro (h | h | h | h | h | h | h | h | h | h | h)
  · exact h rfl
  · exact Bool.false_ne_true h
  · exact Nat.not_le.mpr hroom h
  · exact Nat.not_lt.mpr hfmt h
  · exact Nat.not_lt.mpr hw1 h
  · exact Nat.not_lt.mpr hw2 h
  · exact Nat.not_lt.mpr hs1 h
  · exact Nat.not_lt.mpr hs2 h
  · exact Nat.not_lt.mpr hrow h
  · exact Bool.false_ne_true h.symm
  · exact Bool.false_ne_true h.symm

/-- An overlay of at least one row takes work-pool space. -/
theorem overlayBytes_pos {rows : Nat} (stride : Nat) (h : 1 ≤ rows) : 0 < overlayBytes rows stride := by
  have hneed : 1 ≤ 2 * rows * (stride * 8 + 16) := Nat.mul_pos (by omega) (by omega)
  have hmib : 0 < mib := by decide
  unfold overlayBytes
  exact Nat.mul_pos (Nat.div_pos (by omega) hmib) hmib

/-- What a new version of a table must meet before its mode decides (R229). -/
theorem refreshBegin_legal {mode rows : Nat} {t : Table} {p : Polder} {v : Version} {ok : Bool} (hd : t.destroying = none)
    (ho : t.opened = none) (hpool : poolBytes p ≠ 0) (hmode : mode ≤ 1) (hrows : mode = 1 → 1 ≤ rows ∧ rows ≤ 4194304)
    (hnone : mode ≠ 1 → rows = 0) (hfit : rowsFit v t.stride = true) (hok : ok = true) (hbase : mode = 1 → v.base = t.current.base) :
    ¬(t.destroying.isSome = true ∨ poolBytes p = 0 ∨ mode > 1 ∨ (decide (mode = 1) = true ∧ (rows < 1 ∨ rows > 4194304))
      ∨ ((!decide (mode = 1)) = true ∧ rows ≠ 0) ∨ t.opened.isSome = true ∨ rowsFit v t.stride = false ∨ ok = false
      ∨ (decide (mode = 1) = true ∧ v.base ≠ t.current.base)) := by
  rw [hd, ho, hfit, hok, Bool.not_eq_true', decide_eq_true_iff, decide_eq_false_iff_not]
  rintro (h | h | h | ⟨h, h'⟩ | ⟨h, h'⟩ | h | h | h | ⟨h, h'⟩)
  · exact Bool.false_ne_true h
  · exact hpool h
  · exact Nat.not_lt.mpr hmode h
  · exact h'.elim (Nat.not_lt.mpr (hrows h).1) (Nat.not_lt.mpr (hrows h).2)
  · exact h' (hnone h)
  · exact Bool.false_ne_true h
  · exact Bool.false_ne_true h.symm
  · exact Bool.false_ne_true h.symm
  · exact h' (hbase h)

/-- The check of a `TABLE_REFRESH_COMMIT` finds each of its tables. -/
theorem commitTables_opened {s : State} {keys : List Nat} (h : ∀ k ∈ keys, ∃ t v, tabFind s.tbl.tables k = some t ∧ t.opened = some v) :
    (keys.any fun k => ((tabFind s.tbl.tables k).bind (·.opened)).isNone) = false := by
  rw [List.any_eq_false]
  intro k hk
  obtain ⟨t, v, ht, hv⟩ := h k hk
  simp [ht, hv]

theorem refreshBeginBody_full {c : Cmd} {s : State} {t : Table}
    (ht : tabFind s.tbl.tables (tableKey c.tcx (field c.words 3 21 16)) = some t) (hop : field c.words 3 31 28 = 0)
    (hrows : field c.words 4 22 0 = 0) (hidle : t.destroying = none ∧ t.opened = none ∧ t.retiring.length ≤ 1)
    (hpool : poolBytes (polderOf s c.polder) ≠ 0) (hfit : rowsFit (versionBlock c.words t.next) t.stride = true)
    (hok : versionOk s c.tcx t.fmt t.width (versionBlock c.words t.next) = true) :
    refreshBeginBody c s = finishWith c .ok t.next (putTable (tableKey c.tcx (field c.words 3 21 16))
      { t with next := t.next + 1, opened := some (versionBlock c.words t.next) } s) := by
  obtain ⟨hd, ho, hret⟩ := hidle
  have hfull : decide (field c.words 3 31 28 = 1) = false := by rw [hop]; rfl
  unfold refreshBeginBody
  dsimp only
  rw [ht]
  dsimp only
  rw [if_neg (refreshBegin_legal hd ho hpool (by rw [hop]; decide) (fun h => by rw [hop] at h; cases h) (fun _ => hrows) hfit hok
    (fun h => by rw [hop] at h; cases h)), if_neg, if_neg, if_neg]
  · rw [hfull]; exact Bool.false_ne_true
  · rw [hfull]
    exact fun h => h.elim (fun h => Bool.false_ne_true h.1) (Nat.not_lt.mpr hret)
  · rw [hfull]
    exact fun h => Bool.false_ne_true h.1

theorem refreshBeginBody_delta {c : Cmd} {s : State} {t : Table}
    (ht : tabFind s.tbl.tables (tableKey c.tcx (field c.words 3 21 16)) = some t) (hop : field c.words 3 31 28 = 1)
    (hrows : 1 ≤ field c.words 4 22 0 ∧ field c.words 4 22 0 ≤ 4194304)
    (hidle : t.destroying = none ∧ t.opened = none ∧ t.retiring = [] ∧ unmerged t.current = false)
    (hbase : (versionBlock c.words t.next).base = t.current.base)
    (hspace : (polderOf s c.polder).workUsed + overlayBytes (field c.words 4 22 0) t.stride ≤ poolBytes (polderOf s c.polder))
    (hfit : rowsFit (versionBlock c.words t.next) t.stride = true)
    (hok : versionOk s c.tcx t.fmt t.width (versionBlock c.words t.next) = true) :
    refreshBeginBody c s = finishWith c .ok t.next (putTable (tableKey c.tcx (field c.words 3 21 16))
      { t with
        next := t.next + 1
        opened := some { versionBlock c.words t.next with
          delta := true, overlayCap := field c.words 4 22 0, merged := false, pool := overlayBytes (field c.words 4 22 0) t.stride } }
      (modPolder c.polder (fun p => { p with workUsed := p.workUsed + overlayBytes (field c.words 4 22 0) t.stride }) s)) := by
  obtain ⟨hd, ho, hret, hmerged⟩ := hidle
  have hdelta : decide (field c.words 3 31 28 = 1) = true := decide_eq_true hop
  have hneed := overlayBytes_pos t.stride hrows.1
  unfold refreshBeginBody
  dsimp only
  rw [ht]
  dsimp only
  rw [if_neg (refreshBegin_legal hd ho (by omega) (le_of_eq hop) (fun _ => hrows) (fun h => absurd hop h) hfit hok (fun _ => hbase)),
    if_neg, if_neg, if_pos hdelta, if_neg (Nat.not_lt.mpr hspace)]
  · rw [hret, hmerged]
    rintro (⟨-, h | h⟩ | h)
    · exact h rfl
    · exact Bool.false_ne_true h
    · exact Nat.not_lt_zero _ h
  · exact fun h => Nat.not_lt.mpr (le_trans (Nat.le_add_left _ _) hspace) h.2

/-- `TABLE_WRITE` whose arrays are there, clean and in range stages its rows. -/
theorem tableWriteBody_stages {c : Cmd} {s : State} {t : Table} {v : Version} {rows ib : CellBytes} {r1 r2 : Run}
    (ht : tabFind s.tbl.tables (tableKey c.tcx (field c.words 3 31 26)) = some t) (hv : t.opened = some v) (hdelta : v.delta = true)
    (hn : 1 ≤ field c.words 8 20 0 ∧ field c.words 8 20 0 ≤ 1048576)
    (hrows : readRange (word64 c.words 4) ((field c.words 8 20 0 - 1) * (t.stride * 8) + rowBytes t.fmt t.width) (runOf c s) = (some rows, r1))
    (hix : readRange (word64 c.words 6) (field c.words 8 20 0 * 8) r1 = (some ib, r2)) (hblk : runBlocked r2 = false)
    (hclean : (rows.any Prod.snd || ib.any Prod.snd) = false)
    (hin : ((indexEntries ib (field c.words 8 20 0)).any fun e => outOfRange v e.1) = false)
    (hcap : ((indexEntries ib (field c.words 8 20 0)).zipIdx.foldl (fun o e =>
      tabInsert o e.1.1 (((rows.drop (e.2 * (t.stride * 8))).take (rowBytes t.fmt t.width)).map Prod.fst)) v.overlay).length ≤ v.overlayCap) :
    tableWriteBody c s = concludeRun
      { r2 with s := putTable (tableKey c.tcx (field c.words 3 31 26)) { t with opened := some { v with
          overlay := (indexEntries ib (field c.words 8 20 0)).zipIdx.foldl (fun o e =>
            tabInsert o e.1.1 (((rows.drop (e.2 * (t.stride * 8))).take (rowBytes t.fmt t.width)).map Prod.fst)) v.overlay } } r2.s }
      { value := ((indexEntries ib (field c.words 8 20 0)).map Prod.fst).eraseDups.length } s := by
  unfold tableWriteBody
  dsimp only
  rw [ht]
  dsimp only
  rw [hv]
  dsimp only
  rw [hrows]
  dsimp only
  rw [hix, if_neg]
  · dsimp only
    rw [hblk, hclean, hin, if_neg Bool.false_ne_true, if_neg (show ¬(false || false) = true from Bool.false_ne_true),
      if_neg (Nat.not_lt.mpr hcap)]
  · rw [hdelta]
    rintro (h | h | h)
    · exact Nat.not_lt.mpr hn.1 h
    · exact Nat.not_lt.mpr hn.2 h
    · exact Bool.false_ne_true h.symm

theorem refreshCommitBody_commits {c : Cmd} {s : State} (hop : field c.words 3 31 28 = 0)
    (hopen : ∀ k ∈ (maskBits 64 (word64 c.words 4)).map (tableKey c.tcx),
      ∃ t v, tabFind s.tbl.tables k = some t ∧ t.opened = some v ∧ v.lost = false) :
    refreshCommitBody c s = finishWith c .ok ((maskBits 64 (word64 c.words 4)).map (tableKey c.tcx)).length
      (((maskBits 64 (word64 c.words 4)).map (tableKey c.tcx)).foldl
        (fun s k => flipTable (if flag c.words 3 7 then some (field c.words 3 3 0) else none) k s) s) := by
  have hany := commitTables_opened fun k hk => (hopen k hk).imp fun t ⟨v, ht, hv, _⟩ => ⟨v, ht, hv⟩
  have hlost : (((maskBits 64 (word64 c.words 4)).map (tableKey c.tcx)).any fun k =>
      ((tabFind s.tbl.tables k).bind (·.opened)).any (·.lost)) = false := by
    rw [List.any_eq_false]
    intro k hk
    obtain ⟨t, v, ht, hv, hl⟩ := hopen k hk
    simp [ht, hv, hl]
  unfold refreshCommitBody
  dsimp only
  rw [hany, hlost, hop]
  rfl

theorem refreshCommitBody_discards {c : Cmd} {s : State} (hop : field c.words 3 31 28 = 1)
    (hopen : ∀ k ∈ (maskBits 64 (word64 c.words 4)).map (tableKey c.tcx), ∃ t v, tabFind s.tbl.tables k = some t ∧ t.opened = some v) :
    refreshCommitBody c s = finishWith c .ok 0
      (((maskBits 64 (word64 c.words 4)).map (tableKey c.tcx)).foldl (fun s k => discardOpen k s) s) := by
  unfold refreshCommitBody
  dsimp only
  rw [commitTables_opened hopen, hop]
  rfl

/-- Settles O54, command by command. -/
theorem tableCommands : Obligations.TableCommands := by
  unfold Obligations.TableCommands
  refine ⟨?_, ?_, ?_, ?_, ?_, ?_, ?_⟩
  · rintro it s c fmt width stride v hw hop rfl rfl rfl rfl hnew hroom hshape hfit hok
    exact exec_item hw rfl (tableDefineBody_defines (c := started s c) (s := dispatchCmd c.serial s) hop hnew hroom hshape hfit hok)
  · rintro it s c key t hw rfl hop hfmt hzero ht hd
    refine exec_item hw rfl ((if_pos hop).trans ?_)
    simp only [started_words, started_tcx, dispatchCmd_tbl, ht, hfmt, hzero, hd]
    rfl
  · rintro it s c key t v hw rfl ht rfl hop hrows hidle hpool hfit hok
    exact exec_item hw rfl (refreshBeginBody_full (c := started s c) (s := dispatchCmd c.serial s) ht hop hrows hidle hpool hfit hok)
  · rintro it s c key rows t v hw rfl ht rfl rfl hop hr hidle hbase hspace hfit hok
    exact exec_item hw rfl (refreshBeginBody_delta (c := started s c) (s := dispatchCmd c.serial s) ht hop hr hidle hbase hspace hfit hok)
  · rintro it s c key n step size t v rows ib r1 r2 o hw rfl rfl ht hv hdelta hn rfl rfl hrd1 hrd2 hblk hclean hin rfl hcap
    exact exec_item hw rfl (tableWriteBody_stages (c := started s c) (s := dispatchCmd c.serial s) ht hv hdelta hn hrd1 hrd2 hblk hclean hin hcap)
  · rintro it s c keys hw rfl hop hopen
    exact exec_item hw rfl (refreshCommitBody_commits (c := started s c) (s := dispatchCmd c.serial s) hop hopen)
  · rintro it s c keys hw rfl hop hopen
    exact exec_item hw rfl (refreshCommitBody_discards (c := started s c) (s := dispatchCmd c.serial s) hop hopen)

/-! ### Tiers and windows (R96 to R99, R377) -/

/-- Settles O55, command by command. -/
theorem tierCommands : Obligations.TierCommands := by
  unfold Obligations.TierCommands
  refine ⟨?_, ?_, ?_, ?_, ?_, ?_, ?_, ?_⟩
  · rintro it s c r l done hw hf rfl hstop rfl rfl
    refine exec_item hw rfl ((if_neg (ne_false_of_eq_true hf)).trans (if_neg (Bool.eq_false_iff.mp hstop)))
  · rintro it s c r l t hw hf rfl hstop rfl rfl
    refine exec_item hw rfl ((if_neg (ne_false_of_eq_true hf)).trans (if_neg (Bool.eq_false_iff.mp hstop)))
  · intro p pinOnly s tpa b hb
    simp only [demoteBlock, hb, if_true]
  · rintro it s c d n hw rfl rfl hr hvalid
    refine exec_item hw rfl ((if_neg (ne_false_of_eq_true hr)).trans ((if_neg ?_).trans rfl))
    rintro ⟨hv, h⟩
    obtain ⟨h0, hmax, hfree, hbit⟩ := hvalid hv
    rcases h with h | h | h | h
    · exact h0 h
    · exact Nat.not_lt.mpr hmax h
    · exact hfree h
    · exact Bool.false_ne_true (h.symm.trans hbit)
  · intro it s c hw hr
    exact exec_item hw rfl (if_pos hr)
  · rintro it s c d hw rfl hr
    exact exec_item hw rfl (if_neg (ne_false_of_eq_true hr))
  · rintro it s c u l hw hop rfl hf hstop rfl halign hch
    have hhealth : ((flashChannels (polderOf s c.polder) (flashRanges s c.tcx (word64 c.words 4) (field c.words 6 26 0 * 16384))).any fun ch =>
        decide ((nandOf s ch).health ≠ .ok)) = false :=
      List.any_eq_false.mpr fun ch h => by simp [(hch ch h).1]
    have hloaded : ((flashChannels (polderOf s c.polder) (flashRanges s c.tcx (word64 c.words 4) (field c.words 6 26 0 * 16384))).any fun ch =>
        !(nandOf s ch).mapLoaded) = false :=
      List.any_eq_false.mpr fun ch h => by simp [(hch ch h).2]
    have hal : flashAligned s c.tcx (field c.words 3 3 0) (word64 c.words 4) (field c.words 6 26 0 * 16384)
        (flashRanges s c.tcx (word64 c.words 4) (field c.words 6 26 0 * 16384)) = true := by
      rw [hop]
      exact halign
    have h3 : field c.words 3 3 0 ≠ 3 := by rw [hop]; decide
    exact exec_item hw rfl ((if_neg h3).trans ((if_neg (ne_false_of_eq_true hf)).trans ((if_neg (Bool.eq_false_iff.mp hstop)).trans
      ((if_neg (ne_false_of_eq_true hal)).trans ((if_neg (Bool.eq_false_iff.mp hhealth)).trans
        ((if_neg (Bool.eq_false_iff.mp hloaded)).trans (if_pos hop)))))))
  · rintro it s c hw hop hu hdva
    refine exec_item hw rfl ((if_pos hop).trans (if_neg ?_))
    simp [hu, hdva]

end Sys2Proof.Machine

/-! ### The lookup commands

A lookup whose output rows fault while they are delivered stops (R62), and the model then spoils its outputs before it
concludes: `stopOutputs` draws one unspecified value. The statement concludes the delivery as it stands. -/

namespace Sys2Proof.Machine

/-- GATHER_ROWS of the one index 0 read at DVA 0, its output row at 2^32 + 256, which no segment maps. -/
def strayGatherWords : List Word :=
  (0x81 :: 5 :: 0x5A00 :: [0, 0, 1, 0, 0, 0, 0, 0, 0, 0, 0, 256, 1, 0, 0, 2] ++ List.replicate 13 0).map (BitVec.ofNat 32)
/-- The item of that request. -/
def strayGather : Item := ⟨.data 0 1 3, strayGatherWords, []⟩
/-- A READY sluice with one pair, a LIVE polder with HBM, one mapped segment at DVA 0 and table 0. -/
def strayBase : State :=
  { State.reset with
    q := { sluices := [(1, { state := .ready, adminEnable := true, qps := [(3, {})] })], bound := [(1, 7)] }
    polders := [(0, { state := .live, modes := 0x01000000, cores := 0xFF, hbm := 1, dramRange := ⟨0, 2 ^ 30, 2 ^ 30⟩, ddr := 1 })]
    tcxs := [(0, { state := .live })]
    hit := [(7, { valid := true, admin := true, mask := BitVec.allOnes 64 })]
    segs := [(0, { valid := true, a := true, w := true, r := true, length := 1 })]
    tbl := { tables := [(0, { width := 4, stride := 2 })] } }
/-- The command of the item, its table pinned at version 1. -/
def strayCmd : Cmd := { newCmd strayBase strayGather with pinned := some 1 }
/-- The state in which that command waits. -/
def strayState : State := { strayBase with q := { strayBase.q with cmds := [strayCmd], next := strayBase.q.next + 1 } }
/-- Table 0 of `strayBase`. -/
def strayTable : Table := { width := 4, stride := 2 }
/-- The command and the state once the late hosts are decided. -/
def strayMarked : Cmd × State := markLate (started strayState strayCmd) 10 (dispatchCmd strayCmd.serial strayState)
/-- The arrays the lookup reads. -/
def strayArrays : LookupArrays × Run := lookupArrays 0x81 (lookupReq strayCmd.words) { runOf strayMarked.1 strayMarked.2 with engine := 2, unit := 0xFF }
/-- The rows it fetches. -/
def strayFetched : List Fetched × Run := fetchRows strayTable {} 10 ((lookupReq strayCmd.words).ofmt ≠ 0xF) (indexEntries strayArrays.1.idx (lookupReq strayCmd.words).indices) strayArrays.2
/-- What the lookup delivers. -/
def strayDone : Result × Run := lookupDeliver 0x81 strayMarked.1 strayTable {} strayArrays.1 strayFetched.1 strayFetched.2

/-- How many unspecified values have been drawn where an outcome is a next state. -/
def drawnOf : Host.Outcome State Fault Refusal → Nat
  | .next s => s.free
  | _ => 0

theorem strayGather_waits : Waits 0x81 strayGather strayState strayCmd := by unfold Waits; decide

theorem strayDone_stopped : strayDone.2.stopped = true := by decide +kernel

theorem drawnOf_exec_strayGather : drawnOf (exec (.gatherRows strayGather) strayState) = 1 := by decide +kernel

/-- As the statement has it, nothing is drawn. -/
theorem drawnOf_concluded_strayGather :
    drawnOf (.next (settle (concludeRun strayDone.2 strayDone.1 strayMarked.2))) = 0 := by decide +kernel

/-- Refutes O56: a GATHER_ROWS whose output row is unmapped has its outputs spoilt before it concludes. -/
theorem not_lookupCommands : ¬ Obligations.LookupCommands := by
  unfold Obligations.LookupCommands
  rintro ⟨-, gather, -⟩
  have h := gather strayGather strayState strayCmd strayTable {} strayMarked strayArrays strayFetched strayGather_waits
    (by decide) (by decide) (by decide) rfl rfl (by decide) rfl (by decide)
  have hdrawn := congrArg drawnOf h
  rw [drawnOf_exec_strayGather] at hdrawn
  exact absurd (hdrawn.trans drawnOf_concluded_strayGather) (by decide)

end Sys2Proof.Machine

/-!
Searches, launches and collectives: what their commands do when they are dispatched (chapters 10, 13 and 15).
-/

namespace Sys2Proof.Machine

/-! ### Searches (R260 to R268) -/

/-- A search whose tables and queries have been read is prepared. -/
theorem searchPrepare_of_ready {op : Nat} {c : Cmd} {s : State} {x : SearchRead × Run} (h : searchReady op c s = some x) :
    searchPrepare op c s = .ok x := by
  unfold searchReady at h
  cases hp : searchPrepare op c s with
  | error e => rw [hp] at h; exact absurd h (by simp [Except.toOption])
  | ok y => rw [hp] at h; exact congrArg Except.ok (Option.some.inj h)

/-- The run that queueing the scans of a search leaves. -/
theorem tabFind_queueScans (serial : Nat) (chans : List Nat) (s : State) :
    tabFind (queueScans serial chans s).srch.runs serial = some { open_ := chans.filter (· < 64) } :=
  tabFind_insert_same _ _ _

/-- A search that has no run yet takes its work pool, queues its scans and goes on. -/
theorem searchBody_starts {op : Nat} {c d : Cmd} {s s1 : State} {x y : SearchRead × Run} {chans : List Nat}
    (hx : searchReady op c s = some x) (hchans : chans = engineChannels (allUnits s c.tcx x.1.ctx))
    (hrun : tabFind s.srch.runs c.serial = none) (hspill : (spills c && decide (hdrDeadline c.words ≤ 60)) = false)
    (hqueue : (chans.any fun ch => decide ((tabGet s.srch.queued [] ch).length ≥ 32)) = false) (hpool : c.pool = 0)
    (htake : takePool c (searchPool x.1.ctx.req) s = some s1)
    (hd : ((queueScans c.serial chans s1).q.cmds.find? fun d => decide (d.serial = c.serial)) = some d)
    (hy : searchReady op { d with host := c.host, phase := 1 } (queueScans c.serial chans s1) = some y) :
    searchBody op c s = searchContinue y.1 { open_ := chans.filter (· < 64) } { d with host := c.host, phase := 1 } y.2
      (queueScans c.serial chans s1) := by
  subst hchans
  unfold searchBody
  simp only [searchPrepare_of_ready hx, hrun, hspill, hqueue, hpool, htake, hd, tabFind_queueScans, searchPrepare_of_ready hy,
    Bool.false_eq_true, if_false, if_true]

/-! ### Launches (R304 to R312) -/

/-- A launch whose image has been read is read without a line to wait for. -/
theorem readLaunch_of_ready {kernel : Bool} {c : Cmd} {s : State} {l : Launch} {r : Run} (h : launchReady kernel c s = some (l, r)) :
    readLaunch kernel c s = .ok (some l, r) ∧ runBlocked r = false := by
  unfold launchReady at h
  split at h
  next l' r' hread =>
    split at h
    · cases h
    next hb =>
      obtain ⟨rfl, rfl⟩ := Prod.mk.inj (Option.some.inj h)
      exact ⟨hread, Bool.eq_false_iff.mpr hb⟩
  · cases h

/-- A kernel launch that fits is placed. -/
theorem kernelLaunchBody_places {c : Cmd} {s : State} {l : Launch} {r : Run} {n : Nat} (hf : launchFieldsOk true c.words = true)
    (hready : launchReady true c s = some (l, r))
    (hn : n = min (if field c.words 3 7 0 = 0 then l.image.coresMax else field c.words 3 7 0) (usableCores s c.polder).length)
    (hmin : l.image.coresMin ≤ n) (hlocal : l.image.code + field c.words 8 15 0 ≤ l.image.localBytes) :
    kernelLaunchBody c s = putPlacement c.serial
      { want := n, inputSeg := (List.range 16).find? fun k => l.image.roles.getD k 0 = 1
        phases := l.image.phases.length, counts := l.image.phases.map (·.2), bounds := l.image.phases.map (·.1) } (takeLaunch c l r) := by
  obtain ⟨hread, hb⟩ := readLaunch_of_ready hready
  subst hn
  unfold kernelLaunchBody
  rw [if_neg (ne_false_of_eq_true hf), hread]
  exact (if_neg (Bool.eq_false_iff.mp hb)).trans (if_neg (not_or.mpr ⟨Nat.not_lt.mpr hmin, Nat.not_lt.mpr hlocal⟩))

/-- A crown run whose cores are free and whose work area is written starts on them. -/
theorem crownRunBody_starts {c : Cmd} {s : State} {l : Launch} {r r1 r2 r3 : Run} {n : Nat} (hf : launchFieldsOk false c.words = true)
    (hready : launchReady false c s = some (l, r))
    (hn : n = min (if field c.words 3 7 0 = 0 then l.image.coresMax else field c.words 3 7 0) (usableCrown s c.polder).length)
    (hfit : l.image.coresMin ≤ n ∧ field c.words 19 15 0 < n ∧ l.image.data.length + n * l.image.stack ≤ l.image.work)
    (hfree : n ≤ (freeCrownCores s c.polder).length) (hpending : writesPending s c.tcx = false)
    (hr1 : r1 = checkWhole (word64 c.words 16) l.image.work .read 0x2 (fun _ => false) r) (hstop : r1.stopped = false)
    (hr2 : r2 = checkWhole (word64 c.words 16) l.image.work .write 0x3 (fun _ => false) r1)
    (hr3 : r3 = writeRange (word64 c.words 16)
      (cleanBytes (l.image.data ++ List.replicate (l.image.work - l.image.data.length - n * l.image.stack) 0)) r2)
    (hdone : (r3.stopped || runBlocked r3) = false) :
    crownRunBody c s = putRun c.serial
      { cores := (freeCrownCores (takeLaunch c l r3) c.polder).take n, exitCore := field c.words 19 15 0
        handler := l.image.handler, seed := BitVec.ofNat 64 (word64 c.words 12) } (takeLaunch c l r3) := by
  obtain ⟨hread, hb⟩ := readLaunch_of_ready hready
  obtain ⟨hmin, hexit, hwork⟩ := hfit
  subst hn hr1 hr2 hr3
  unfold crownRunBody
  dsimp only
  rw [if_neg (ne_false_of_eq_true hf), hread]
  dsimp only
  rw [if_neg (Bool.eq_false_iff.mp hb),
    if_neg (not_or.mpr ⟨Nat.not_lt.mpr hmin, not_or.mpr ⟨Nat.not_le.mpr hexit, Nat.not_lt.mpr hwork⟩⟩),
    if_neg (not_or.mpr ⟨Nat.not_lt.mpr hfree, Bool.eq_false_iff.mp hpending⟩), if_neg (Bool.eq_false_iff.mp hstop),
    if_neg (Bool.eq_false_iff.mp hdone)]

/-! ### Collectives (R199 to R203) -/

/-- A legal collective whose need fits its pool and whose slot is free looks for its group. -/
theorem collectiveBody_checked {op ix : Nat} {c : Cmd} {s : State} (hv : collValid op c.words = true)
    (hp : poolBytes (polderOf s c.polder) ≠ 0)
    (hneed : (collReq c.words).count * collBytes op (collReq c.words) + collOutput op (collReq c.words) ≤ poolBytes (polderOf s c.polder))
    (hix : srcSluice s c.src = some ix) (hslot : (collReq c.words).push = true → slotTaken s ix (collReq c.words).slot = false) :
    (!collValid op c.words || decide (poolBytes (polderOf s c.polder) = 0)) = false
      ∧ ¬ (collReq c.words).count * collBytes op (collReq c.words) + collOutput op (collReq c.words) > poolBytes (polderOf s c.polder)
      ∧ ¬ ((collReq c.words).push = true ∧ slotTaken s ((srcSluice s c.src).getD mgmtIx) (collReq c.words).slot = true) := by
  refine ⟨by simp [hv, hp], Nat.not_lt.mpr hneed, ?_⟩
  rintro ⟨hpush, ht⟩
  rw [hix] at ht
  exact Bool.false_ne_true ((hslot hpush).symm.trans ht)

/-- The first member of a group opens it. -/
theorem collectiveBody_opens {op ix : Nat} {c : Cmd} {s s1 : State} (hv : collValid op c.words = true)
    (hp : poolBytes (polderOf s c.polder) ≠ 0)
    (hneed : (collReq c.words).count * collBytes op (collReq c.words) + collOutput op (collReq c.words) ≤ poolBytes (polderOf s c.polder))
    (hix : srcSluice s c.src = some ix) (hslot : (collReq c.words).push = true → slotTaken s ix (collReq c.words).slot = false)
    (hnone : tabFind s.copy.groups (groupKey c) = none)
    (hroom : (s.copy.groups.filter fun e => e.1 / 2 ^ 32 = c.polder).length < 64)
    (htake : takePool c ((collReq c.words).count * collBytes op (collReq c.words) + collOutput op (collReq c.words)) s = some s1) :
    collectiveBody op c s = (
      let q := collReq c.words
      let t := if q.push then bindSlot c q.slot (collBytes op q) s1 else s1
      modCmd c.serial (fun d => { d with phase := 1 }) { t with copy := { t.copy with groups := tabInsert t.copy.groups (groupKey c) { opcode := op, params := collParams c.words, count := q.count, members := [{ rank := q.rank, serial := c.serial }], full := decide (1 = q.count) } } }) := by
  obtain ⟨h1, h2, h3⟩ := collectiveBody_checked hv hp hneed hix hslot
  unfold collectiveBody
  dsimp only
  rw [if_neg (Bool.eq_false_iff.mp h1), if_neg h2, if_neg h3, hnone]
  dsimp only
  rw [if_neg (Nat.not_le.mpr hroom), htake]
  rfl

/-- Another member joins the group of its key. -/
theorem collectiveBody_joins {op ix : Nat} {c : Cmd} {s : State} {g : Group} (hv : collValid op c.words = true)
    (hp : poolBytes (polderOf s c.polder) ≠ 0)
    (hneed : (collReq c.words).count * collBytes op (collReq c.words) + collOutput op (collReq c.words) ≤ poolBytes (polderOf s c.polder))
    (hix : srcSluice s c.src = some ix) (hslot : (collReq c.words).push = true → slotTaken s ix (collReq c.words).slot = false)
    (hfind : tabFind s.copy.groups (groupKey c) = some g)
    (hg : g.full = false ∧ g.opcode = op ∧ g.params = collParams c.words)
    (hrank : (g.members.any fun m => decide (m.rank = (collReq c.words).rank)) = false) :
    collectiveBody op c s = (
      let q := collReq c.words
      let t := if q.push then bindSlot c q.slot (collBytes op q) s else s
      modCmd c.serial (fun d => { d with phase := 1 }) { t with copy := { t.copy with groups := tabInsert t.copy.groups (groupKey c) { g with members := g.members ++ [{ rank := q.rank, serial := c.serial }], full := decide (g.members.length + 1 = g.count) } } }) := by
  obtain ⟨h1, h2, h3⟩ := collectiveBody_checked hv hp hneed hix hslot
  obtain ⟨hfull, hop, hparams⟩ := hg
  unfold collectiveBody
  dsimp only
  rw [if_neg (Bool.eq_false_iff.mp h1), if_neg h2, if_neg h3, hfind]
  dsimp only
  rw [if_neg, List.length_append]
  · rfl
  rintro (h | h | h | h)
  · exact Bool.false_ne_true (hfull.symm.trans h)
  · exact h hop
  · exact h hparams
  · exact Bool.false_ne_true (hrank.symm.trans h)

/-- The row of a collective runs the body of its opcode. -/
theorem exec_collective {op : Nat} {it : Item} {s y : State} {c : Cmd} (hop : op = 0xC0 ∨ op = 0xC1 ∨ op = 0xC2) (hw : Waits op it s c)
    (hy : collectiveBody op (started s c) (dispatchCmd c.serial s) = y) :
    exec (if op = 0xC0 then .reduce it else if op = 0xC1 then .gatherHosts it else .filterStream it) s = .next (settle y) := by
  rcases hop with rfl | rfl | rfl
  · exact exec_item hw rfl hy
  · exact exec_item hw rfl hy
  · exact exec_item hw rfl hy

/-- Settles O57, by what each body does for a command whose data has been read. -/
theorem searchAndLaunchCommands : Obligations.SearchAndLaunchCommands := by
  unfold Obligations.SearchAndLaunchCommands
  refine ⟨?_, ?_, ?_, ?_, ?_, ?_⟩
  · intro it s c x chans s1 d y hw hx hch hrun hsp hqu hp ht hd hy
    exact exec_item hw rfl (searchBody_starts (c := started s c) hx hch hrun hsp hqu hp ht hd hy)
  · intro it s c x chans s1 d y hw hx hch hrun hsp hqu hp ht hd hy
    exact exec_item hw rfl (searchBody_starts (c := started s c) hx hch hrun hsp hqu hp ht hd hy)
  · intro it s c l r n hw hf hready hn hmin hlocal
    exact exec_item hw rfl (kernelLaunchBody_places (c := started s c) (s := dispatchCmd c.serial s) hf hready hn hmin hlocal)
  · intro it s c l r r1 r2 r3 n hw hf hready hn hfit hfree hpend hr1 hstop hr2 hr3 hdone
    exact exec_item hw rfl (crownRunBody_starts (c := started s c) (s := dispatchCmd c.serial s) hf hready hn hfit hfree hpend hr1 hstop
      hr2 hr3 hdone)
  · rintro op it s c _ _ ix s1 hop hw rfl rfl hv hp hneed hix hslot hnone hroom htake
    exact exec_collective hop hw (collectiveBody_opens (c := started s c) (s := dispatchCmd c.serial s) hv hp hneed hix hslot hnone hroom htake)
  · rintro op it s c _ ix g hop hw rfl hv hp hneed hix hslot hfind hg hrank
    exact exec_collective hop hw (collectiveBody_joins (c := started s c) (s := dispatchCmd c.serial s) hv hp hneed hix hslot hfind hg hrank)

end Sys2Proof.Machine

/-!
The debug opcodes (chapter 23).
-/

namespace Sys2Proof.Machine

/-- The lock of Table 23.4 lets a peek through. -/
theorem peek_allowed {l : LockState} {a : Nat} (h : l ≠ .locked ∧ (needsOpen a = true → l = .open_)) :
    ¬ (l = .locked ∨ (needsOpen a = true ∧ l ≠ .open_)) := by
  obtain ⟨hl, hopen⟩ := h
  rintro (h | ⟨hn, ho⟩)
  · exact hl h
  · exact ho (hopen hn)

/-- A debug length within its bounds, with a legal address of its buffer. -/
theorem debugLen_legal {len top : Nat} {p : Prop} (h : 4 ≤ len ∧ len ≤ top ∧ len % 4 = 0 ∧ ¬ p) :
    ¬ (len < 4 ∨ top < len ∨ len % 4 ≠ 0 ∨ p) := by
  obtain ⟨h4, htop, hmod, hp⟩ := h
  rintro (h | h | h | h)
  · exact Nat.not_le.mpr h h4
  · exact Nat.not_le.mpr h htop
  · exact h hmod
  · exact hp h

/-- A DBG_UNLOCK to a state further open is legal. -/
theorem unlock_legal {l : LockState} {want hpa : Nat} (hwant : want = 1 ∨ want = 2) (hlock : lockCode l < want) (hhpa : hpa % 8 = 0) :
    ¬ (want = 0 ∨ want = 3 ∨ want ≤ lockCode l ∨ hpa % 8 ≠ 0) := by
  rintro (h | h | h | h)
  · omega
  · omega
  · exact Nat.not_le.mpr hlock h
  · exact h hhpa

/-- A peek of legal fields that the lock lets through delivers the bytes of its space. -/
theorem dbgPeekBody_reads {c : Cmd} {s : State} {d : DebugAddr}
    (hlock : s.dbg.lock ≠ .locked ∧ (needsOpen (word64 c.words 4) = true → s.dbg.lock = .open_))
    (hlen : 4 ≤ wordAt c.words 6 ∧ wordAt c.words 6 ≤ 4096 ∧ wordAt c.words 6 % 4 = 0 ∧ ¬ debugHpa c = false)
    (hd : debugAddr s (word64 c.words 4) (wordAt c.words 6) = some d) :
    dbgPeekBody c s = finishHpa c (word64 c.words 7) (peekBytes d (wordAt c.words 6) s).1 { value := wordAt c.words 6 }
      (peekBytes d (wordAt c.words 6) s).2 := by
  unfold dbgPeekBody
  dsimp only
  rw [if_neg (peek_allowed hlock), if_neg (debugLen_legal hlen), hd]

/-- A poke of legal fields in OPEN writes the bytes its host gave. -/
theorem dbgPokeBody_writes {c : Cmd} {s : State} {d : DebugAddr} {l : List Byte} (hlock : s.dbg.lock = .open_)
    (hlen : 4 ≤ wordAt c.words 6 ∧ wordAt c.words 6 ≤ 64 ∧ wordAt c.words 6 % 4 = 0 ∧ ¬ word64 c.words 7 % 8 ≠ 0)
    (hd : debugAddr s (word64 c.words 4) (wordAt c.words 6) = some d)
    (hl : hostBytes c.host (srcHid s c.src) (word64 c.words 7) (wordAt c.words 6) = some l) :
    dbgPokeBody c s = finishWith c (pokeBytes d l s).2 (wordAt c.words 6)
      (writeEvent 0x10 0 0 64 (word64 c.words 4) (wordAt c.words 6) (pokeBytes d l s).1) := by
  unfold dbgPokeBody
  dsimp only
  rw [if_neg (not_not.mpr hlock), if_neg (debugLen_legal hlen), hd, hl]

/-- A core that the lock lets a halt or a resume name. -/
theorem dbgCore_legal {core : Nat} {l : LockState} (hcore : core ≤ 27) (h : haltAllowed l core = true) :
    ¬ 27 < core ∧ ¬ (!haltAllowed l core) = true := ⟨Nat.not_lt.mpr hcore, by simp [h]⟩

/-- A dispatch keeps which commands there are. -/
theorem sequenceRuns_dispatchCmd (k n : Nat) (s : State) :
    sequenceRuns (dispatchCmd k s) n = s.q.cmds.any fun d => decide (d.serial = n) := by
  unfold sequenceRuns dispatchCmd modCmd
  simp only [List.any_map]
  congr 1
  funext d
  simp only [Function.comp_apply]
  split <;> rfl

/-- A halt inside a locked sequence whose command runs is deferred. -/
theorem dbgHaltBody_defers {c : Cmd} {s : State} {core : Nat} {x : Fin 28 × Nat} (hc : core = field c.words 3 4 0) (hcore : core ≤ 27)
    (hallow : haltAllowed s.dbg.lock core = true) (hne : x.2 ≠ c.serial) (hruns : sequenceRuns s x.2 = true) {t : State}
    (ht : t = modCmd c.serial (fun c => { c with phase := 1, decided := true }) s) :
    dbgHaltBody (some x) c s = { t with fw := { t.fw with
      deferred := tabInsert t.fw.deferred core (c.serial, flag c.words 3 8)
      locked := tabInsert t.fw.locked core (x.1.val, x.2) } } := by
  subst hc ht
  obtain ⟨h1, h2⟩ := dbgCore_legal hcore hallow
  unfold dbgHaltBody
  dsimp only
  rw [if_neg h1, if_neg h2, Option.filter_some, if_pos (by simp [hruns, hne])]

/-- Settles O58, by what the lock and the operands of each debug opcode let through. -/
theorem debugCommands : Obligations.DebugCommands := by
  unfold Obligations.DebugCommands
  refine ⟨?_, ?_, ?_, ?_, ?_, ?_, ?_, ?_, ?_, ?_, ?_⟩
  · intro it s c hw
    exact exec_item hw rfl rfl
  · intro it s c hw
    exact exec_item hw rfl rfl
  · intro it s c n t hw hwant hlock hhpa hnonce hage
    have hfresh : (true && nonceFresh s) = true := by simpa [nonceFresh, hnonce] using hage
    exact exec_item hw rfl ((if_neg (unlock_legal hwant hlock hhpa)).trans (if_pos hfresh))
  · intro it s c ok hw hwant hlock hhpa hbad
    have hbad' : ¬ (ok && nonceFresh s) = true := by
      rcases hbad with h | h
      · simp [h]
      · simp [h]
    exact exec_item hw rfl ((if_neg (unlock_legal hwant hlock hhpa)).trans (if_neg hbad'))
  · intro it s c hw
    exact exec_item hw rfl rfl
  · rintro it s c d _ _ p hw ⟨rfl, rfl⟩ hlock ⟨h4, htop, hmod, hhpa⟩ hd rfl
    exact exec_item hw rfl (dbgPeekBody_reads (c := started s c) (s := dispatchCmd c.serial s) hlock ⟨h4, htop, hmod, ne_false_of_eq_true hhpa⟩ hd)
  · rintro it s c (⟨hw, hlock⟩ | ⟨hw, hlock⟩)
    · rw [if_pos hw.2.1]
      exact exec_item hw rfl (if_pos hlock)
    · rw [if_neg (by rw [hw.2.1]; decide)]
      exact exec_item hw rfl (if_pos hlock)
  · rintro it s c d l _ _ p hw ⟨rfl, rfl⟩ hlock ⟨h4, htop, hmod, hhpa⟩ hd hl rfl
    exact exec_item hw rfl (dbgPokeBody_writes (c := started s c) (s := dispatchCmd c.serial s) hlock ⟨h4, htop, hmod, not_not.mpr hhpa⟩ hd hl)
  · rintro it s c _ hw rfl hcore hallow
    obtain ⟨h1, h2⟩ := dbgCore_legal hcore hallow
    exact exec_item hw rfl ((if_neg h1).trans (if_neg h2))
  · intro it s c core x t hw hc hcore hallow hne hruns ht
    exact exec_item hw rfl (dbgHaltBody_defers (c := started s c) (s := dispatchCmd c.serial s) hc hcore hallow hne ((sequenceRuns_dispatchCmd _ _ s).trans hruns) ht)
  · rintro it s c _ hw rfl hcore hallow
    obtain ⟨h1, h2⟩ := dbgCore_legal hcore hallow
    exact exec_item hw rfl ((if_neg h1).trans (if_neg h2))

end Sys2Proof.Machine

/-!
Requests of hosts over CXL.mem: writes, snoop answers and atomics at the homes of their lines (chapters 2, 4 and 7).
-/

namespace Sys2Proof.Machine

/-! ### Requests at the home of an idle line -/

/-- A line without a flow has no snoop outstanding. -/
theorem snooped_of_noFlow {s : State} {line : Nat} (hid : Nat) (h : tabFind s.coh.flows line = none) : snooped s hid line = none := by
  unfold snooped; rw [h]; rfl

/-- The snoop of a host at a line whose flow is known. -/
theorem snooped_of_flow {s : State} {hid line : Nat} {f : Flow} (h : tabFind s.coh.flows line = some f) :
    snooped s hid line = f.snoops.find? fun sn => decide (sn.hid = hid) := by
  unfold snooped; rw [h]; rfl

/-- A write does not train the predictor. -/
theorem trainPredictor_write {line mv : Nat} {req : LineReq} (w : Bool) (s : State) (h : req.op = .write mv) :
    trainPredictor line req w s = s := by
  unfold trainPredictor; rw [h]; rfl

/-- A write of a whole line reads no medium. -/
theorem needsMedium_fullWrite {s : State} {line mv : Nat} {req : LineReq} (h : req.op = .write mv) (hm : req.mask = BitVec.allOnes 64) :
    needsMedium s line req = false := by
  unfold needsMedium; rw [h, hm]; simp

/-- A write to an idle line is in service at once. -/
theorem requestLine_write_idle {s : State} {line mv : Nat} (req : LineReq) (h : LineIdle line s) (hop : req.op = .write mv) :
    requestLine line req s = { s with coh := { s.coh with
      flows := tabInsert s.coh.flows line { req := req, medium := needsMedium s line req, opened := s.time } } } := by
  rw [requestLine_idle req h, trainPredictor_write false s hop]

/-- A granted write to an unlocked idle line is requested at its home. -/
theorem hostWriteMem_granted {q : MemReq} {mv : MetaValue} {mask : BitVec 64} {data : LineData} {poison : Bool} {s : State} {hid : Nat}
    (hb : tabFind s.q.bound (sluiceIx q.port q.ld) = some hid) (ha : hostAllowed s hid q .write true = true)
    (hl : writesLocked s q.tpa.toNat = false) (hidle : LineIdle (lineOf q.tpa.toNat) s) :
    hostWriteMem q mv mask data poison s = requestLine (lineOf q.tpa.toNat)
      { op := .write (metaCode mv), asker := hostAsker hid q, tpa := lineOf q.tpa.toNat * 64, mask := mask, data := data, poison := poison } s := by
  unfold hostWriteMem hidOfReq
  dsimp only
  rw [hb]
  dsimp only
  rw [snooped_of_noFlow hid hidle.1, ha, hl]
  rfl

/-- A quiet device has no request at any home. -/
theorem flows_of_quiet {s : State} (h : quiet s = true) : s.coh.flows = [] := by
  simp only [quiet, Bool.and_eq_true, List.isEmpty_iff] at h
  exact h.1.1.1.1.1.1.2

/-- The flow of a full-line host write whose polder keeps no hosts coherent writes its bytes and completes. -/
theorem completeReq_hostWrite {s : State} {line hid port ld tag mv : Nat} {f : Flow} (ha : f.req.asker = .host hid port ld tag)
    (hop : f.req.op = .write mv) (hbad : f.bad = false) (hdb : lineDb s line = false) :
    completeReq line f s = some (sendS2m port ld (line * 64) (.memCmp port ld tag false)
      (homeWrite line (maskedBytes f.req.mask f.req.data) f.req.poison s).1) := by
  unfold completeReq
  dsimp only
  rw [ha, hop, hbad, hdb]
  rfl

/-- A write at the home with its completion leaves the homes' state alone. -/
theorem answeredWrite_coh (line port ld tpa : Nat) (bytes : List (Nat × Byte)) (poison : Bool) (e : Emit) (s : State) (c : CohSt) :
    sendS2m port ld tpa e (homeWrite line bytes poison { s with coh := c }).1
      = { sendS2m port ld tpa e (homeWrite line bytes poison s).1 with coh := c } := by
  rw [homeWrite_coh, sendS2m_coh]

/-- A full-line write to an idle line of a quiet device ends at once. -/
theorem settle_fullWrite {s : State} {line mv hid port ld tag : Nat} {req : LineReq} (hq : quiet s = true) (hidle : LineIdle line s)
    (hop : req.op = .write mv) (ha : req.asker = .host hid port ld tag) (hm : req.mask = BitVec.allOnes 64) (hdb : lineDb s line = false) :
    settle (requestLine line req s) = settle (sendS2m port ld (line * 64) (.memCmp port ld tag false)
      (homeWrite line (maskedBytes req.mask req.data) req.poison s).1) := by
  have hflows := flows_of_quiet hq
  have hdone := completeReq_hostWrite (s := { s with coh := { s.coh with flows := [(line, ({ req := req, opened := s.time } : Flow))] } })
    (line := line) (f := { req := req, opened := s.time }) ha hop rfl hdb
  have hself := answeredWrite_coh line port ld (line * 64) (maskedBytes req.mask req.data) req.poison (.memCmp port ld tag false) s s.coh
  have hquiet : quiet (sendS2m port ld (line * 64) (.memCmp port ld tag false)
      (homeWrite line (maskedBytes req.mask req.data) req.poison s).1) = true := by simp [hq]
  rw [answeredWrite_coh] at hdone
  have hcleared : tabErase [(line, ({ req := req, opened := s.time } : Flow))] line = [] := by simp [tabErase]
  have hcoh : ({ s.coh with flows := [] } : CohSt) = s.coh := by rw [← hflows]
  have hend := settle_flow (s := { s with coh := { s.coh with flows := [(line, ({ req := req, opened := s.time } : Flow))] } })
    (line := line) (f := { req := req, opened := s.time }) rfl rfl rfl rfl rfl rfl hdone
  dsimp only at hend
  rw [hcleared, hcoh, ← hself] at hend
  rw [requestLine_write_idle req hidle hop, needsMedium_fullWrite hop hm, hflows]
  exact hend hquiet

/-! ### Answers of snooped hosts (R69, R71) -/

/-- A conflict of a bound host that is alive, at a line without a flow, is acknowledged at once. -/
theorem hostConflict_noFlow {q : MemReq} {s : State} {hid : Nat} (hb : tabFind s.q.bound (sluiceIx q.port q.ld) = some hid)
    (hd : (hitOf s hid).dead = false) (hf : tabFind s.coh.flows (lineOf q.tpa.toNat) = none) :
    hostConflict q s = sendS2m q.port q.ld q.tpa.toNat (.conflictAck (sluiceIx q.port q.ld) q.tag.toNat) s := by
  unfold hostConflict hidOfReq
  rw [hb]
  dsimp only
  rw [hd, hf]
  rfl

/-- A conflict whose snoop is outstanding waits for it. -/
theorem hostConflict_snooped {q : MemReq} {s : State} {hid : Nat} {f : Flow} {sn : Snoop}
    (hb : tabFind s.q.bound (sluiceIx q.port q.ld) = some hid) (hd : (hitOf s hid).dead = false)
    (hf : tabFind s.coh.flows (lineOf q.tpa.toNat) = some f) (hsn : f.snoops.find? (fun x => decide (x.hid = hid)) = some sn) :
    hostConflict q s = putFlow (lineOf q.tpa.toNat) { f with conflicts := f.conflicts ++ [(sluiceIx q.port q.ld, q.tag.toNat)] } s := by
  unfold hostConflict hidOfReq
  rw [hb]
  dsimp only
  rw [hd, snooped_of_flow hf, hsn, hf]
  rfl

/-- A valid answer of a bound host that is alive and has a snoop outstanding. -/
theorem hostResponse_snooped {q : MemReq} {s : State} {hid : Nat} {f : Flow} {sn : Snoop} {shared : Bool}
    (hb : tabFind s.q.bound (sluiceIx q.port q.ld) = some hid) (hd : (hitOf s hid).dead = false)
    (hf : tabFind s.coh.flows (lineOf q.tpa.toNat) = some f) (hsn : f.snoops.find? (fun x => decide (x.hid = hid)) = some sn)
    (hvalid : (shared && !sn.isData) = false) :
    hostResponse q shared s = answerSnoop hid (lineOf q.tpa.toNat) shared s := by
  unfold hostResponse hidOfReq
  rw [hb]
  dsimp only
  rw [hd, snooped_of_flow hf, hsn]
  dsimp only
  rw [hvalid]
  rfl

/-- An answer to a snoop of a line without a slot ends the snoop. -/
theorem answerSnoop_noSlot {s : State} {hid line : Nat} {f : Flow} (hf : tabFind s.coh.flows line = some f) (hc : f.conflicts = [])
    (hp : f.probe = false) (hs : slotOf s line = none) (shared : Bool) :
    answerSnoop hid line shared s = putFlow line { f with snoops := f.snoops.filter fun x => decide (x.hid ≠ hid) } s := by
  have hs' : ∀ g, slotOf (putFlow line g s) line = none := fun _ => hs
  unfold answerSnoop
  rw [hf]
  dsimp only
  rw [hc, hp]
  simp only [List.filter_nil, List.foldl_nil, hs', Bool.false_and, Bool.false_eq_true, if_false]

/-- An answer that a host keeps the line SHARED. -/
theorem answerSnoop_shared {s : State} {hid line : Nat} {f : Flow} {d : DirSlot} (hf : tabFind s.coh.flows line = some f)
    (hc : f.conflicts = []) (hp : f.probe = false) (hs : slotOf s line = some d) (hcrown : d.crown = false) (hcoarse : d.coarse = false) :
    answerSnoop hid line true s = refreshSlot line { d with state := .shared }
      (putFlow line { f with snoops := f.snoops.filter fun x => decide (x.hid ≠ hid) } s) := by
  have hs' : ∀ g, slotOf (putFlow line g s) line = some d := fun _ => hs
  unfold answerSnoop
  rw [hf]
  dsimp only
  rw [hc, hp]
  simp only [List.filter_nil, List.foldl_nil, hs', Bool.false_and, Bool.false_eq_true, if_false, hcrown, hcoarse, Bool.or_false, if_true]

/-- `BIRspE` is a protocol violation of a bound host that is alive. -/
theorem hostResponseE_violation {q : MemReq} {s : State} {hid : Nat} (hb : tabFind s.q.bound (sluiceIx q.port q.ld) = some hid)
    (hd : (hitOf s hid).dead = false) : hostResponseE q s = violation hid s := by
  unfold hostResponseE hidOfReq
  rw [hb]
  dsimp only
  rw [hd]
  rfl

/-! ### Atomics (R82, R83) -/

/-- A granted, naturally aligned 8-byte CAS is requested at its home. -/
theorem hostAtomicReq_cas {q : MemReq} {operand new : BitVec 64} {s : State} {hid : Nat}
    (hb : tabFind s.q.bound (sluiceIx q.port q.ld) = some hid) (ha : hostAllowed s hid q .atomic false = true)
    (hl : writesLocked s q.tpa.toNat = false) (halign : q.tpa.toNat % 8 = 0) :
    hostAtomicReq q .cas .b8 operand new s = requestLine (lineOf q.tpa.toNat)
      { op := .atomic 2 8 operand.toNat new.toNat, asker := hostAsker hid q, tpa := q.tpa.toNat } s := by
  unfold hostAtomicReq hostRequest hidOfReq
  rw [hb]
  dsimp only [atomicBytes, hostAtomicOp]
  rw [if_neg (by simp), if_neg (not_not.mpr halign), if_pos ha, hl, if_neg Bool.false_ne_true, if_neg (by simp),
    Nat.mod_eq_of_lt operand.isLt, Nat.mod_eq_of_lt new.isLt]

/-- A snoop that is not answered in time makes its host DEAD. -/
theorem snoopExpired_snooped {s : State} {hid tpa : Nat} {f : Flow} {sn : Snoop} (hf : tabFind s.coh.flows (lineOf tpa) = some f)
    (hsn : f.snoops.find? (fun x => decide (x.hid = hid)) = some sn) :
    snoopExpired hid tpa s = deadHost hid (lineOf tpa) (noteDeadReads hid (lineOf tpa) s) := by
  unfold snoopExpired
  dsimp only
  rw [snooped_of_flow hf, hsn]

/-- A sweep of an empty directory ends. -/
theorem sweepEnd_empty {s : State} {hid : Nat} (hs : (hitOf s hid).sweeping = true) (hempty : s.coh.sets = []) :
    sweepEnd hid s = modHit hid (fun h => { h with sweeping := false }) s := by
  unfold sweepEnd
  dsimp only
  rw [hs, hempty]
  rfl

/-- Settles O24, by what each request and each snoop answer finds at the home of its line. -/
theorem hostWrites : Obligations.HostWrites := by
  unfold Obligations.HostWrites
  refine ⟨?_, ?_, ?_, ?_, ?_, ?_, ?_, ?_, ?_, ?_, ?_, ?_, ?_⟩
  · intro q mv data poison s hid hq hb ha hl hidle hdb
    refine congrArg Host.Outcome.next ?_
    rw [hostWriteMem_granted hb ha hl hidle]
    exact settle_fullWrite hq hidle rfl rfl rfl hdb
  · intro q mv mask data poison s hid hb ha hl hidle hm
    refine ⟨_, rfl, next_settle ?_⟩
    rw [hostWriteMem_granted hb ha hl hidle, requestLine_write_idle _ hidle rfl]
    rfl
  · intro q mv data poison s hid hb ha hl hsn
    refine next_settle ?_
    unfold hostWriteMem hidOfReq
    dsimp only
    rw [hb]
    dsimp only
    rw [hsn, ha, hl]
    rfl
  · intro q s hid hb hd hf
    exact next_settle (hostConflict_noFlow hb hd hf)
  · intro q s hid f sn hb hd hf hsn
    exact next_settle (hostConflict_snooped hb hd hf hsn)
  · intro q s hid f sn hb hd hf hsn hc hp hs
    exact next_settle ((hostResponse_snooped hb hd hf hsn rfl).trans (answerSnoop_noSlot hf hc hp hs false))
  · intro q s hid f sn d hb hd hf hsn hdata hc hp hs hcrown hcoarse
    exact next_settle ((hostResponse_snooped hb hd hf hsn (by simp [hdata])).trans (answerSnoop_shared hf hc hp hs hcrown hcoarse))
  · intro q s hid hb hd
    exact next_settle (hostResponseE_violation hb hd)
  · intro q op size operand new s h
    exact next_settle (if_pos h)
  · intro q operand new s hid hb ha hl halign hidle
    refine ⟨_, rfl, next_settle ?_⟩
    rw [hostAtomicReq_cas hb ha hl halign, requestLine_idle _ hidle]
    rfl
  · rintro port ld s _ _ rfl rfl
    rfl
  · rintro hid tpa s f sn _ hf hsn rfl
    exact next_settle (snoopExpired_snooped hf hsn)
  · intro hid s hs hempty
    exact next_settle (sweepEnd_empty hs hempty)

end Sys2Proof.Machine

/-!
The rings of a sluice: doorbells, the fetch of entries, dispatch and interrupts (chapter 17).
-/

namespace Sys2Proof.Machine

/-! ### A sluice and its rings read back -/

/-- A change of a sluice that exists is read back. -/
theorem findSluice_modSluice {s : State} {ix : Nat} {sl : Sluice} (f : Sluice → Sluice) (h : findSluice s ix = some sl) :
    findSluice (modSluice ix f s) ix = some (f sl) := by
  rw [modSluice_some f h]
  exact tabFind_insert_same _ _ _

/-- Only what the change makes of the sluice there is counts. -/
theorem modSluice_congr {s : State} {ix : Nat} {sl : Sluice} {f g : Sluice → Sluice} (h : findSluice s ix = some sl) (hfg : f sl = g sl) :
    modSluice ix f s = modSluice ix g s := by
  rw [modSluice_some f h, modSluice_some g h, hfg]

/-- Two changes of one sluice are one. -/
theorem modSluice_modSluice {s : State} {ix : Nat} {sl : Sluice} (f g : Sluice → Sluice) (h : findSluice s ix = some sl) :
    modSluice ix g (modSluice ix f s) = modSluice ix (fun sl => g (f sl)) s := by
  rw [modSluice_some g (findSluice_modSluice f h), modSluice_some f h, modSluice_some _ h]
  dsimp only
  rw [tabInsert_twice]

/-- A ring of a sluice that exists. -/
theorem getRing_eq {s : State} {ix : Nat} {qn : Option Nat} {sl : Sluice} (h : findSluice s ix = some sl) :
    getRing s ix qn = ringOf sl qn := by
  unfold getRing; rw [h]; rfl

/-- A ring that was put is read back. -/
theorem ringOf_putRing (qn : Option Nat) (r : Ring) (sl : Sluice) : ringOf (putRing qn r sl) qn = some r := by
  cases qn with
  | none => rfl
  | some q => exact tabFind_insert_same _ _ _

/-- The second of two rings put in one place stays. -/
theorem putRing_putRing (qn : Option Nat) (r r' : Ring) (sl : Sluice) : putRing qn r' (putRing qn r sl) = putRing qn r' sl := by
  cases qn with
  | none => rfl
  | some q => unfold putRing; dsimp only; rw [tabInsert_twice]

/-- A change of a ring that exists. -/
theorem modRing_eq {s : State} {ix : Nat} {qn : Option Nat} {sl : Sluice} {r : Ring} (f : Ring → Ring) (h : findSluice s ix = some sl)
    (hr : ringOf sl qn = some r) : modRing ix qn f s = modSluice ix (fun _ => putRing qn (f r) sl) s := by
  unfold modRing
  exact modSluice_congr h (by rw [hr])

/-- Links do not depend on sluices. -/
@[simp] theorem sluiceLinkUp_modSluice (ix jx : Nat) (f : Sluice → Sluice) (s : State) :
    sluiceLinkUp (modSluice ix f s) jx = sluiceLinkUp s jx := by
  unfold modSluice; split <;> rfl

/-! ### Doorbells (R346, R392) -/

/-- A doorbell of a sluice whose intake runs is applied, and wakes the control domain. -/
theorem doorbell_applied {s : State} {ix : Nat} {sl : Sluice} (qn : Option Nat) (head : Bool) (v : Nat) (h : findSluice s ix = some sl)
    (hi : s.q.intakeHeld = false) :
    doorbell ix qn head v s = if head then applyHead ix qn v { s with pwr := { s.pwr with controlDoze := false } }
      else applyTail ix qn v { s with pwr := { s.pwr with controlDoze := false } } := by
  unfold doorbell
  rw [h, hi]
  rfl

/-- A tail in range is the ring's tail. -/
theorem applyTail_inRange {s : State} {ix tail : Nat} {qn : Option Nat} {sl : Sluice} {r : Ring} (h : findSluice s ix = some sl)
    (hr : ringOf sl qn = some r) (ht : tail < 2 ^ r.sqLog2) :
    applyTail ix qn tail s = modSluice ix (fun _ => putRing qn { r with sqTail := tail } sl) s := by
  unfold applyTail
  rw [getRing_eq h, hr]
  exact (if_neg (Nat.not_le.mpr ht)).trans (modRing_eq _ h hr)

/-- A tail out of range is flagged and counted. -/
theorem applyTail_outOfRange {s : State} {ix tail : Nat} {qn : Option Nat} {sl : Sluice} {r : Ring} (h : findSluice s ix = some sl)
    (hr : ringOf sl qn = some r) (ht : 2 ^ r.sqLog2 ≤ tail) :
    applyTail ix qn tail s = modSluice ix (fun _ => { sl with dbErr := true, dbErrCount := min (sl.dbErrCount + 1) (2 ^ 32 - 1) }) s := by
  unfold applyTail
  rw [getRing_eq h, hr]
  exact (if_pos ht).trans (modSluice_congr h rfl)

/-- A head in range is the ring's head, and what was held goes out as far as it can. -/
theorem applyHead_inRange {s : State} {ix head : Nat} {qn : Option Nat} {sl : Sluice} {r : Ring} (h : findSluice s ix = some sl)
    (hr : ringOf sl qn = some r) (hh : head < 2 ^ r.cqLog2) :
    applyHead ix qn head s = drainRing (r.held.length + 1) ix qn (modSluice ix (fun _ => putRing qn { r with cqHead := head } sl) s) := by
  unfold applyHead
  rw [getRing_eq h, hr]
  dsimp only
  rw [if_neg (Nat.not_le.mpr hh), modRing_eq _ h hr]

/-- With no event waiting none goes out. -/
theorem drainEvents_nothing {s : State} {ix : Nat} {sl : Sluice} (n : Nat) (h : findSluice s ix = some sl) (he : sl.events = [])
    (hl : sl.eventsLost = 0) : drainEvents n ix s = s := by
  cases n with
  | zero => rfl
  | succ n =>
    unfold drainEvents
    rw [h]
    dsimp only
    rw [he, hl]
    split <;> rfl

/-- With nothing held nothing goes out of a ring that is not the admin queue's. -/
theorem drainRing_nothing {s : State} {ix q : Nat} {sl : Sluice} {r : Ring} (n : Nat) (h : findSluice s ix = some sl)
    (hr : ringOf sl (some q) = some r) (hheld : r.held = []) : drainRing n ix (some q) s = s := by
  induction n with
  | zero => rfl
  | succ n ih =>
    unfold drainRing
    rw [h]
    dsimp only [Option.bind_some]
    rw [hr]
    dsimp only
    rw [hheld]
    exact ih

/-- With nothing held and no event waiting nothing goes out of the admin queue. -/
theorem drainRing_admin_nothing {s : State} {ix : Nat} {sl : Sluice} (n : Nat) (h : findSluice s ix = some sl) (hheld : sl.admin.held = [])
    (he : sl.events = []) (hl : sl.eventsLost = 0) : drainRing n ix none s = s := by
  induction n with
  | zero => exact drainEvents_nothing 66 h he hl
  | succ n ih =>
    unfold drainRing
    rw [h]
    dsimp only [Option.bind_some, ringOf]
    rw [hheld]
    exact ih

/-- A held completion for which there is room, whose vector is off, goes out at the tail. -/
theorem writeEntry_plain {s : State} {ix q : Nat} {sl : Sluice} {r : Ring} {words : List Word} (noirq : Bool)
    (h : findSluice s ix = some sl) (hr : ringOf sl (some q) = some r) (hdev : r.cqDev = false) (hirq : r.irqEn = false)
    (hwrap : (r.cqTail + 1) % 2 ^ r.cqLog2 ≠ 0) :
    writeEntry ix (some q) words noirq s = emit (.cqe ix (some q) r.cqTail (stampEntry r words))
      (modSluice ix (fun _ => putRing (some q) { r with uncovered := 0, cqTail := (r.cqTail + 1) % 2 ^ r.cqLog2 } sl) s) := by
  unfold writeEntry
  rw [h]
  dsimp only
  rw [hr]
  dsimp only
  rw [hdev, hirq, if_neg hwrap]
  simp only [Bool.false_and, Bool.false_eq_true, if_false]
  exact congrArg (emit (.cqe ix (some q) r.cqTail (stampEntry r words))) (modSluice_congr h rfl)

/-- The one held completion of a ring goes out once there is room for it. -/
theorem drainRing_one {s : State} {ix q : Nat} {sl : Sluice} {r : Ring} {words : List Word} {noirq : Bool}
    (h : findSluice s ix = some sl) (hr : ringOf sl (some q) = some r) (hheld : r.held = [(words, noirq)]) (hdev : r.cqDev = false)
    (hirq : r.irqEn = false) (hroom : (r.cqTail + 1) % 2 ^ r.cqLog2 ≠ r.cqHead) (hwrap : (r.cqTail + 1) % 2 ^ r.cqLog2 ≠ 0)
    (hup : sluiceLinkUp s ix = true) :
    drainRing 2 ix (some q) s = emit (.cqe ix (some q) r.cqTail (stampEntry r words))
      (modSluice ix (fun _ => putRing (some q) { r with held := [], uncovered := 0, cqTail := (r.cqTail + 1) % 2 ^ r.cqLog2 } sl) s) := by
  have hfound := findSluice_modSluice (putRing (some q) { r with held := [] }) h
  have hfull : (cqFull r || !sluiceLinkUp s ix) = false := by simp [cqFull, hroom, hup]
  have hwrite := writeEntry_plain (words := words) noirq hfound (ringOf_putRing (some q) _ sl) hdev hirq hwrap
  rw [modSluice_modSluice _ _ h, putRing_putRing] at hwrite
  unfold drainRing
  rw [h]
  dsimp only [Option.bind_some]
  rw [hr]
  dsimp only
  rw [hheld]
  dsimp only
  rw [hfull, if_neg Bool.false_ne_true, hwrite]
  exact drainRing_nothing 1 (findSluice_modSluice _ h) (ringOf_putRing (some q) _ sl) rfl

/-- Settles O19, by what a doorbell makes of the ring it names. -/
theorem queueDoorbells : Obligations.QueueDoorbells := by
  unfold Obligations.QueueDoorbells
  refine ⟨?_, ?_, ?_, ?_, ?_, ?_, ?_⟩
  · intro port ld qp tail s sl r h hr hi ht
    exact next_settle ((doorbell_applied (some qp.toNat) false tail.toNat h hi).trans (applyTail_inRange h hr ht))
  · intro port ld qp tail s sl r h hr hi ht
    exact next_settle ((doorbell_applied (some qp.toNat) false tail.toNat h hi).trans (applyTail_outOfRange h hr ht))
  · intro port ld qp tail s h hi
    exact next_settle ((if_neg (by simp [Option.isSome_iff_ne_none.mp h])).trans (if_pos hi))
  · intro port ld tail s sl h hi ht
    exact next_settle ((doorbell_applied none false tail.toNat h hi).trans (applyTail_inRange h rfl ht))
  · intro port ld qp head s sl r h hr hi hh hheld
    refine next_settle (((doorbell_applied (some qp.toNat) true head.toNat h hi).trans (applyHead_inRange h hr hh)).trans ?_)
    exact drainRing_nothing _ (findSluice_modSluice _ h) (ringOf_putRing (some qp.toNat) _ sl) hheld
  · intro port ld qp head s sl r words noirq h hr hi hh hheld hdev hirq hroom hwrap hup
    refine next_settle (((doorbell_applied (some qp.toNat) true head.toNat h hi).trans (applyHead_inRange h hr hh)).trans ?_)
    rw [show r.held.length + 1 = 2 by rw [hheld]; rfl]
    have hawake : findSluice { s with pwr := { s.pwr with controlDoze := false } } (sluiceIx port ld) = some sl := h
    refine (drainRing_one (findSluice_modSluice (fun _ => putRing (some qp.toNat) { r with cqHead := head.toNat } sl) hawake) (ringOf_putRing (some qp.toNat) _ sl) hheld hdev
      hirq hroom hwrap ((sluiceLinkUp_modSluice _ _ _ _).trans hup)).trans ?_
    rw [modSluice_modSluice _ _ hawake, modSluice_some _ hawake]
    dsimp only
    rw [putRing_putRing]
    rfl
  · intro port ld head s sl h hi hh hheld he hl
    refine next_settle (((doorbell_applied none true head.toNat h hi).trans (applyHead_inRange h rfl hh)).trans ?_)
    exact drainRing_admin_nothing _ (findSluice_modSluice _ h) hheld he hl

end Sys2Proof.Machine

/-!
The intake of items, their dispatch and the interrupts of a sluice (chapter 17).
-/

namespace Sys2Proof.Machine

/-! ### The fetch of entries (R348, R349) -/

/-- Nothing is left to fetch. -/
theorem fetchEntries_short (fuel : Nat) (src : Src) (ix : Nat) (qn : Option Nat) {ws : List Word} (host : List HostByte) (s : State)
    (h : ws.length < 16) : fetchEntries fuel src ix qn ws host s = s := by
  cases fuel with
  | zero => rfl
  | succ n =>
    unfold fetchEntries
    split
    · rfl
    · exact if_pos (Or.inr (Or.inl h))

/-- A whole item at the header position is taken in, and the position moves past it. -/
theorem fetchEntries_item {fuel ix : Nat} {src : Src} {qn : Option Nat} {ws : List Word} {host : List HostByte} {s : State} {sl : Sluice}
    {r : Ring} (h : findSluice s ix = some sl) (hr : ringOf sl qn = some r) (hp : intakePaused s ix = false)
    (ho : r.position ∉ r.orphans) (hmark : hdrMark ws = 0x5A) (hlen : ws.length = 16 * hdrEntries ws) (hroom : hdrEntries ws ≤ sqAvail r) :
    fetchEntries (fuel + 1) src ix qn ws host s = acceptItem ⟨src, ws, host⟩ (movePosition ix qn (hdrEntries ws) s) := by
  have hpos : 1 ≤ hdrEntries ws := Nat.succ_le_succ (Nat.zero_le _)
  have hgo : ¬ (sqAvail r = 0 ∨ ws.length < 16 ∨ intakePaused s ix = true) := by
    rintro (h | h | h)
    · omega
    · omega
    · exact Bool.false_ne_true (hp.symm.trans h)
  have horphan : ¬ (r.orphans.contains r.position || decide (hdrMark ws ≠ 0x5A)) = true := by simp [ho, hmark]
  unfold fetchEntries
  rw [getRing_eq h, hr]
  dsimp only
  rw [if_neg hgo, if_neg horphan, if_neg (Nat.not_lt.mpr hroom), if_neg (Nat.not_lt.mpr (Nat.le_of_eq hlen.symm)),
    List.take_of_length_le (Nat.le_of_eq hlen)]
  refine fetchEntries_short fuel src ix qn host _ ?_
  rw [List.length_drop, hlen, Nat.sub_self]
  decide

/-- An entry without the mark is dropped. -/
theorem fetchEntries_unmarked {fuel ix : Nat} {src : Src} {qn : Option Nat} {ws : List Word} {host : List HostByte} {s : State}
    {sl : Sluice} {r : Ring} (h : findSluice s ix = some sl) (hr : ringOf sl qn = some r) (hp : intakePaused s ix = false)
    (hmark : hdrMark ws ≠ 0x5A) (hlen : ws.length = 16) (hroom : sqAvail r ≠ 0) :
    fetchEntries (fuel + 1) src ix qn ws host s = dropOrphan ix qn s := by
  have hgo : ¬ (sqAvail r = 0 ∨ ws.length < 16 ∨ intakePaused s ix = true) := by
    rintro (h | h | h)
    · exact hroom h
    · omega
    · exact Bool.false_ne_true (hp.symm.trans h)
  unfold fetchEntries
  rw [getRing_eq h, hr]
  dsimp only
  rw [if_neg hgo, if_pos (by simp [hmark])]
  exact fetchEntries_short fuel src ix qn host _ (by rw [List.length_drop, hlen]; decide)

/-- A ring without orphan positions drops the entry at its position. -/
theorem dropOrphan_eq {s : State} {ix q : Nat} {sl : Sluice} {r : Ring} (h : findSluice s ix = some sl) (hr : tabFind sl.qps q = some r)
    (ho : r.orphans = []) :
    dropOrphan ix (some q) s = modSluice ix (fun _ => { sl with
      orphan := true
      orphanCount := min (sl.orphanCount + 1) (2 ^ 32 - 1)
      qps := tabInsert sl.qps q { r with
        position := (r.position + 1) % 2 ^ r.sqLog2, sqHead := (r.position + 1) % 2 ^ r.sqLog2
        partialAt := none, partialWords := [] } }) s := by
  have hring : ({ r with orphans := r.orphans.filter fun x => decide (x ≠ r.position) } : Ring) = r := by
    rw [ho]
    obtain ⟨⟩ := r
    cases ho
    rfl
  have h1 := findSluice_modSluice (fun _ => putRing (some q) r sl) h
  have h2 := findSluice_modSluice (fun sl => { sl with orphan := true, orphanCount := satAdd 32 sl.orphanCount 1 }) h1
  unfold dropOrphan movePosition
  rw [modRing_eq (qn := some _) _ h hr]
  dsimp only
  rw [hring, modRing_eq (qn := some q) (r := r) _ h2 (tabFind_insert_same _ _ _), modSluice_modSluice _ _ h1, modSluice_modSluice _ _ h]
  refine modSluice_congr h ?_
  simp only [putRing, tabInsert_twice]
  rfl

/-- The entries of a queue pair whose sluice is matched and whose intake runs are fetched. -/
theorem entryFetch_runs {port : Fin 17} {ld : Fin 16} {qp : BitVec 8} {ws : List Word} {host : List HostByte} {s : State} {sl : Sluice}
    (h : findSluice s (sluiceIx port ld) = some sl) (hst : sl.state ≠ .unmatched) (hi : s.q.intakeHeld = false) :
    entryFetch port ld (some qp) ws host s
      = fetchEntries (ws.length / 16 + 1) (.data port ld qp) (sluiceIx port ld) (some qp.toNat) ws host s := by
  unfold entryFetch
  dsimp only
  rw [h, hi]
  exact if_pos (by simp [hst])

/-! ### Accepted items (R348) -/

/-- The command of an item of a submission ring without a request identifier joins those outstanding. -/
theorem addCmd_data {s : State} {port : Fin 17} {ld : Fin 16} {qp : BitVec 8} {words : List Word} {host : List HostByte}
    (hrid : hdrRid words = false) :
    addCmd (newCmd s ⟨.data port ld qp, words, host⟩) s
      = { s with q := { s.q with cmds := s.q.cmds ++ [newCmd s ⟨.data port ld qp, words, host⟩], next := s.q.next + 1 } } := by
  unfold addCmd
  dsimp only
  rw [show (newCmd s ⟨.data port ld qp, words, host⟩).src = .data port ld qp from rfl]
  dsimp only
  rw [show (newCmd s ⟨.data port ld qp, words, host⟩).remembered = hdrRid words from rfl, hrid]
  rfl

/-- The last of the commands outstanding is found by its serial when every other serial is lower. -/
theorem find_last_serial {l : List Cmd} {c : Cmd} (h : ∀ d ∈ l, d.serial < c.serial) :
    (l ++ [c]).find? (fun d => decide (d.serial = c.serial)) = some c := by
  rw [List.find?_append, List.find?_eq_none.mpr fun d hd => by simp [Nat.ne_of_lt (h d hd)]]
  simp

/-- A command that reads no table pins no version. -/
theorem pinVersion_noTable {k : Nat} {s : State} {c : Cmd} (h : s.q.cmds.find? (fun d => decide (d.serial = k)) = some c)
    (hop : c.opcode ∉ [0x80, 0x81, 0x84]) : pinVersion k s = s := by
  unfold pinVersion
  rw [h]
  exact if_pos (by simpa using hop)

/-! ### Dispatch (R347) -/

/-- A dispatched command is found as it was started. -/
theorem find_dispatchCmd {s : State} {c : Cmd} (h : s.q.cmds.find? (fun d => decide (d.serial = c.serial)) = some c) :
    (dispatchCmd c.serial s).q.cmds.find? (fun d => decide (d.serial = c.serial)) = some (started s c) :=
  find_map_serial _ _ (fun d => { d with waiting := false, modes := (polderOf s d.polder).modes, arith := s.fw.running.manifest.arith })
    c (fun _ => rfl) h

/-- A command that begins runs the meaning of its opcode. -/
theorem startWaiting_found {s : State} {c : Cmd} (h : s.q.cmds.find? (fun d => decide (d.serial = c.serial)) = some c) :
    startWaiting c s = runOpcode (started s c) (dispatchCmd c.serial s) := by
  unfold startWaiting
  dsimp only
  rw [find_dispatchCmd h]

/-- Settles O20, by what each step of the intake finds. -/
theorem queueIntake : Obligations.QueueIntake := by
  unfold Obligations.QueueIntake
  refine ⟨?_, ?_, ?_, ?_, ?_, ?_⟩
  · intro port ld qp words host s sl r h hst hr hi hp ho hmark hlen hroom
    exact next_settle ((entryFetch_runs h hst hi).trans (fetchEntries_item (qn := some _) h hr hp ho hmark hlen hroom))
  · intro port ld qp words s sl r h hst hr hi hp ho hmark hlen hroom
    exact next_settle ((entryFetch_runs h hst hi).trans ((fetchEntries_unmarked (qn := some _) h hr hp hmark hlen hroom).trans (dropOrphan_eq h hr ho)))
  · intro port ld qp words host s hin hrid hop hserials
    refine ⟨newCmd s ⟨.data port ld qp, words, host⟩, ?_, rfl, rfl, rfl, rfl, rfl, rfl⟩
    unfold acceptItem
    dsimp only
    rw [hin]
    dsimp only
    rw [addCmd_data hrid]
    exact pinVersion_noTable (c := newCmd s ⟨.data port ld qp, words, host⟩) (find_last_serial (c := newCmd s ⟨.data port ld qp, words, host⟩) hserials) hop
  · intro port ld qp s sl r p h hr hi hpart
    have hring : getRing s (sluiceIx port ld) (some qp.toNat) = some r := (getRing_eq h).trans hr
    refine next_settle ?_
    unfold partialExpiry endPartial abandonPartial
    dsimp only [qpNat, Option.map_some, ringSrc]
    rw [hring]
    dsimp only
    rw [hpart, if_neg (by simp [hi]), modRing_eq (qn := some _) _ h hr]
    rfl
  · intro s c hn hfind
    refine next_settle ?_
    unfold dispatchOp
    rw [hn]
    exact startWaiting_found hfind
  · intro polder s c rest hw hnot hfind hpol hfind2 hdisp hnw
    have hrest : (c.serial :: rest).filter (fun k => decide (k ≠ c.serial)) = rest := by
      rw [List.filter_cons_of_neg (by simp)]
      exact List.filter_eq_self.mpr fun k hk => by simpa using fun e : k = c.serial => hnot (e ▸ hk)
    have hstart : startWaiting c { s with res := { s.res with poolWaiters := rest } }
        = runOpcode (started s c) (dispatchCmd c.serial { s with res := { s.res with poolWaiters := rest } }) := startWaiting_found hfind
    refine next_settle ?_
    unfold poolSpaceFree
    dsimp only at hdisp hstart hnw ⊢
    rw [hw, List.findSome?_cons, hfind2]
    dsimp only
    rw [hrest, hdisp, hstart, hnw]
    rfl

/-! ### Interrupts (R352) -/

/-- The vector of entries that a timeout covers goes out, or becomes pending. -/
theorem coalesceTimeout_covers {port : Fin 17} {ld : Fin 16} {qp : Nat} {s : State} {sl : Sluice} {r : Ring}
    (h : findSluice s (sluiceIx port ld) = some sl) (hr : tabFind sl.qps qp = some r) (hirq : r.irqEn = true) (htime : r.aggTime ≠ 0)
    (hun : r.uncovered ≠ 0) :
    coalesceTimeout port ld qp s = sendVector (sluiceIx port ld) r.vector
      (modSluice (sluiceIx port ld) (fun _ => putRing (some qp) { r with uncovered := 0 } sl) s) := by
  have hring : getRing s (sluiceIx port ld) (some qp) = some r := (getRing_eq h).trans hr
  unfold coalesceTimeout
  dsimp only
  rw [hring]
  dsimp only
  rw [if_pos (by simp [hirq, htime, hun]), modRing_eq (qn := some _) _ h hr]

/-- The sluice that a vector is of. -/
theorem sluiceOr_of_found {s : State} {ix : Nat} {sl : Sluice} (h : findSluice s ix = some sl) : sluiceOr s ix = sl := by
  unfold sluiceOr tabGet
  rw [show tabFind s.q.sluices ix = some sl from h]
  rfl

/-- An unmasked vector is sent. -/
theorem sendVector_unmasked {s : State} {ix v : Nat} {sl : Sluice} (h : findSluice s ix = some sl) (hv : v ∈ sl.unmasked) :
    sendVector ix v s = emit (.msix ix v) s := by
  unfold sendVector
  rw [sluiceOr_of_found h, if_pos (by simpa using hv)]

/-- A masked vector becomes pending. -/
theorem sendVector_masked {s : State} {ix v : Nat} {sl : Sluice} (h : findSluice s ix = some sl) (hv : v ∉ sl.unmasked)
    (hp : v ∉ sl.msixPending) : sendVector ix v s = modSluice ix (fun _ => { sl with msixPending := sl.msixPending ++ [v] }) s := by
  unfold sendVector
  rw [sluiceOr_of_found h, if_neg (by simpa using hv)]
  refine modSluice_congr h ?_
  rw [if_neg (by simpa using hp)]

/-- Settles O21, by what the sluice holds when its queue or vector is switched. -/
theorem queueInterrupts : Obligations.QueueInterrupts := by
  unfold Obligations.QueueInterrupts
  refine ⟨?_, ?_, ?_, ?_, ?_⟩
  · intro port ld s sl h he hheld hev hlost
    refine next_settle ?_
    unfold adminEnableOp
    dsimp only
    rw [h]
    dsimp only
    rw [if_neg (by simp [he]), drainEvents_nothing 66 (findSluice_modSluice _ h) hev hlost]
    exact modSluice_congr h rfl
  · intro port ld s sl h he
    refine next_settle ?_
    unfold adminDisableOp
    dsimp only
    rw [h]
    dsimp only
    rw [if_neg (by simp [he])]
    exact modSluice_congr h rfl
  · intro port ld qp s sl r h hr hirq htime hun hmem
    exact next_settle ((coalesceTimeout_covers h hr hirq htime hun).trans (sendVector_unmasked (findSluice_modSluice _ h) hmem))
  · intro port ld qp s sl r h hr hirq htime hun hmem hpend
    refine next_settle ((coalesceTimeout_covers h hr hirq htime hun).trans ?_)
    rw [sendVector_masked (findSluice_modSluice _ h) hmem hpend, modSluice_modSluice _ _ h]
    rfl
  · intro port ld vector s sl h hmem
    refine next_settle ?_
    unfold unmaskVector
    dsimp only
    rw [h]
    dsimp only
    have hchange : modSluice (sluiceIx port ld) (fun sl => { sl with
        unmasked := if sl.unmasked.contains vector.toNat then sl.unmasked else sl.unmasked ++ [vector.toNat]
        msixPending := sl.msixPending.filter (· ≠ vector.toNat) }) s
        = modSluice (sluiceIx port ld) (fun _ => { sl with
          unmasked := sl.unmasked ++ [vector.toNat]
          msixPending := sl.msixPending.filter (· ≠ vector.toNat) }) s := by
      refine modSluice_congr h ?_
      rw [if_neg (by simpa using hmem)]
    rw [hchange]
    by_cases hp : vector.toNat ∈ sl.msixPending
    · rw [if_pos hp, if_pos (by simpa using hp)]
    · rw [if_neg hp, if_neg (by simpa using hp)]
      rfl

end Sys2Proof.Machine

/-!
The services of crown cores (chapter 15).
-/

namespace Sys2Proof.Machine

/-- A call of a core that runs reaches its run and its command. -/
theorem crownCall_runs {run core : Nat} {s : State} {r : CrownRun} {c : Cmd} (go : Cmd → CrownRun → State → State)
    (h : Serves run core s r c) : crownCall run core go s = go c r s := by
  obtain ⟨hr, hc, hruns, -⟩ := h
  unfold crownCall
  rw [hr, hc]
  exact if_pos hruns

/-- A call of a core that runs and is there is served. -/
theorem crownCall_serves {run core : Nat} {s : State} {r : CrownRun} {c : Cmd} (go : Cmd → CrownRun → State → State)
    (h : Serves run core s r c) : whenHere (crownCoreAway s core) (crownCall run core go) s = go c r s := by
  have hcall := crownCall_runs go h
  obtain ⟨-, -, -, hhere⟩ := h
  unfold whenHere
  rw [hhere, if_neg Bool.false_ne_true, hcall]

/-- A core that runs belongs to a run that has not ended. -/
theorem Serves.notEnded {run core : Nat} {s : State} {r : CrownRun} {c : Cmd} (h : Serves run core s r c) : r.ended = false := by
  obtain ⟨-, -, hruns, -⟩ := h
  unfold coreRuns at hruns
  simp only [Bool.and_eq_true, Bool.not_eq_true'] at hruns
  exact hruns.1.1.1

/-- Taking the first of the posted completions leaves the others. -/
theorem takeDone_first {run cid : Nat} {r : CrownRun} {words : List Word} {rest : List (Nat × List Word)} (s : State)
    (h : r.done = (cid, words) :: rest) : takeDone run cid r s = putRun run { r with done := rest } s := by
  have hix : r.done.findIdx? (fun d => decide (d.1 = cid)) = some 0 := by rw [h]; simp [List.findIdx?_cons]
  unfold takeDone
  rw [hix]
  dsimp only
  rw [h]
  rfl

/-- The first of the posted completions is found. -/
theorem find_done_first {r : CrownRun} {cid : Nat} {words : List Word} {rest : List (Nat × List Word)} (h : r.done = (cid, words) :: rest) :
    r.done.find? (fun d => decide (d.1 = cid)) = some (cid, words) := by
  rw [h]; simp

/-- A trap ends a run that has not ended. -/
theorem trapRun_running {run cause : Nat} {s : State} {r : CrownRun} (hr : tabFind s.eng.runs run = some r) (he : r.ended = false) :
    trapRun run cause s = endRun run { r with trap := some cause } s := by
  unfold trapRun
  rw [hr]
  exact if_neg (by simp [he])

/-- A wait for a completion that is outstanding blocks its core. -/
theorem crownWaitOp_blocks {run core cid : Nat} {s : State} {r : CrownRun} {c : Cmd} (h : Serves run core s r c)
    (hnone : r.done.find? (fun d => decide (d.1 = cid)) = none) (ho : (r.outstanding.any fun o => decide (o.2 = cid)) = true) :
    whenHere (crownCoreAway s core) (crownWaitOp run core cid) s
      = putRun run { r with blocked := r.blocked ++ [(core, cid)] } s := by
  refine (crownCall_serves _ h).trans ?_
  rw [hnone]
  exact if_pos ho

/-- Settles O22, by what the run of a serving core holds. -/
theorem crownServices : Obligations.CrownServices := by
  unfold Obligations.CrownServices
  refine ⟨?_, ?_, ?_, ?_, ?_, ?_, ?_, ?_, ?_, ?_, ?_, ?_, ?_, ?_, ?_, ?_, ?_⟩
  · intro run core words s r c h hroom hi htcx
    have hgo : ¬ (r.outstanding.length ≥ 64 ∨ s.q.intakeHeld = true) := by simp [hi, hroom]
    exact next_settle ((crownCall_serves _ h).trans ((if_neg hgo).trans (congrArg (crownAnswer run core.val []) (if_neg (not_not.mpr htcx)))))
  · intro run core words s r c h hroom hi htcx
    have hgo : ¬ (r.outstanding.length ≥ 64 ∨ s.q.intakeHeld = true) := by simp [hi, hroom]
    exact next_settle ((crownCall_serves _ h).trans ((if_neg hgo).trans (congrArg (crownAnswer run core.val []) (if_pos htcx))))
  · intro run core cid s r c words rest h hdone
    refine next_settle ((crownCall_serves _ h).trans ?_)
    rw [find_done_first hdone, takeDone_first s hdone]
    rfl
  · intro run core cid s r c h hnone ho
    exact next_settle (crownWaitOp_blocks h hnone ho)
  · intro run core cid s r c words rest h hdone
    refine next_settle ((crownCall_serves _ h).trans ?_)
    rw [find_done_first hdone, takeDone_first s hdone]
    rfl
  · intro run core cid s r c h hnone ho
    refine next_settle ((crownCall_serves _ h).trans ?_)
    rw [hnone]
    exact if_pos ho
  · intro run core cnt threshold s r c h hv
    exact next_settle ((crownCall_serves _ h).trans (if_pos hv))
  · intro run core cnt threshold s r c h hv
    exact next_settle ((crownCall_serves _ h).trans (if_neg (Nat.not_le.mpr hv)))
  · intro run core s r c h hw
    exact next_settle ((crownCall_serves _ h).trans (if_neg (Bool.eq_false_iff.mp hw)))
  · intro run core s r c h
    exact next_settle (crownCall_serves _ h)
  · intro run core s r c h
    exact next_settle (crownCall_serves _ h)
  · intro run core data s r c h htime
    have hgo : ¬ (tabGet r.logTick 0 core.val ≠ 0 ∧ s.time < tabGet r.logTick 0 core.val - 1 + 250) := by omega
    exact next_settle ((crownCall_serves _ h).trans (if_neg hgo))
  · intro run core data s r c last h hlast htime
    have hgo : tabGet r.logTick 0 core.val ≠ 0 ∧ s.time < tabGet r.logTick 0 core.val - 1 + 250 := by omega
    exact next_settle ((crownCall_serves _ h).trans (if_pos hgo))
  · intro run core value s r c h hall
    exact next_settle ((crownCall_serves _ h).trans (if_neg (Bool.eq_false_iff.mp hall)))
  · intro run core value s r c h hall
    exact next_settle ((crownCall_serves _ h).trans (if_pos hall))
  · intro run core s r c h
    exact next_settle ((crownCall_serves _ h).trans (trapRun_running h.1 h.notEnded))
  · intro run s r hr he haway hsub
    refine next_settle ((if_neg (by simp [haway])).trans ?_)
    unfold crownLimitOp
    rw [hr]
    dsimp only
    rw [if_neg (by simp [he]), trapRun_running hr he]
    have hnone : submitted (endRun run { r with trap := some 1 } s) run = [] := hsub
    rw [hnone]
    rfl

end Sys2Proof.Machine

/-!
Reads, ownership requests and eviction notices of hosts over CXL.mem (chapters 2 and 4).
-/

namespace Sys2Proof.Machine

/-- A granted request is passed on for its host. -/
theorem hostRequest_granted {q : MemReq} {need : Right} {mem : Bool} {s : State} {hid : Nat} (answer : State → State) (go : Nat → State → State)
    (hb : tabFind s.q.bound (sluiceIx q.port q.ld) = some hid) (ha : hostAllowed s hid q need mem = true) :
    hostRequest q need mem answer go s = go hid s := by
  unfold hostRequest hidOfReq
  rw [hb]
  exact if_pos ha

/-- A request that the HIT does not grant is refused. -/
theorem hostRequest_refused {q : MemReq} {need : Right} {mem : Bool} {s : State} {hid : Nat} (answer : State → State) (go : Nat → State → State)
    (hb : tabFind s.q.bound (sluiceIx q.port q.ld) = some hid) (ha : hostAllowed s hid q need mem = false) :
    hostRequest q need mem answer go s = answer (refuseHost hid q s) := by
  unfold hostRequest hidOfReq
  rw [hb]
  exact if_neg (Bool.eq_false_iff.mp ha)

/-- Only requests for ownership and atomics train the predictor. -/
theorem trainPredictor_shared {line : Nat} {req : LineReq} (w : Bool) (s : State) (h : req.op = .readShared ∨ req.op = .specRead) :
    trainPredictor line req w s = s := by
  unfold trainPredictor
  rcases h with h | h
  · rw [h]; rfl
  · rw [h]; rfl

/-- A request for ownership alone reads no medium. -/
theorem needsMedium_invOwned {s : State} {line : Nat} {req : LineReq} (h : req.op = .invOwned) : needsMedium s line req = false := by
  unfold needsMedium; rw [h]; simp

/-- An eviction notice takes its host off an exact list that others remain on. -/
theorem hostEvict_sharer {q : MemReq} {s : State} {hid : Nat} {d : DirSlot} (hb : tabFind s.q.bound (sluiceIx q.port q.ld) = some hid)
    (ha : hostAllowed s hid q .read true = true) (hs : slotOf s (lineOf q.tpa.toNat) = some d) (hcrown : d.crown = false)
    (hcoarse : d.coarse = false) (hmem : hid ∈ d.ids) (hmore : d.ids.filter (· ≠ hid) ≠ []) :
    hostEvict q s = sendS2m q.port q.ld q.tpa.toNat (.memCmp q.port q.ld q.tag.toNat false)
      (refreshSlot (lineOf q.tpa.toNat) { d with ids := d.ids.filter (· ≠ hid) } s) := by
  refine (hostRequest_granted _ _ hb ha).trans ?_
  dsimp only
  rw [hs]
  dsimp only
  rw [if_neg (by simp [hcrown, hcoarse, hmem]), if_neg hmore]

/-- Settles O23, by what the HIT grants and what the directory holds of an idle line. -/
theorem hostReads : Obligations.HostReads := by
  unfold Obligations.HostReads
  refine ⟨?_, ?_, ?_, ?_, ?_, ?_, ?_⟩
  · intro q mv s hid hb ha hidle
    refine ⟨_, rfl, next_settle ?_⟩
    exact (hostRequest_granted _ _ hb ha).trans (requestLine_idle _ hidle)
  · intro q s hid hb ha hidle
    refine ⟨_, rfl, next_settle ((hostRequest_granted _ _ hb ha).trans ?_)⟩
    rw [requestLine_idle _ hidle, trainPredictor_shared false s (Or.inl rfl)]
    rfl
  · intro q s hid hb ha hidle
    refine ⟨_, rfl, next_settle ((hostRequest_granted _ _ hb ha).trans ?_)⟩
    rw [requestLine_idle _ hidle, needsMedium_invOwned rfl]
    rfl
  · intro q s hid hb ha hidle
    refine ⟨_, rfl, next_settle ((hostRequest_granted _ _ hb ha).trans ?_)⟩
    rw [requestLine_idle _ hidle, trainPredictor_shared false s (Or.inr rfl)]
    rfl
  · intro q mv s hid hb ha
    exact ⟨_, rfl, next_settle (hostRequest_refused _ _ hb ha)⟩
  · intro q s hid d hb ha hs hcrown hcoarse hmem hmore
    exact next_settle (hostEvict_sharer hb ha hs hcrown hcoarse hmem hmore)
  · intro q s hb
    refine ⟨_, rfl, next_settle ?_⟩
    unfold unboundRequest hidOfReq
    rw [hb]
    rfl

end Sys2Proof.Machine

/-!
The memory of crown cores, and the events of kernels (chapter 15).
-/

namespace Sys2Proof.Machine

/-! ### Poison (R80) -/

/-- What a poisoned line that a core reads leaves before the handler or the end of the run. -/
def poisonNoted (run core tpa : Nat) (s : State) : State :=
  modCmd run (fun c => { c with status := statusJoin c.status .poisoned }) { s with eng := { s.eng with l2Poison := [core * 2 ^ 44 + lineOf tpa] } }

/-- A poisoned line that a core of a run reads enters the handler's vector or ends the run. -/
theorem crownPoisonOp_poisoned {run core dva : Nat} {s : State} {r : CrownRun} {c : Cmd} {seg tpa : Nat} (h : Serves run core s r c)
    (hat : checkByte s c.tcx dva .read = .at seg tpa) (hp : linePoisoned s tpa = true) (hl2 : s.eng.l2Poison = []) :
    crownPoisonOp run core dva s = if r.handler then
        emit (.crownVector run core (dva / 64 * 64)) (putRun run { r with poisoned := true } (poisonNoted run core tpa s))
      else endRun run { r with poisoned := true } (poisonNoted run core tpa s) := by
  refine (crownCall_runs _ h).trans ?_
  rw [hat]
  dsimp only
  rw [hp, hl2]
  rfl

/-! ### Atomics of crown cores (R309) -/

/-- A naturally aligned 8-byte atomic of a unit that may work for the TCX becomes an access. -/
theorem unitAtomic_wide {unit engine stream t serial dva : Nat} {op : AtomicKind} {operand new : BitVec 64} {s : State}
    (hmay : engineMay s unit engine t serial = true) (halign : dva % 8 = 0) :
    unitAtomic unit engine stream t serial dva op true operand.toNat new.toNat s = issueAccess {
      unit := unit, engine := engine, stream := stream, tcx := t, serial := serial, write := true, dva := dva, length := 8, dest := 0
      atomic := some (atomicCode op, operand.toNat, new.toNat, decide (unit ≥ 0xC0)) } s := by
  unfold unitAtomic
  dsimp only
  rw [hmay, if_pos rfl, halign, Nat.mod_eq_of_lt operand.isLt, Nat.mod_eq_of_lt new.isLt]
  rfl

/-! ### Items (R321, R323) -/

/-- A cutover moves the unfinished items to their new cores. -/
theorem cutover_moves {serial : Nat} {s : State} {pl : Placement} (hpl : tabFind s.eng.placements serial = some pl)
    (hm : pl.migrating = true) (hq : pl.queued = []) :
    cutover serial s = putPlacement serial { pl with
      migrating := false
      items := tabMap pl.items {} fun i w =>
        match w.newCore with
        | none => w
        | some k => if w.accepted then { w with newCore := none, past := w.past ++ [k] }
          else { w with core := some k, newCore := none, past := w.past ++ [itemCore pl i] } } s := by
  unfold cutover
  rw [hpl]
  dsimp only
  rw [hm, if_neg (by decide), if_pos hq, hq] <;> rfl

/-- A result of an item that its core runs, for a command that goes on, is accepted or, as a second one, discarded. -/
theorem itemLanded_runs {serial item core : Nat} {out : List DvaByte} {overflow : Bool} {s : State} {pl : Placement} {c : Cmd}
    (hpl : tabFind s.eng.placements serial = some pl) (hc : (s.q.cmds.find? fun d => decide (d.serial = serial)) = some c)
    (hb : pl.begun = true) (hi : item < pl.counts.getD pl.phase 0) (hstop : c.stopped = false) (hl : c.lines = [])
    (hcore : core = itemCore pl item) :
    itemLanded serial item core out overflow s = if (itemAt pl item).accepted then (if pl.migrated then discardItem serial pl c s else s)
      else acceptResult serial item core out overflow pl c s := by
  have hruns : (decide (core = itemCore pl item) || decide ((itemAt pl item).newCore = some core)) = true := by simp [hcore]
  unfold itemLanded
  rw [hpl, hc]
  dsimp only
  rw [hruns, if_neg (by simpa [hb, hstop, hl] using hi), if_neg (by simp), if_neg (by decide)]

/-- A phase of a kernel that has cores begins on them. -/
theorem phaseStart_begins {serial : Nat} {s : State} {pl : Placement} {c : Cmd} (hpl : tabFind s.eng.placements serial = some pl)
    (hc : (s.q.cmds.find? fun d => decide (d.serial = serial)) = some c) (hb : pl.begun = false) (hstop : c.stopped = false)
    (hop : c.opcode = 0xA0) (hw : writesPending s c.tcx = false) (hcores : phaseCores s c.tcx c.polder pl ≠ []) :
    phaseStart serial s = (
      let t := putPlacement serial { pl with cores := phaseCores s c.tcx c.polder pl, begun := true, items := [] } s
      { t with eng := { t.eng with
        stores := (phaseCores s c.tcx c.polder pl).foldl (fun l k => tabModify l {} k fun st => { st with counters := [] }) s.eng.stores } }) := by
  unfold phaseStart
  rw [hpl, hc]
  dsimp only
  rw [if_neg (by simp [hb, hstop, hop, hw]), if_neg hcores]
  rfl

/-- Settles O25, by what the run or the placement of the command holds. -/
theorem crownMemory : Obligations.CrownMemory := by
  unfold Obligations.CrownMemory
  refine ⟨?_, ?_, ?_, ?_, ?_, ?_, ?_⟩
  · intro run core dva s r c seg tpa h hat hp hh hl2
    exact next_settle ((crownPoisonOp_poisoned h hat hp hl2).trans (if_pos hh))
  · intro run core dva s r c seg tpa h hat hp hh hl2
    exact next_settle ((crownPoisonOp_poisoned h hat hp hl2).trans (if_neg (Bool.eq_false_iff.mp hh)))
  · intro run core dva op operand new s c hc hmay halign
    refine next_settle ?_
    unfold crownAtomicOp
    rw [hc]
    dsimp only
    rw [unitAtomic_wide hmay halign, decide_eq_true (Nat.le_add_right 0xC0 core.val)]
  · intro serial s pl haway hpl hm hq
    exact next_settle ((if_neg (Bool.eq_false_iff.mp haway)).trans (cutover_moves hpl hm hq))
  · rintro serial item core out overflow s pl c _ hpl hc hb hi hstop hl hcore hacc rfl hblock
    refine next_settle ((itemLanded_runs hpl hc hb hi hstop hl hcore).trans ((if_neg (Bool.eq_false_iff.mp hacc)).trans ?_))
    exact if_neg (Bool.eq_false_iff.mp hblock)
  · intro serial item core out overflow s pl c hpl hc hb hi hstop hl hcore hacc hmig hrep
    refine next_settle ((itemLanded_runs hpl hc hb hi hstop hl hcore).trans ((if_pos hacc).trans ((if_pos hmig).trans ?_)))
    exact if_neg (Bool.eq_false_iff.mp hrep)
  · intro serial s pl c haway hpl hc hb hstop hop hw hcores
    exact ⟨_, rfl, next_settle ((if_neg (Bool.eq_false_iff.mp haway)).trans (phaseStart_begins hpl hc hb hstop hop hw hcores))⟩

end Sys2Proof.Machine

/-!
What the media and their channels report (chapters 4 and 7).
-/

namespace Sys2Proof.Machine

/-- Counting a corrected error leaves the homes' state alone. -/
@[simp] theorem countCorrected_coh (tpa device : Nat) (s : State) : (countCorrected tpa device s).coh = s.coh := by
  unfold countCorrected
  dsimp only
  split
  · rfl
  · split
    · rfl
    · split
      · exact notifyFm_coh _ _ _
      · rfl

/-- A read of a medium other than flash that finds nothing bad ends the wait of the request in service. -/
theorem mediumDone_harmless {tpa : Nat} {e : Ecc} {s s' : State} {f : Flow} (hf : tabFind s.coh.flows (lineOf tpa) = some f)
    (hm : f.medium = true) (hr : regionOf tpa ≠ .flash) (hfind : mediumFind (lineOf tpa * 64) e s = (s', false)) (hcoh : s'.coh = s.coh) :
    mediumDone tpa e s = putFlow (lineOf tpa) { f with medium := false } s' := by
  unfold mediumDone
  dsimp only
  rw [hf]
  dsimp only
  rw [hm, if_neg (by simp [hr]), hfind]
  dsimp only
  rw [hcoh, hf]
  dsimp only
  rw [Bool.or_false]

/-- A channel that holds no map loses none. -/
theorem loseMaps_unmapped {n : Nat} {s : State} (h : (s.tray.mapHome.filter fun e => decide (e.2 = n)) = []) : loseMaps n s = s := by
  unfold loseMaps
  rw [h]
  rfl

/-- A failed DDR channel that holds no map and serves no polder is marked and noticed. -/
theorem channelFailed_unusedDdr {n : Fin 24} {s : State} (hnew : s.res.failedDdr.getLsbD n.val = false)
    (hmaps : (s.tray.mapHome.filter fun e => decide (e.2 = n.val)) = []) (hpol : channelPolder s (.ddr n) = none) :
    channelFailed (.ddr n) s = notifyFm { kind := 0x08, unit := n.val } 0
      { s with res := { s.res with failedDdr := s.res.failedDdr ||| BitVec.ofNat 24 (2 ^ n.val) } } := by
  have hlost : loseMaps n.val { s with res := { s.res with failedDdr := s.res.failedDdr ||| BitVec.ofNat 24 (2 ^ n.val) } }
      = { s with res := { s.res with failedDdr := s.res.failedDdr ||| BitVec.ofNat 24 (2 ^ n.val) } } := loseMaps_unmapped hmaps
  have hnone : channelPolder { s with res := { s.res with failedDdr := s.res.failedDdr ||| BitVec.ofNat 24 (2 ^ n.val) } } (.ddr n) = none :=
    hpol
  dsimp only at hlost hnone
  unfold channelFailed
  dsimp only
  rw [hnew, if_neg Bool.false_ne_true, hlost, hnone]
  rfl

/-- A finished rebuild puts the spare in the failed channel's place. -/
theorem rebuildDone_spare {p : Nat} {s : State} {r : Rebuild} (hr : (polderOf s p).rebuild = some r) (ho : s.pins.ilOpen = false)
    (hf : s.pins.ilFault = false) :
    rebuildDone p s = notifyFm { kind := 0x08, polder := p, unit := r.failed } 0
      (bumpResil p 0x58 (s.tray.share * 2 ^ 30) (setPolder p { polderOf s p with
        rebuild := none
        spareFor := some ((maskBits 24 (polderOf s p).ddr.toNat).findIdx fun n => decide (n = r.failed)) } s)) := by
  unfold rebuildDone
  dsimp only
  rw [hr]
  dsimp only
  rw [ho, hf]
  rfl

/-- Settles O26, by what each report finds of its line or channel. -/
theorem mediumRows : Obligations.MediumRows := by
  unfold Obligations.MediumRows
  refine ⟨?_, ?_, ?_, ?_, ?_, ?_, ?_⟩
  · intro tpa s f hf hm hr
    exact next_settle (mediumDone_harmless hf hm hr rfl rfl)
  · intro tpa d s f hf hm hr
    exact next_settle (mediumDone_harmless hf hm hr rfl (countCorrected_coh _ _ _))
  · intro tpa s
    rfl
  · intro n s hnew hmaps hpol
    exact next_settle (channelFailed_unusedDdr hnew hmaps hpol)
  · intro polder s r hr ho hf
    exact next_settle (rebuildDone_spare hr ho hf)
  · intro tpa s hp hr
    obtain ⟨p, hp⟩ := Option.isSome_iff_exists.mp hp
    refine next_settle ?_
    unfold patrolOp
    rw [hp]
    exact if_neg hr
  · intro tpa s p hp hmir hr
    refine next_settle ?_
    unfold patrolOp
    rw [hp]
    dsimp only [mediumFind]
    rw [if_neg (by rw [hr]; decide), if_neg (by simp), if_pos (by simp [hmir, hr])]

end Sys2Proof.Machine

/-!
The accesses of engines (chapters 3 to 5).
-/

namespace Sys2Proof.Machine

/-- No lost slot, no change. -/
@[simp] theorem loseFirst_nil (e : EngineRef) (dva : Nat) (s : State) : loseFirst e dva [] s = s := by
  unfold loseFirst loseSlots
  split
  · split <;> rfl
  · rfl

/-- An engine that goes on working for its last TCX keeps its segment cache. -/
theorem switchTcx_same {unit engine t : Nat} {s : State} (h : tabFind s.eng.lastTcx (cacheIx unit engine) = some t) :
    switchTcx unit engine t s = { s with eng := { s.eng with lastTcx := tabInsert s.eng.lastTcx (cacheIx unit engine) t } } := by
  unfold switchTcx
  dsimp only
  rw [h]
  dsimp only
  rw [if_pos rfl]

/-- Moving the used segments of a cache to its end keeps what it holds. -/
theorem mem_moved_to_end {α : Type} [DecidableEq α] (p : α → Bool) (l : List α) (c : α) :
    c ∈ (l.filter fun c => !(l.filter p).contains c) ++ l.filter p ↔ c ∈ l := by
  by_cases h : p c = true
  · simp [h]
  · simp [h]

/-- An access whose segments are cached, alone, is translated at once. -/
theorem issueAccess_cached {a : WaitingAccess} {s : State}
    (hall : (segsOfRange s a.tcx a.dva a.length).all (fun n => (segCache s a.unit a.engine).any fun c => decide (c.tcx = a.tcx ∧ c.seg = n)) = true)
    (hw : s.eng.waiting = []) (ht : tabFind s.eng.lastTcx (cacheIx a.unit a.engine) = some a.tcx) :
    ∃ l, issueAccess a s = startAccess a (putSegCache a.unit a.engine l { s with eng := { s.eng with
        lastTcx := tabInsert s.eng.lastTcx (cacheIx a.unit a.engine) a.tcx } }) ∧
      ∀ c, c ∈ l ↔ c ∈ segCache s a.unit a.engine := by
  have hmiss : ((segsOfRange s a.tcx a.dva a.length).filter fun n =>
      !(segCache s a.unit a.engine).any fun c => decide (c.tcx = a.tcx ∧ c.seg = n)) = [] := by
    rw [List.filter_eq_nil_iff]
    intro n hn
    simpa using List.all_eq_true.mp hall n hn
  refine ⟨_, ?_, mem_moved_to_end (fun c => decide (c.tcx = a.tcx) && (segsOfRange s a.tcx a.dva a.length).contains c.seg) _⟩
  unfold issueAccess
  rw [switchTcx_same ht]
  refine if_pos ?_
  have hnone : (!s.eng.waiting.any (sameBytes a)) = true := by rw [hw]; rfl
  exact Bool.and_eq_true_iff.mpr ⟨decide_eq_true hmiss, hnone⟩

/-- Where no access waits none is issued again. -/
theorem reissue_none {x : State} (h : x.eng.waiting = []) (p q : WaitingAccess → Bool) :
    (x.eng.waiting.filter p).foldl (fun s a => issueAccess a s) { x with eng := { x.eng with waiting := x.eng.waiting.filter q } } = x := by
  rw [h, List.filter_nil, List.filter_nil, List.foldl_nil, ← h]

/-- A fill of a valid entry that has not changed enters the cache. -/
theorem fillArrival_valid {unit engine stream entry : Nat} {s : State} {m : SegMiss} (hm : s.eng.misses = [m]) (hu : m.unit = unit)
    (he : m.engine = engine) (hs : m.stream = stream) (hen : m.entry = entry) (hstale : m.stale = false)
    (hv : (segOf s (entry / 16) (entry % 16)).valid = true) (hw : s.eng.waiting = []) :
    fillArrival unit engine stream entry s = fillSeg unit engine
      ⟨entry / 16, entry % 16, segOf s (entry / 16) (entry % 16)⟩ { s with eng := { s.eng with misses := [] } } := by
  have hthis : (decide (m.unit = unit) && decide (m.engine = engine) && decide (m.stream = stream) && decide (m.entry = entry)) = true := by
    simp [hu, he, hs, hen]
  have hwait : (fillSeg unit engine ⟨entry / 16, entry % 16, segOf s (entry / 16) (entry % 16)⟩
      { s with eng := { s.eng with misses := [] } }).eng.waiting = [] := hw
  unfold fillArrival
  dsimp only
  rw [hm, List.find?_cons, hthis]
  dsimp only
  rw [hstale, if_neg Bool.false_ne_true, List.filter_cons_of_neg (by simp [hthis]), List.filter_nil]
  rw [if_pos (show (segOf { s with eng := { s.eng with misses := [] } } (entry / 16) (entry % 16)).valid = true from hv)]
  exact reissue_none hwait _ _

/-- Settles O27, by what the engine may do and what its caches hold. -/
theorem engineAccesses : Obligations.EngineAccesses := by
  unfold Obligations.EngineAccesses
  refine ⟨?_, ?_, ?_, ?_, ?_, ?_, ?_, ?_⟩
  · intro e dva length dest s hmay h0 hmax
    refine next_settle ?_
    rw [loseFirst_nil]
    refine if_neg ?_
    simp only [hmay, Bool.not_true, Bool.false_or, decide_eq_true_eq]
    omega
  · intro e dva data poison s hmay h0 hmax
    refine next_settle (if_neg ?_)
    simp only [hmay, Bool.not_true, Bool.false_or, decide_eq_true_eq, h0, false_or]
    omega
  · intro e dva op operand new s hmay hu halign
    refine next_settle ((if_neg (Nat.not_le.mpr hu)).trans ?_)
    rw [unitAtomic_wide hmay halign, decide_eq_false (Nat.not_le.mpr hu)]
  · intro a s hall hw ht
    exact issueAccess_cached hall hw ht
  · intro unit engine stream entry s m hm hu he hs hen hstale hv hw
    exact next_settle (fillArrival_valid hm hu he hs hen hstale hv hw)
  · intro serial hid s
    rfl
  · intro tile data s e t he ht hlen
    refine next_settle ?_
    unfold thCompletion thEnd
    rw [he, ht]
    exact if_pos hlen
  · intro tile s e he
    refine next_settle ?_
    unfold thTimeout
    rw [he]

end Sys2Proof.Machine

/-!
The combining stage, placement periods, fills and merges (chapters 5, 8, 10 and 11).
-/

namespace Sys2Proof.Machine

/-! ### Fetch-and-add batches (R188) -/

/-- A batch is of one kind with itself, whatever it holds. -/
theorem sameBatch_self (b : FetchBatch) (forming : List (Asker × Nat)) (sent : List (List (Asker × Nat))) (results : List (Nat × Bool × Bool)) :
    sameBatch b { b with forming := forming, sent := sent, results := results } = true := by
  simp [sameBatch]

/-- The batch forming goes as one fetch-add. -/
theorem batchSend_forming {tpa key : Nat} {s : State} {b : FetchBatch} (hb : s.copy.batches = [b]) (ht : b.tpa = tpa) (hk : b.key = key)
    (hf : b.forming ≠ []) : batchSend tpa key s = sendBatch b s := by
  have hfind : s.copy.batches.find? (fun b => b.tpa = tpa && b.key = key && !(b.forming = [])) = some b := by
    rw [hb]; simp [ht, hk, hf]
  unfold batchSend
  rw [hfind]

/-- The old value of a batch that has nothing else under way goes to its members. -/
theorem resultReturn_only {tpa key : Nat} {s : State} {b : FetchBatch} {group : List (Asker × Nat)} {old : Nat} {bad tagBad : Bool}
    (hb : s.copy.batches = [b]) (ht : b.tpa = tpa) (hk : b.key = key) (hs : b.sent = [group]) (hf : b.forming = [])
    (hr : b.results = [(old, bad, tagBad)]) :
    resultReturn tpa key s = answerMembers b.bytes (lineOf tpa) old bad tagBad group { s with copy := { s.copy with batches := [] } } := by
  have hfind : s.copy.batches.find? (fun b => b.tpa = tpa && b.key = key && !(b.results = [])) = some b := by
    rw [hb]; simp [ht, hk, hr]
  unfold resultReturn
  rw [hfind]
  dsimp only [putBatch]
  rw [hs, hr, hf, hb]
  simp [sameBatch]

/-! ### Placement periods (R94, R95) -/

/-- Blocks of a polder with a promotion pool that were read often begin to be copied. -/
theorem samplePeriod_pool {p : Nat} {s : State} (h : poolBlocks (polderOf s p) ≠ 0) :
    samplePeriod p s = { s with tier := { s.tier with
      sample := s.tier.sample.filter fun e => decide (polderAt s (e.1 * 65536) ≠ some p)
      promoted := (((s.tier.sample.filter fun e => decide (polderAt s (e.1 * 65536) = some p)).filter fun e =>
          decide (64 ≤ e.2) && (tabFind s.tier.promoted e.1).isNone).map (·.1)).foldl
        (fun t b => tabInsert t b { pin := false, installed := false, polder := p }) s.tier.promoted } } := by
  unfold samplePeriod
  dsimp only
  rw [if_neg h]

/-- A finished copy is installed where the pool has room. -/
theorem promotionDone_room {tpa : Nat} {s : State} {b : Promoted} (hb : tabFind s.tier.promoted (tpa / 65536) = some b)
    (hi : b.installed = false) (hroom : promoRoom b.polder (dropPromoted (tpa / 65536) s) = some (dropPromoted (tpa / 65536) s)) :
    promotionDone tpa s = (
      let t := dropPromoted (tpa / 65536) s
      bumpTier b.polder 0x28 1 { t with tier := { t.tier with
        promoted := tabInsert t.tier.promoted (tpa / 65536) { pin := false, installed := true, polder := b.polder }
        promoLru := touch t.tier.promoLru (tpa / 65536) } }) := by
  unfold promotionDone installBlock
  dsimp only
  rw [hb]
  dsimp only
  rw [hi, if_neg Bool.false_ne_true, hroom]
  rfl

/-! ### Fills of granules (R152) -/

/-- A fill whose key is still in its slot is zero and bound to it. -/
theorem granuleFilled_bound {tpa : Nat} {s : State} {f : Fill} {k : KeySlot} (hf : s.key.fills = [f]) (hg : f.granule = granuleOf tpa)
    (hk : keySlotOf s f.tcx f.slot = some k) (he : k.key = f.key) :
    granuleFilled tpa s = zeroTpa (tpa / granuleBytes tpa * granuleBytes tpa) (granuleBytes tpa)
      { s with key := { s.key with fills := [], bindings := tabPut s.key.bindings .unbound f.granule (.bound f.tcx f.slot) } } := by
  have hfind : s.key.fills.find? (fun f => decide (f.granule = granuleOf tpa)) = some f := by rw [hf]; simp [hg]
  have hrest : s.key.fills.filter (fun g => decide (g.granule ≠ f.granule)) = [] := by rw [hf]; simp
  have hslot : keySlotOf { s with key := { s.key with fills := [] } } f.tcx f.slot = some k := hk
  dsimp only at hslot
  unfold granuleFilled
  rw [hfind]
  dsimp only
  rw [hrest, hslot]
  exact if_pos he

/-! ### Merges (R232) -/

/-- A merge of the only version of a table writes its rows. -/
theorem mergeEnd_current {key : Nat} {s : State} {t : Table} (ht : tabFind s.tbl.tables key = some t) (hm : t.current.merging = true)
    (hr : t.retiring = []) :
    mergeEnd key s = mergeRows key t t.current (putTable key
        { t with current := { t.current with merging := false, merged := true, overlay := [], overlayPoison := [], pool := 0 } } s) := by
  have hfind : (tableVersions t).find? (fun v => v.merging) = some t.current := by
    unfold tableVersions; rw [List.find?_cons, hm]
  unfold mergeEnd
  rw [ht]
  dsimp only
  rw [hfind]
  dsimp only
  rw [if_pos rfl, hr]
  rfl

/-! ### The spill point (R103) -/

/-- At its spill point a command waits no longer. -/
theorem spillCutoff_due {serial : Nat} {s : State} {c : Cmd}
    (hc : (s.q.cmds.find? fun d => decide (d.serial = serial) && !d.waiting && !d.cut) = some c) (hs : spills c = true)
    (hd : reserveOf c.opcode < hdrDeadline c.words) (ht : spillPoint c (reserveOf c.opcode) ≤ s.time) :
    spillCutoff serial s = modCmd serial (fun c => { c with cut := true, lines := [] })
      { s with tier := { s.tier with spilledReads := s.tier.spilledReads ++
          (c.issued.filter fun e => !c.delivered.contains e.1).map fun e => (serial, e.1, c.polder) } } := by
  unfold spillCutoff
  rw [hc]
  dsimp only
  rw [if_neg (by simp [hs, hd, ht])]

/-- Settles O28, by what the stage, the period or the table holds. -/
theorem combiningRows : Obligations.CombiningRows := by
  unfold Obligations.CombiningRows
  refine ⟨?_, ?_, ?_, ?_, ?_, ?_, ?_, ?_⟩
  · intro tpa key s b hb ht hk hf
    exact next_settle ((batchSend_forming hb ht hk hf).trans (if_neg hf))
  · intro tpa key s b group old bad tagBad hb ht hk hs hf hr
    exact next_settle (resultReturn_only hb ht hk hs hf hr)
  · intro polder s h
    exact next_settle (samplePeriod_pool h)
  · intro tpa s b hb hi hroom
    exact ⟨_, rfl, next_settle (promotionDone_room hb hi hroom)⟩
  · intro polder s hu hinc
    exact next_settle (if_neg (not_or.mpr ⟨hu, Nat.not_lt.mpr hinc⟩))
  · intro tpa s f k hf hg hk he
    exact next_settle (granuleFilled_bound hf hg hk he)
  · intro tcx table s t ht hm hr
    exact next_settle (mergeEnd_current ht hm hr)
  · intro serial s c haway hc hs hd ht
    exact next_settle ((if_neg (Bool.eq_false_iff.mp haway)).trans (spillCutoff_due hc hs hd ht))

end Sys2Proof.Machine

/-!
The weir and its levee links (chapters 1 and 9).
-/

namespace Sys2Proof.Machine

/-! ### Frames at an input (R171 to R177) -/

/-- A frame of class 0 to 5 that passes the checks goes to its queue or is held. -/
theorem weirArrival_checked {die att received : Nat} {f g : Frame} {s t : State} (hstart : s.fw.started = true) (hlive : dieLive s die = true)
    (hatt : attExists die att = true) (hok : s.weir.failedAtt.contains (die * 33 + att) = false) (hframe : frameOk f true received = true)
    (hpol : policeFrame die att f { s with weir := { s.weir with replays := tabErase s.weir.replays (die * 33 + att) } } = (g, t))
    (hcls : g.cls.toNat < 6) :
    weirArrival die att f true received s = if flowHeld t die (die * 33 + att) g then holdFrame (die * 33 + att) g t
      else match admission t die (queueKey die (routeEp t die g) g.cls.toNat) g with
        | some shared => admitFrame die (die * 33 + att) g shared t
        | none => holdFrame (die * 33 + att) g t := by
  dsimp only at hpol
  unfold weirArrival
  dsimp only
  rw [hstart, hlive, hatt, hok, hframe, hpol]
  exact if_pos hcls

/-- A frame that fails a check is discarded and counted. -/
theorem weirArrival_bad {die att received : Nat} {f : Frame} {crcOk : Bool} {s : State} (hstart : s.fw.started = true)
    (hlive : dieLive s die = true) (hatt : attExists die att = true) (hok : s.weir.failedAtt.contains (die * 33 + att) = false)
    (hframe : frameOk f crcOk received = false) (hrep : tabGet s.weir.replays 0 (die * 33 + att) < 8) :
    weirArrival die att f crcOk received s = { s with weir := { s.weir with
      discards := s.weir.discards + 1
      replays := tabPut s.weir.replays 0 (die * 33 + att) (tabGet s.weir.replays 0 (die * 33 + att) + 1) } } := by
  unfold weirArrival
  dsimp only
  rw [hstart, hlive, hatt, hok, hframe]
  exact if_neg (Nat.not_le.mpr (Nat.succ_lt_succ hrep))

/-- The only held frame of an attachment is tried, whatever its class. -/
theorem weirRetry_only {die att : Nat} {h : HeldFrame} {s : State} (hheld : s.weir.held = [h]) (hin : h.input = die * 33 + att) :
    weirRetry die att s = retryHeld die [h] [] s := by
  unfold weirRetry
  dsimp only
  rw [hheld, List.filter_cons_of_pos (by simpa using hin), List.filter_nil]
  by_cases hc : h.frame.cls.toNat ≤ 1
  · rw [List.filter_cons_of_pos (by simpa using hc), List.filter_cons_of_neg (by simp; omega)]
    rfl
  · rw [List.filter_cons_of_neg (by simpa using hc), List.filter_cons_of_pos (by simp; omega)]
    rfl

/-- A held frame for which there is room is admitted. -/
theorem retryHeld_admits {die : Nat} {h : HeldFrame} {shared : Bool} {s : State} (hheld : s.weir.held = [h])
    (hroom : admission s die (queueKey die (routeEp s die h.frame) h.frame.cls.toNat) h.frame = some shared) :
    retryHeld die [h] [] s = admitFrame die h.input h.frame shared
      (bumpFrame h.frame 0x30 (40 * (s.time - h.since)) { s with weir := { s.weir with held := [] } }) := by
  have herase : s.weir.held.erase h = [] := by rw [hheld]; simp
  unfold retryHeld
  simp only [List.any_nil, Bool.false_eq_true, if_false, hroom, herase]
  rfl

/-! ### Levee links (R16, R181 to R184) -/

/-- A lane whose group is in use, on a link that is up and not retraining, begins a retrain when it fails. -/
theorem leveeLane_begins {k group : Nat} {up : Bool} {s : State} (hd : (leveeOf s k).down = false)
    (hg : 8 * dirKey up + group ∉ (leveeOf s k).groupsOff) (hr : (leveeOf s k).retraining = false) :
    leveeLane k up group s = modLevee k (fun x => { x with pendingLanes := tabModify x.pendingLanes 0 (8 * dirKey up + group) (· + 1) })
      (writeEvent 0x01 k 0 64 0 2 (modLevee k (fun x => { x with retraining := true, retrains := x.retrains + 1 }) s)) := by
  unfold leveeLane
  dsimp only
  rw [if_neg (by simp [hd, hg]), hr]
  rfl

/-- A failed lane of a group with a spare left is replaced. -/
theorem repairLane_spare {k g : Nat} {s : State} (hg : (leveeOf s k).groupsOff = []) (hf : tabGet (leveeOf s k).failedLanes 0 g < 2) :
    repairLane k g s = writeEvent 0x01 k 0 64 0 0
      (modLevee k (fun x => { x with failedLanes := tabModify x.failedLanes 0 g (· + 1), repairs := x.repairs + 1 }) s) := by
  unfold repairLane
  dsimp only
  rw [hg, if_neg (by simp), if_pos hf]

/-- An event leaves the levee links alone. -/
@[simp] theorem leveeOf_writeEvent (k a b c d e f : Nat) (s : State) : leveeOf (writeEvent a b c d e f s) k = leveeOf s k := by
  unfold leveeOf
  rw [writeEvent_flt]

/-- A retrain for one failed lane with a spare left ends with the spare in its place. -/
theorem leveeRetrained_spare {k g : Nat} {s : State} (hr : (leveeOf s k).retraining = true) (hp : (leveeOf s k).pendingLanes = [(g, 1)])
    (hg : (leveeOf s k).groupsOff = []) (hf : tabGet (leveeOf s k).failedLanes 0 g < 2) :
    leveeRetrained k true s = modLevee k (fun x => { x with retraining := false, pendingLanes := [] })
      (writeEvent 0x01 k 0 64 0 0 (modLevee k (fun x =>
        { x with failedLanes := tabModify x.failedLanes 0 g (· + 1), repairs := x.repairs + 1 }) s)) := by
  unfold leveeRetrained
  dsimp only
  rw [hr, if_neg (by decide), if_neg (by decide), hp]
  simp only [List.flatMap_cons, List.flatMap_nil, List.append_nil, List.replicate_one, List.foldl_cons, List.foldl_nil,
    repairLane_spare hg hf, leveeOf_modLevee, leveeOf_writeEvent, hg]
  rfl

/-- Settles O29, by what the weir and its links hold. -/
theorem weirRows : Obligations.WeirRows := by
  unfold Obligations.WeirRows
  refine ⟨?_, ?_, ?_, ?_, ?_, ?_, ?_, ?_, ?_⟩
  · intro die att f g received shared s t hstart hlive hatt hok hframe hpol hcls hfree hroom
    refine next_settle ((weirArrival_checked hstart hlive hatt hok hframe hpol hcls).trans ((if_neg (Bool.eq_false_iff.mp hfree)).trans ?_))
    rw [hroom]
  · intro die att f g received s t hstart hlive hatt hok hframe hpol hcls hheld
    refine next_settle ((weirArrival_checked hstart hlive hatt hok hframe hpol hcls).trans ?_)
    rcases hheld with hheld | hfull
    · exact if_pos hheld
    · rw [hfull]
      exact ite_self _
  · intro die att f crcOk received s hstart hlive hatt hok hframe hrep
    exact next_settle (weirArrival_bad hstart hlive hatt hok hframe hrep)
  · intro die att h shared s hheld hin hroom
    exact next_settle ((weirRetry_only hheld hin).trans (retryHeld_admits hheld hroom))
  · intro die att c q s t hatt hlive hok hlink hchoose hhead
    refine next_settle ((if_neg (by rw [hatt, hlive, hok, hlink]; decide)).trans ?_)
    rw [hchoose]
    dsimp only
    rw [hhead]
  · intro t st s hst hmay
    refine next_settle ?_
    unfold weirPeriod
    rw [hst]
    exact if_neg (Bool.eq_false_iff.mp hmay)
  · intro link up seq s hd hseq
    exact next_settle ((if_neg (Bool.eq_false_iff.mp hd)).trans (if_pos (by rw [hseq]; simp)))
  · intro link up group s hd hg hr
    exact next_settle (leveeLane_begins hd hg hr)
  · intro link g s hr hp hg hf
    exact next_settle (leveeRetrained_spare hr hp hg hf)

end Sys2Proof.Machine

/-!
The events of copies, counters, push slots and groups (chapter 10).
-/

namespace Sys2Proof.Machine

/-- A chunk that is not the copy's last lands: memory is as the chunk leaves it, and the copy has progressed by it. -/
theorem chunkLand_progress {serial : Nat} {host : List HostByte} {s : State} {c0 : Cmd}
    (hc : (s.q.cmds.find? fun c => c.serial = serial && decide (c.opcode = 0x40 ∧ c.phase ≠ 0) && c.outcome.isNone) = some c0)
    (hl : c0.lines = []) (hready : copyReady s { c0 with host := host } = true)
    (hblock : runBlocked (copyChunk { c0 with host := host } s) = false) (hstop : (copyChunk { c0 with host := host } s).stopped = false)
    (hlast : (nextChunk s c0).1 + (nextChunk s c0).2 ≠ (copyReq c0).length) (hcnt : (copyReq c0).cntMode = 0) :
    (chunkLand serial host s).mem = (copyChunk { c0 with host := host } s).s.mem ∧
      tabGet (chunkLand serial host s).copy.progress 0 serial = (nextChunk s c0).1 + (nextChunk s c0).2 := by
  have hgo : (!decide (c0.lines = []) || !copyReady s { c0 with host := host }) = false := by
    rw [hready]
    simp [hl]
  have hcnt1 : ¬ (copyReq { c0 with host := host }).cntMode = 1 := by
    rw [show (copyReq { c0 with host := host }).cntMode = 0 from hcnt]; decide
  have hnext : nextChunk s { c0 with host := host } = nextChunk s c0 := rfl
  have hlast' : ¬ (nextChunk s c0).1 + (nextChunk s c0).2 = (copyReq { c0 with host := host }).length := hlast
  generalize hr : copyChunk { c0 with host := host } s = r at hblock hstop ⊢
  unfold chunkLand
  rw [hc]
  dsimp only at hgo hr hnext hcnt1 hlast' ⊢
  rw [hgo, if_neg Bool.false_ne_true, hr, hblock, if_neg Bool.false_ne_true, hstop, if_neg Bool.false_ne_true, if_neg hcnt1, hnext,
    if_neg hlast']
  exact ⟨rfl, tabGet_put_same _ _ _ _⟩

/-- Bytes that all lie within the slot's length enter its buffers. -/
theorem pushWrite_within {ix slot offset : Nat} {data : List Byte} {s : State} {p : PushSlot}
    (hp : tabFind s.copy.slots (slotKey ix slot) = some p) (hin : ∀ i < data.length, streamOffset p (offset + i) < p.length) :
    pushWrite ix slot offset data s = { s with copy := { s.copy with
      slots := tabInsert s.copy.slots (slotKey ix slot) (passChunks (p.length / 4096 + 2) { p with
        timer := true
        arrived := (data.mapIdx fun i b => (streamOffset p (offset + i), b)).foldl (fun a e => tabInsert a e.1 e.2) p.arrived }) } } := by
  have hkept : (data.mapIdx fun i b => (streamOffset p (offset + i), b)).filter (fun e => decide (e.1 < p.length))
      = data.mapIdx fun i b => (streamOffset p (offset + i), b) := by
    rw [List.filter_eq_self]
    intro e he
    obtain ⟨i, hi, rfl⟩ := List.mem_mapIdx.mp he
    simpa using hin i hi
  unfold pushWrite
  dsimp only
  rw [hp]
  dsimp only
  rw [hkept, if_neg (Nat.lt_irrefl _)]

/-- Settles O30, by what the command, the slot or the group holds. -/
theorem copyRows : Obligations.CopyRows := by
  unfold Obligations.CopyRows
  refine ⟨?_, ?_, ?_, ?_, ?_, ?_, ?_⟩
  · intro serial f s c hc hnew
    refine next_settle ?_
    unfold dropNoticeOp
    rw [hc]
    dsimp only
    rw [hnew]
    rfl
  · intro serial tag s r c hr hc
    refine next_settle ?_
    unfold resendOp
    rw [hr]
    dsimp only
    rw [hc]
    rfl
  · intro serial host s c0 hc hl hready hblock hstop hlast hcnt
    exact ⟨_, rfl, chunkLand_progress hc hl hready hblock hstop hlast hcnt⟩
  · intro serial s c hc hlim
    refine next_settle ?_
    unfold waitTimeoutOp
    rw [hc]
    exact if_neg hlim
  · intro port ld slot offset data s p hp hin
    exact next_settle (pushWrite_within hp hin)
  · intro port ld slot s p c hp ht hi hc harr
    refine next_settle ?_
    unfold burstExpiry
    rw [hp]
    dsimp only
    rw [if_neg (by simp [ht, hi]), hc, harr]
    rfl
  · intro polder group s g hg hfull
    refine next_settle ?_
    unfold joinTimeoutOp
    dsimp only
    rw [hg]
    exact if_neg (Bool.eq_false_iff.mp hfull)

end Sys2Proof.Machine

/-!
Faults of cores, stacks, dies and firmware cores (chapters 19 and 22).
-/

namespace Sys2Proof.Machine

/-! ### Dies (Table 22.2) -/

/-- A device reset leaves the firmware stopped. -/
@[simp] theorem deviceReset_started (detail : Nat) (flush : Bool) (s : State) : (deviceReset detail flush s).fw.started = false := by
  unfold deviceReset
  rw [writeEvent_fw]
  rfl

/-- Before the firmware starts no die fails. -/
theorem dieFails_stopped {d : Nat} {s : State} (h : s.fw.started = false) : dieFails d s = s := by
  unfold dieFails
  exact if_pos (Or.inr (by simp [h]))

/-- Before the firmware starts no die is cut off. -/
theorem checkDies_stopped (n : Nat) {s : State} (h : s.fw.started = false) : checkDies n s = s := by
  induction n with
  | zero => rfl
  | succ n ih =>
    unfold checkDies
    split
    · rfl
    · rw [dieFails_stopped h]
      exact ih

/-- The loss of die 0 resets the device. -/
theorem failDie_zero {s : State} (hstart : s.fw.started = true) (hlive : dieLive s 0 = true) : failDie 0 s = deviceReset 6 true s := by
  have hfails : dieFails 0 s = deviceReset 6 true s := by
    unfold dieFails
    rw [if_neg (by simp [hlive, hstart]), if_pos rfl]
  unfold failDie
  rw [hfails]
  exact checkDies_stopped 3 (deviceReset_started 6 true s)

/-! ### Cores (Table 22.1) -/

/-- A compute core that fails is quarantined: its work moves or ends, and the FM is told. -/
theorem quarantineCore_new {n : Nat} {s : State} (h : s.flt.coreQ.getLsbD n = false) :
    quarantineCore n s = quarantineNotice n (holderOf s fun x => x.cores.getLsbD n)
      (leaveCore n { s with flt := { s.flt with coreQ := s.flt.coreQ ||| BitVec.ofNat 128 (2 ^ n) } }) :=
  if_neg (Bool.eq_false_iff.mp h)

/-- A crown core that fails while no crown run is under way is quarantined. -/
theorem quarantineCrown_idle {n : Nat} {s : State} (h : s.flt.crownQ.getLsbD n = false) (hr : s.eng.runs = []) :
    quarantineCrown n s = quarantineNotice (0x100 + n) (holderOf s fun x => x.crown.getLsbD n)
      (dropUnit (0xC0 + n) (dropL2 n { s with flt := { s.flt with crownQ := s.flt.crownQ ||| BitVec.ofNat 32 (2 ^ n) } })) := by
  unfold quarantineCrown
  dsimp only
  rw [if_neg (Bool.eq_false_iff.mp h), hr]
  rfl

/-! ### Firmware cores (R381) -/

/-- The shadow takes the role of SCH over, and the doorbells captured meanwhile reach it. -/
theorem takeover_shadow {s : State} (ho : s.fw.onShadow = false) (hl : s.fw.shadowLost = false) (ha : s.fw.activating = none) :
    takeover s = releaseDoorbells (notifyFm { kind := 0x10, unit := 2 } 0
      { s with fw := { s.fw with onShadow := true, shadowLost := true, halted := s.fw.halted &&& ~~~4 } }) := by
  unfold takeover
  dsimp only
  rw [ho, hl, notifyFm_fw]
  dsimp only
  rw [ha]
  rfl

/-- A window that suppressed occurrences ends with one notice of them all. -/
theorem endWindow_suppressed {sub : Subject} {s : State} {w : NoticeWindow} (hw : s.flt.windows = [w]) (hs : windowSubject w = sub)
    (hn : w.suppressed ≠ 0) :
    endWindow sub s = writeNotice sub w.suppressed w.firstAddr w.firstTime
      { s with flt := { s.flt with windows := [{ w with suppressed := 0, firstAddr := 0, firstTime := 0 }] } } := by
  unfold endWindow
  rw [hw]
  simp only [List.find?_cons, List.filter_cons, hs, decide_true, ne_eq, not_true_eq_false, decide_false, Bool.false_eq_true, if_false,
    List.filter_nil, List.nil_append, hn]

/-- Settles O32, by what has failed already. -/
theorem faultRows : Obligations.FaultRows := by
  unfold Obligations.FaultRows
  refine ⟨?_, ?_, ?_, ?_, ?_, ?_, ?_, ?_, ?_, ?_, ?_, ?_, ?_⟩
  · intro s hstart hlive
    exact next_settle (failDie_zero hstart hlive)
  · intro d s hstart hlive
    rfl
  · intro stack s hstart hlive
    rfl
  · intro n s h
    exact next_settle (quarantineCore_new h)
  · intro n s h hr
    exact next_settle (quarantineCrown_idle h hr)
  · intro n s h hw
    exact next_settle ((if_neg hw).trans (quarantineCore_new h))
  · intro stack s h
    rfl
  · intro s hup hh
    refine next_settle ((if_neg ?_).trans (if_pos rfl))
    simpa [hup] using hh
  · intro s hup hstart hh ho
    refine next_settle ?_
    unfold watchdog
    rw [hup, hstart, show s.fw.halted.getLsbD ((2 : Fin 28) : Nat) = false from hh, ho]
    rfl
  · intro s hstart ho hl h2 h3 ha
    refine next_settle ((if_neg ?_).trans (takeover_shadow ho hl ha))
    rw [hstart, ho, hl, h2, h3]
    decide
  · intro s hstart ho h3
    refine next_settle (if_neg ?_)
    rw [hstart, ho, h3]
    decide
  · intro ch s hp hh
    refine next_settle (if_neg ?_)
    simp [hp, hh]
  · intro kind polder port hid unit tcx s w hw hs hn
    refine next_settle ((endWindow_suppressed hw hs hn).trans ?_)
    rw [hs]

end Sys2Proof.Machine

/-!
How the device starts, and what ends its bounded steps (chapters 19, 22 and 23).
-/

namespace Sys2Proof.Machine

/-! ### The release of the reset (R386 to R389) -/

/-- The state once both copies of the bundle have been read. -/
def copiesRead (t : TrayInputs) (s : State) : State :=
  { s with
    pins := { s.pins with sysResetHigh := true }
    fw := { s.fw with
      copyA := copyRead s s.fw.copyA t.copyA
      copyB := copyRead s s.fw.copyB t.copyB
      copyMarkA := copyMark (tryOrder (copyRead s s.fw.copyA t.copyA) (copyRead s s.fw.copyB t.copyB)) false (copyRead s s.fw.copyA t.copyA)
      copyMarkB := copyMark (tryOrder (copyRead s s.fw.copyA t.copyA) (copyRead s s.fw.copyB t.copyB)) true (copyRead s s.fw.copyB t.copyB) } }

/-- What follows from the copy that was chosen. -/
def startFrom (t : TrayInputs) : Option (Bool × BundleCopy) → State → State
  | none, s => enterTerpOnly 1 1 s
  | some (which, c), s => if c.consistent then startCopy t which c s else enterTerpOnly 2 1 s

/-- A device that may start reads both copies and starts from the one that verifies. -/
theorem startDevice_reads {t : TrayInputs} {s : State} (hup : s.pins.terpUp = true) (hstart : s.fw.started = false)
    (honly : s.fw.terpOnly = false) (htrip : s.pwr.tripped = false) (hheld : s.flt.lossHeld = false) (hnor : s.regs.norBusy = none)
    (hready : s.recorder.norReady = true) (hsec : t.secOk = true) (hserial : serialOk s = true) :
    startDevice t s = startFrom t (firstGood (tryOrder (copyRead s s.fw.copyA t.copyA) (copyRead s s.fw.copyB t.copyB))) (copiesRead t s) := by
  have hserial' : serialOk { s with pins := { s.pins with sysResetHigh := true } } = true := hserial
  have hread : ∀ c r, copyRead { s with pins := { s.pins with sysResetHigh := true } } c r = copyRead s c r := fun _ _ => rfl
  dsimp only at hserial' hread
  unfold startDevice copiesRead
  rw [if_neg (by simp [hup, hstart, honly, htrip, hheld])]
  dsimp only
  rw [hnor, if_neg (by decide), if_pos (Or.inl hready), if_neg (by simp [hsec, hserial'])]
  simp only [hread]
  generalize firstGood _ = good
  cases good with
  | none => rfl
  | some e => rfl

/-- A start-up step that overruns leads to the terp-only state. -/
theorem stepOverruns_due {step : BitVec 8} {s : State} (hup : s.pins.terpUp = true) (hstart : s.fw.started = false)
    (honly : s.fw.terpOnly = false) (htrip : s.pwr.tripped = false) (hheld : s.flt.lossHeld = false)
    (hstep : 1 ≤ step.toNat ∧ step.toNat ≤ 6) :
    stepOverruns step s = { enterTerpOnly 3 (step - 1) s with pins := { (enterTerpOnly 3 (step - 1) s).pins with sysResetHigh := true } } := by
  have h7 : step ≠ 7#8 := by
    rintro rfl
    exact absurd hstep.2 (by decide)
  unfold stepOverruns
  refine if_neg ?_
  simp [hup, hstart, honly, htrip, hheld, h7, hstep]

/-- A DDR channel that has not failed joins the free pool once it is filled. -/
theorem zeroFilled_ddr {n : Fin 24} {ok : Bool} {s : State} (hstart : s.fw.started = true) (hp : s.tray.ddrPresent.getLsbD n.val = true)
    (hf : s.fw.filledDdr.getLsbD n.val = false) (ho : s.pins.ilOpen = false) (hl : s.pins.ilFault = false)
    (hfail : s.res.failedDdr.getLsbD n.val = false) :
    zeroFilled (.ddr n) ok s = { s with
      res := { s.res with failedDdr := s.res.failedDdr &&& ~~~BitVec.ofNat 24 (2 ^ n.val) }
      fw := { s.fw with filledDdr := s.fw.filledDdr ||| BitVec.ofNat 24 (2 ^ n.val) } } := by
  unfold zeroFilled
  dsimp only
  rw [hstart, hp, hf, ho, hl, hfail]
  rfl

/-- A deferred halt that was forced breaks the locked sequence, one that was not answers HELD. -/
theorem haltTimeout_deferred {core k : Nat} {force : Bool} {s : State} (h : tabFind s.fw.deferred core = some (k, force)) :
    haltTimeout core s = if force then finish k { value := 3 }
        (writeEvent 0x11 0 0 64 0 ((tabGet s.fw.locked (0, 0) core).1 * 256 + core)
          (haltCore core (breakLock (tabGet s.fw.locked (0, 0) core).2 (dropDeferral core s))))
      else finish k { status := .held } (dropDeferral core s) := by
  unfold haltTimeout
  rw [h]

/-- Settles O33, by what the pins and the copies say. -/
theorem startRows : Obligations.StartRows := by
  unfold Obligations.StartRows
  refine ⟨?_, ?_, ?_, ?_, ?_, ?_, ?_, ?_, ?_, ?_, ?_, ?_, ?_, ?_, ?_, ?_, ?_⟩
  · intro f s hup
    exact next_settle (if_neg (Bool.eq_false_iff.mp hup))
  · intro s hup
    exact next_settle (if_neg (by simp [hup]))
  · intro s hup
    exact next_settle ((if_neg (by simp [hup])).trans (if_neg (by decide)))
  · intro s hup hg
    refine next_settle ((if_neg (by simp [hup])).trans ((if_pos rfl).trans ?_))
    rw [if_neg hg]
  · rintro t s _ _ which c hup hstart honly htrip hheld hnor hready hsec hserial rfl rfl hgood hc
    refine next_settle ((startDevice_reads hup hstart honly htrip hheld hnor hready hsec hserial).trans ?_)
    rw [hgood]
    exact if_pos hc
  · intro t s hup hstart honly htrip hheld hnor hready hsec hserial hgood
    refine ⟨copiesRead t s, next_settle ((startDevice_reads hup hstart honly htrip hheld hnor hready hsec hserial).trans ?_), rfl, rfl⟩
    rw [hgood]
    rfl
  · intro step s hup hstart honly htrip hheld hstep
    exact next_settle (stepOverruns_due hup hstart honly htrip hheld hstep)
  · intro n ok s hstart hp hf ho hl hfail
    exact next_settle (zeroFilled_ddr hstart hp hf ho hl hfail)
  · intro b s he
    refine next_settle ?_
    unfold norWriteDone
    dsimp only
    rw [he]
    rfl
  · intro s
    rfl
  · intro s ho hq
    refine next_settle (if_neg ?_)
    simp [ho, hq]
  · intro s
    exact ⟨_, rfl, rfl, rfl, rfl⟩
  · intro s hup hheld
    refine ⟨_, next_settle (if_neg ?_), rfl, rfl, rfl⟩
    simp [hup, hheld]
  · intro s
    rfl
  · intro s k ha
    refine next_settle ?_
    unfold activationTimeout
    rw [ha]
  · intro core s k h
    exact next_settle ((haltTimeout_deferred h).trans (if_pos rfl))
  · intro core s k h
    exact next_settle ((haltTimeout_deferred h).trans (if_neg Bool.false_ne_true))

end Sys2Proof.Machine

/-!
Enabling, training and losing a link (chapter 20).
-/

namespace Sys2Proof.Machine

/-- Turning off a port of one link that is up takes the link down. -/
theorem portOff_oneUp {p : Nat} {s : State} (hw : (portAt s p).width = 0) (hup : linkUp (linkAt s p 0) = true) :
    portOff p s = linkDown p 0 5 true s := by
  unfold portOff
  rw [hw]
  exact if_pos hup

/-- A port setting leaves the width and the links alone. -/
theorem portAt_modPort_enable (p : Nat) (e : Bool) (s : State) :
    portAt (modPort p (fun x => { x with enable := e }) s) p = { portAt s p with enable := e } := portAt_modPort p _ s

/-- A link that loses its light outside training fails. -/
theorem lightLost_up {p lane cause : Nat} {s : State} (hp : p < 16) (he : linkExists s p (lane / linkLanes (portAt s p).width) = true)
    (hup : linkUp (linkAt s p (lane / linkLanes (portAt s p).width)) = true)
    (ht : (linkAt s p (lane / linkLanes (portAt s p).width)).state ≠ .training) :
    lightLost p lane cause s = linkDown p (lane / linkLanes (portAt s p).width) cause false s := by
  unfold lightLost
  dsimp only
  rw [if_neg (Nat.not_le.mpr hp), if_neg ht]
  unfold linkFails
  rw [if_neg (by simp [he]), if_pos hup]

/-- A link that is up fails when it must. -/
theorem linkFails_up {p l cause : Nat} {s : State} (he : linkExists s p l = true) (hup : linkUp (linkAt s p l) = true) :
    linkFails p l cause s = linkDown p l cause false s := by
  unfold linkFails
  rw [if_neg (by simp [he]), if_pos hup]

/-- An attempt of a DETACHED link that may train. -/
theorem detachedAttempt_starts {p l : Nat} {s : State} (he : linkExists s p l = true) (hu : portUsable s p = true)
    (hd : (linkAt s p l).state = .detached) : detachedAttempt p l s = startTraining p l s := by
  unfold detachedAttempt
  exact if_pos (by simp [he, hu, hd])

/-- The speed at which a link comes up (R407). -/
def upSpeed (p : Nat) (fast : Bool) (s : State) : Nat :=
  if fast && decide ((portAt s p).speedMax = 1) && (decide (p = 16) || !s.ident.uncalibrated) then 2 else 1

/-- The link of a port as it comes up. -/
def comeUp (p l : Nat) (fast : Bool) (width : Nat) (ptm : Bool) (s : State) : State :=
  modLink p l (fun x => { x with state := .l0, speed := upSpeed p fast s, width := width, active := width, ptmOk := ptm, rdvOk := false
                                 grace := false, retrain := false, misses := 0, grid := none, offered := decide (p < 16) }) s

/-- An optical link comes up at full width without a grace period. -/
theorem linkComesUp_full {p l width : Nat} {fast ptm : Bool} {s : State} (hp : p < 16) (he : linkExists s p l = true)
    (ht : (linkAt s p l).state = .training) (h0 : width ≠ 0) (hw : width = linkLanes (portAt s p).width)
    (hg : (linkAt s p l).grace = false) :
    linkComesUp p l fast width ptm s = emit (.link p l 1 (rdvPayload 1 0 0)) (sendHeldSnoops (linkHids s p l)
      ((linkSluices (comeUp p l fast width ptm s) p l).foldl (fun s ix => releasePortHeld ix s) (comeUp p l fast width ptm s))) := by
  unfold linkComesUp comeUp upSpeed
  dsimp only
  have hfull : ¬ width < linkLanes (portAt s p).width := Nat.not_lt.mpr hw.ge
  have hmay : ¬ ((!linkExists s p l) = true ∨ (linkAt s p l).state ≠ .training ∨ width = 0 ∨ width > linkLanes (portAt s p).width) := by
    rw [he, ht]
    rintro (h | h | h | h)
    · cases h
    · exact h rfl
    · exact h0 h
    · exact hw.not_gt h
  rw [if_neg hmay, if_neg hfull, hg, if_neg Bool.false_ne_true, if_pos hp]

/-! ### A function-level reset (Table 20.10) -/

/-- Forgetting the repeats of requests that have none changes nothing. -/
theorem map_no_repeats {l : List RidRecord} (h : (l.all fun r => r.repeats.isEmpty) = true) : (l.map fun r => { r with repeats := [] }) = l := by
  conv_rhs => rw [← List.map_id l]
  refine List.map_congr_left fun r hr => ?_
  have he : r.repeats = [] := by simpa using List.all_eq_true.mp h r hr
  rw [← he]
  rfl

/-- A function-level reset of a sluice in a device without commands. -/
theorem flrOp_noCmds {ix : Nat} {s : State} {sl : Sluice} (h : findSluice s ix = some sl) (hc : s.q.cmds = [])
    (hr : (sl.rids.all fun r => r.repeats.isEmpty) = true) :
    findSluice (flrOp ix s) ix = some { hid := sl.hid, ifVersion := s.fw.running.manifest.ifVersion, rids := sl.rids } ∧
      (flrOp ix s).mem = s.mem ∧ (flrOp ix s).polders = s.polders ∧ (flrOp ix s).q.cmds = [] := by
  unfold flrOp finishAll discardHeld orphanCmds
  rw [h]
  dsimp only
  rw [hc, map_no_repeats hr]
  exact ⟨tabFind_insert_same _ _ _, rfl, rfl, rfl⟩

/-- Settles O34, by what the port and its link are at. -/
theorem portRows : Obligations.PortRows := by
  unfold Obligations.PortRows
  refine ⟨?_, ?_, ?_, ?_, ?_, ?_, ?_, ?_, ?_, ?_, ?_, ?_, ?_, ?_, ?_⟩
  · intro port s hf
    exact next_settle (if_neg (Bool.eq_false_iff.mp hf))
  · intro port s hw hup
    have hport := portAt_modPort_enable port.val false s
    have hlink := linkAt_modPort_enable port.val 0 false s
    exact ⟨_, next_settle (portOff_oneUp ((congrArg Port.width hport).trans hw) ((congrArg linkUp hlink).trans hup)), hlink,
      congrArg Port.enable hport, rfl⟩
  · intro port width s h3 hb hw
    exact next_settle ((if_neg h3).trans ((if_neg (Bool.eq_false_iff.mp hb)).trans (if_neg hw)))
  · intro port width s h3 hb
    exact next_settle ((if_neg h3).trans (if_pos hb))
  · intro port lane s hp he hup ht
    exact next_settle (lightLost_up hp he hup ht)
  · intro port lane s hp he hup ht
    exact next_settle (lightLost_up hp he hup ht)
  · intro port link fast width ptm s hp he ht h0 hw hg
    have hlink := linkAt_modLink port.val link.val (fun x => { x with
      state := .l0, speed := upSpeed port.val fast s, width := width.toNat, active := width.toNat, ptmOk := ptm, rdvOk := false
      grace := false, retrain := false, misses := 0, grid := none, offered := decide (port.val < 16) }) s
    exact ⟨comeUp port.val link.val fast width.toNat ptm s, next_settle (linkComesUp_full hp he ht h0 hw hg),
      congrArg Link.state hlink, congrArg Link.active hlink, rfl, rfl⟩
  · intro port link s he ht hr
    exact next_settle ((if_neg (by simp [he, ht])).trans (if_neg (Bool.eq_false_iff.mp hr)))
  · intro port link s he hu hd
    exact next_settle (detachedAttempt_starts he hu hd)
  · intro port link s he hu hd
    exact next_settle (detachedAttempt_starts he hu hd)
  · intro port link s he hg
    exact next_settle (if_neg (by simp [he, hg]))
  · intro port link s he hup
    exact next_settle (linkFails_up he hup)
  · intro port link s he hup
    exact next_settle (linkFails_up he hup)
  · intro port link s he hup hc
    exact next_settle ((if_pos hc).trans (linkFails_up he hup))
  · intro port ld s sl h hc hr
    exact ⟨_, rfl, flrOp_noCmds h hc hr⟩

end Sys2Proof.Machine

/-!
How a link narrows, sleeps and wakes (chapter 20): each row's operation where its condition holds.
-/

namespace Sys2Proof.Machine

/-- The idle time of an optical link that may enter L1 offers the grid of its wakes. -/
theorem l1IdleOp_offers {p l : Nat} {origin : BitVec 64} {s : State} (hp : p ≠ 16) (he : linkExists s p l = true)
    (h0 : (linkAt s p l).state = .l0) (h1 : (portAt s p).l1En = true) (hptm : (linkAt s p l).ptmOk = true)
    (hrdv : (linkAt s p l).rdvOk = true) (hcal : s.ident.uncalibrated = false) :
    l1IdleOp p l origin s = emit (.link p l 3 (rdvPayload 3 (portAt s p).l1Resync.toNat origin))
      (modLink p l (fun x => { x with grid := some origin }) s) := by
  unfold l1IdleOp
  exact (if_neg (by simp [he, h0, h1])).trans ((if_neg hp).trans (if_pos (by simp [hptm, hrdv, hcal])))

/-- The idle time of the electrical port's link puts it to sleep. -/
theorem l1IdleOp_electrical {l : Nat} {origin : BitVec 64} {s : State} (he : linkExists s 16 l = true) (h0 : (linkAt s 16 l).state = .l0)
    (h1 : (portAt s 16).l1En = true) : l1IdleOp 16 l origin s = modLink 16 l (fun x => { x with state := .l1 }) s := by
  unfold l1IdleOp
  exact (if_neg (by simp [he, h0, h1])).trans (if_pos rfl)

/-- The partner's answer about the grid, when one was offered. -/
theorem rdvGridAckOp_offered {p l : Nat} {payload : BitVec 128} {s : State} {o : BitVec 64} (hg : (linkAt s p l).grid = some o)
    (hm : rdvMatches 4 payload = true) (ho : payload.toNat / 2 ^ 64 = o.toNat) :
    rdvGridAckOp p l payload s = modLink p l (fun x => { x with state := .l1, grid := none, origin := o, misses := 0 }) s := by
  unfold rdvGridAckOp
  rw [hg]
  exact if_pos (Bool.and_eq_true_iff.mpr ⟨hm, decide_eq_true ho⟩)

/-- A link that is up and present passes the first check of a flit's error. -/
theorem flitErrorOp_up {p l : Nat} {corrected newEpisode : Bool} {s : State} (he : linkExists s p l = true) (hup : linkUp (linkAt s p l) = true) :
    flitErrorOp p l corrected newEpisode s =
      let s := if corrected then bumpLink p l 0x04 s else bumpLink p l 0x0C (bumpLink p l 0x08 s)
      if newEpisode then bumpLink p l 0x10 s else s := by
  unfold flitErrorOp
  exact if_neg (by simp [he, hup])

/-- Settles O35, by what the link is at. -/
theorem linkPowerRows : Obligations.LinkPowerRows := by
  unfold Obligations.LinkPowerRows
  refine ⟨?_, ?_, ?_, ?_, ?_, ?_, ?_, ?_, ?_, ?_, ?_, ?_, ?_, ?_, ?_, ?_, ?_⟩
  · intro port link s he hen h0 h4
    exact next_settle (if_pos (by simp [he, hen, h0, h4]))
  · intro port link s he h0
    exact next_settle (if_pos (by simp [he, h0]))
  · intro port link width s he h0 hw
    exact next_settle (if_pos (by simp [he, h0, hw.1, hw.2]))
  · intro port link origin s hp he h0 h1 hptm hrdv hcal
    exact next_settle (l1IdleOp_offers hp he h0 h1 hptm hrdv hcal)
  · intro link origin s he h0 h1
    exact next_settle (l1IdleOp_electrical he h0 h1)
  · intro port link payload s ho hm
    exact next_settle (if_pos (by simp [ho, hm]))
  · intro port link s ho
    exact next_settle (if_pos ho)
  · intro port link payload s o hg hm ho
    exact next_settle (rdvGridAckOp_offered hg hm ho)
  · intro port link s o hg
    exact next_settle (if_neg (by simp [hg]))
  · intro port link s he h1
    exact next_settle ((if_neg (by simp [he, h1])).trans (if_pos (.inl rfl)))
  · intro port link s hp he h1
    exact next_settle ((if_neg (by simp [he, h1])).trans (if_neg (by simp [hp])))
  · intro port link s hp he h1 hr
    exact next_settle ((if_neg (not_or.mpr ⟨by simp [he], not_or.mpr ⟨not_not.mpr h1, not_or.mpr ⟨hp, hr⟩⟩⟩)).trans (if_pos rfl))
  · intro port link s he hup
    exact next_settle (if_pos (by simp [he, hup]))
  · intro port link s he hup
    exact next_settle (if_pos (by simp [he, hup]))
  · intro port link s he hup
    exact next_settle (flitErrorOp_up he hup)
  · intro port link s he hup
    exact next_settle (flitErrorOp_up he hup)
  · intro port link s he
    exact next_settle (if_pos he)

end Sys2Proof.Machine

/-!
The thermal, supply and power monitors (chapter 21): each row's operation where its condition holds.
-/

namespace Sys2Proof.Machine

/-! ### The thermal sample of a cool device -/

theorem foldl_max_lt {l : List Nat} {a b : Nat} (ha : a < b) (h : ∀ x ∈ l, x < b) : l.foldl max a < b := by
  induction l generalizing a with
  | nil => exact ha
  | cons x xs ih => exact ih (max_lt ha (h x (List.mem_cons_self ..))) fun y hy => h y (List.mem_cons_of_mem _ hy)

/-- The greatest temperature of a sample. -/
def topTemp (s : State) (l : List Reading) : Nat := (l.map fun r => (sensorTemp s r).toNat).foldl max 0

/-- A reading of a sensor that works, below every limit. -/
def Cool (s : State) (r : Reading) : Prop :=
  sensorFault s r = false ∧ (sensorTemp s r).toNat < s.pwr.warn.toNat ∧ (sensorTemp s r).toNat < 125 ∧
    (sensorTemp s r).toNat < s.pwr.throttle.toNat

theorem topTemp_lt_throttle {l : List Reading} {s : State} (h : ∀ r ∈ l, Cool s r) (ht : s.pwr.throttle ≠ 0) :
    topTemp s l < s.pwr.throttle.toNat := by
  have hpos : 0 < s.pwr.throttle.toNat := by
    have hne : s.pwr.throttle.toNat ≠ 0 := fun h0 => ht (BitVec.eq_of_toNat_eq h0)
    omega
  refine foldl_max_lt hpos fun x hx => ?_
  obtain ⟨r, hr, rfl⟩ := List.mem_map.mp hx
  obtain ⟨-, -, -, hthrottle⟩ := h r hr
  exact hthrottle

/-- The state after a cool sample. -/
def afterCool (s : State) (l : List Reading) : State :=
  { s with pwr := { s.pwr with maxC := BitVec.ofNat 8 (topTemp s l), peakC := BitVec.ofNat 8 (max s.pwr.peakC.toNat (topTemp s l))
                               hot := [], warned := [] } }

/-- A cool sample of a device that has not tripped. -/
theorem thermalSampleOp_cool {l : List Reading} {s : State} (hup : s.pins.terpUp = true) (ht : s.pwr.tripped = false)
    (h : ∀ r ∈ l, Cool s r) (hthr : s.pwr.throttle ≠ 0) : thermalSampleOp l s = afterCool s l := by
  have hfault : l.filter (sensorFault s) = [] := List.filter_eq_nil_iff.mpr fun r hr => by
    obtain ⟨hf, -⟩ := h r hr
    simp [hf]
  have hgood : (l.filter fun r => !sensorFault s r) = l := List.filter_eq_self.mpr fun r hr => by
    obtain ⟨hf, -⟩ := h r hr
    simp [hf]
  have hhot : ((l.map fun r => (r.sensor.val, (sensorTemp s r).toNat)).filter fun t => t.1 < 72 ∧ t.2 ≥ 125) = [] := by
    refine List.filter_eq_nil_iff.mpr fun t hmem => ?_
    obtain ⟨r, hr, rfl⟩ := List.mem_map.mp hmem
    obtain ⟨-, -, h125, -⟩ := h r hr
    simp only [decide_eq_true_eq, not_and]
    omega
  have hwarn : ((l.map fun r => (r.sensor.val, (sensorTemp s r).toNat)).filter fun t => t.2 ≥ s.pwr.warn.toNat) = [] := by
    refine List.filter_eq_nil_iff.mpr fun t hmem => ?_
    obtain ⟨r, hr, rfl⟩ := List.mem_map.mp hmem
    obtain ⟨-, hw, -⟩ := h r hr
    simpa using hw
  have hstill : (s.pwr.warned.filter fun k => (l.map fun r => (r.sensor.val, (sensorTemp s r).toNat)).any fun t =>
      decide (t.1 = k ∧ t.2 ≥ s.pwr.warn.toNat)) = [] := by
    refine List.filter_eq_nil_iff.mpr fun k _ hany => ?_
    obtain ⟨t, hmem, htk⟩ := List.any_eq_true.mp hany
    obtain ⟨r, hr, rfl⟩ := List.mem_map.mp hmem
    obtain ⟨-, hw, -⟩ := h r hr
    exact Nat.not_le.mpr hw (of_decide_eq_true htk).2
  have htop : ((l.map fun r => (r.sensor.val, (sensorTemp s r).toNat)).map (·.2)).foldl max 0 = topTemp s l := by
    rw [List.map_map]
    rfl
  have hthrottle : decide (topTemp s l ≥ s.pwr.throttle.toNat) = false :=
    decide_eq_false (Nat.not_le.mpr (topTemp_lt_throttle h hthr))
  unfold thermalSampleOp afterCool
  rw [if_neg (by simp [hup])]
  dsimp only
  rw [hfault, List.foldl_nil, hgood, hhot, hstill, htop, hthrottle, hwarn, List.foldl_nil]
  dsimp only
  rw [if_neg (ne_true_of_eq_false ht), if_neg (by simp), Bool.or_false, List.map_nil]

/-! ### Trips and supply -/

/-- A trip resets the device and shows it. -/
theorem thermalTrip_trips {s : State} (hup : s.pins.terpUp = true) (ht : s.pwr.tripped = false) :
    thermalTrip s = { deviceReset 3 true (raiseIrq 2 s) with
      pwr := { (deviceReset 3 true (raiseIrq 2 s)).pwr with tripped := true }
      pins := { (deviceReset 3 true (raiseIrq 2 s)).pins with thermTrip := true } } := by
  unfold thermalTrip
  exact if_neg (by simp [hup, ht])

theorem noteSupply_minPct (pct : BitVec 8) (s : State) : (noteSupply pct s).pwr.minPct.toNat = min pct.toNat s.pwr.minPct.toNat := by
  unfold noteSupply
  dsimp only
  split <;> omega

/-- The state in which a supply episode has just opened (R433). -/
def openEpisode (s : State) : State :=
  { s with pwr := { s.pwr with warnNow := true, warnSticky := true, restoring := false, episodes := s.pwr.episodes + 1 } }

/-- The first crossing opens an episode and tells of it. -/
theorem supplyWarning_opens {die : Nat} {pct : BitVec 8} {s : State} (hup : s.pins.terpUp = true) (hw : s.pwr.warnNow = false)
    (he : s.pwr.episodes ≠ 0xFFFF) :
    supplyWarning die pct s = raiseIrq 0 (postAsyncAll 0x02 0 64 0 (readySluices (openEpisode (noteSupply pct s)))
      (writeEvent 0x0A die 0 64 0 (min pct.toNat s.pwr.minPct.toNat) (openEpisode (noteSupply pct s)))) := by
  rw [← noteSupply_minPct]
  unfold supplyWarning openEpisode
  rw [if_neg (by simp [hup])]
  have hnow : (noteSupply pct s).pwr.warnNow = false := hw
  have hep : (noteSupply pct s).pwr.episodes ≠ 0xFFFF := he
  dsimp only
  rw [if_neg (ne_true_of_eq_false hnow), if_neg hep]

/-! ### The governor -/

theorem wellBelow_of_lt {s : State} (h : s.pwr.avgW.toNat + 20 < s.pwr.limit.toNat) : wellBelow s = true := decide_eq_true h

/-- What runs where its core is present. -/
theorem whenHere_of {away : Bool} {f : State → State} {s : State} (h : away = false) : whenHere away f s = f s :=
  if_neg (ne_true_of_eq_false h)

/-- Settles O36, by the readings and the state of the monitors. -/
theorem powerRows : Obligations.PowerRows := by
  unfold Obligations.PowerRows
  refine ⟨?_, ?_, ?_, ?_, ?_, ?_, ?_, ?_, ?_, ?_, ?_, ?_, ?_, ?_⟩
  · intro l s hup ht h hthr
    exact next_settle (thermalSampleOp_cool hup ht h hthr)
  · intro s h
    exact next_settle (if_pos h)
  · intro s h
    exact next_settle ((if_neg (by omega)).trans (if_pos h))
  · intro stack s hup ht
    exact ⟨_, next_settle (thermalTrip_trips hup ht), rfl, rfl, rfl⟩
  · intro die pct s hup hw he
    exact ⟨openEpisode (noteSupply pct s), next_settle (supplyWarning_opens hup hw he), rfl, rfl, rfl, rfl⟩
  · intro pct s hw
    exact next_settle (if_pos hw)
  · intro s hr
    exact next_settle (if_pos hr)
  · intro die pct s hup
    exact next_settle (if_neg (by simp [hup]))
  · intro m s hup
    exact next_settle (if_neg (by simp [hup]))
  · intro watts s hs
    exact next_settle (if_pos hs)
  · intro s ha hl
    exact next_settle ((whenHere_of ha).trans (if_pos hl))
  · intro s ha hl
    exact next_settle ((whenHere_of ha).trans (if_pos (wellBelow_of_lt hl)))
  · intro cl s ha hl hg hst hd he
    refine next_settle ((whenHere_of ha).trans (if_neg ?_))
    simp [hl, hg, hst, hd, he]
  · intro s ha hl
    exact next_settle ((whenHere_of ha).trans (if_pos (wellBelow_of_lt hl)))

end Sys2Proof.Machine

/-!
How clusters sleep and wake, and the start beat (chapter 21).
-/

namespace Sys2Proof.Machine

/-- A cluster in IDLE that nothing keeps up. -/
def Settled (s : State) (cl : Nat) : Prop :=
  clusterOf s cl = { state := .idle, waking := false, entering := none, flushing := none }

/-- The idle time of a cluster that may doze begins its way there; a crown cluster's begins with the flush. -/
theorem clusterIdle_dozes {cl : Nat} {s : State} (hk : ¬ (16 ≤ cl ∧ cl < 20)) (hb : clusterBusy s cl = false) (hi : Settled s cl)
    (ha : 2 ≤ stateDepth (allowedState s cl)) :
    clusterIdle cl false s =
      if 20 ≤ cl then modCluster cl (fun x => { x with flushing := some .doze }) s
      else modCluster cl (fun x => { x with entering := some .doze }) s := by
  unfold Settled at hi
  have hallowed : ¬ stateDepth (allowedState s cl) < 2 := Nat.not_lt.mpr ha
  have hdoze : stateDepth .doze = 2 := rfl
  have hidle : stateDepth .idle = 1 := rfl
  unfold clusterIdle
  dsimp only
  rw [hi, if_neg Bool.false_ne_true, if_neg (by simp [hk, hb, hallowed, hdoze, hidle])]
  simp only [and_true]

/-- The flush of a crown cluster's L2s leads on to the state it was for. -/
theorem l2Flushed_of {k : Nat} {s : State} {t : DomainState} (h : (clusterOf s (20 + k)).flushing = some t) :
    l2Flushed k s = modCluster (20 + k) (fun x => { x with flushing := none, entering := some t })
      ((List.range 8).foldl (fun s i => giveUpLines (8 * k + i) s) s) := by
  unfold l2Flushed
  dsimp only
  rw [h]

/-- A cluster that goes dark loses what it holds. -/
theorem sleepEntered_dark {cl : Nat} {s : State} (h : (clusterOf s cl).entering = some .dark) :
    sleepEntered cl s = modCluster cl (fun x => { x with
      state := .dark, entering := none, waitBeat := x.waking && needsBeat (darkenCluster cl s) cl .dark }) (darkenCluster cl s) := by
  unfold sleepEntered
  rw [h]
  rfl

/-- The clusters that the control domain waits for are those of tenants. -/
theorem mem_tenantClusters {cl : Nat} (h : cl ∈ List.range 16 ++ [20, 21, 22, 23]) : cl < 24 ∧ (cl < 16 ∨ 20 ≤ cl) := by
  simp only [List.mem_append, List.mem_range, List.mem_cons, List.not_mem_nil, or_false] at h
  omega

/-- Settles O37, by what the cluster is at. -/
theorem clusterRows : Obligations.ClusterRows := by
  unfold Obligations.ClusterRows
  refine ⟨?_, ?_, ?_, ?_, ?_, ?_, ?_⟩
  · intro cl s hc hb hi ha
    exact next_settle ((clusterIdle_dozes (by omega) hb hi ha).trans (if_neg (by omega)))
  · intro cl s hc hb hi ha
    exact next_settle ((clusterIdle_dozes (by omega) hb hi ha).trans (if_pos hc))
  · intro k s t h
    exact next_settle (l2Flushed_of h)
  · intro cl s h
    exact next_settle (sleepEntered_dark h)
  · intro cl s hw he hb
    exact next_settle (if_neg (by simp [hw, he, hb]))
  · intro s hup
    exact ⟨_, next_settle (if_neg (by simp [hup])), rfl, rfl, rfl, rfl, rfl⟩
  · intro s hs hc hd
    refine next_settle (if_pos (Bool.and_eq_true_iff.mpr ⟨by simp [hs, hc], List.all_eq_true.mpr fun cl hcl => ?_⟩))
    obtain ⟨hlt, hten⟩ := mem_tenantClusters hcl
    exact decide_eq_true (hd cl hlt hten)

end Sys2Proof.Machine

/-!
The channel cores at each event of their dies (chapter 6): each row's operation where its condition holds.
-/

namespace Sys2Proof.Machine

/-! ### Reads -/

/-- A T3 read of a running command that does not spill. -/
theorem readRequest_issues {serial tpa : Nat} {s : State} {c : Cmd} (hr : regionOf tpa = .flash) (hp : (polderAt s tpa).isSome = true)
    (hc : (s.q.cmds.find? fun c => c.serial = serial && !c.waiting) = some c) (hi : (c.issued.any fun e => e.1 = tpa / 4096) = false)
    (he : c.early.contains (tpa / 4096) = false) (hs : spills c = false) :
    readRequest serial tpa s = queueRead tpa (modCmd serial (fun c => { c with issued := c.issued ++ [(tpa / 4096, s.time)] }) s) := by
  have hnone : ¬ (regionOf tpa ≠ .flash ∨ (polderAt s tpa).isNone = true) := by
    rintro (h | h)
    · exact h hr
    · exact Option.not_isSome_iff_eq_none.mpr (Option.isNone_iff_eq_none.mp h) hp
  unfold readRequest
  dsimp only
  rw [if_neg hnone, hc]
  exact (if_neg (by rw [hi, he]; exact Bool.false_ne_true)).trans (if_neg (by rw [hs, Bool.false_and]; exact Bool.false_ne_true))

/-- A free die starts what its queue gives. -/
theorem dieStart_next {ch d remaining : Nat} {s : State} {o : DieOp} {x : Die} (hf : (dieOf s ch d).failed = false)
    (hr : (dieOf s ch d).running = none) (hn : nextOp s ch (dieOf s ch d) = some (o, x)) :
    dieStart ch d remaining s =
      modDie ch d (fun _ => { x with running := some { o with suspended := false, until_ := s.time + remaining } }) s := by
  unfold dieStart
  dsimp only
  rw [hf, if_neg Bool.false_ne_true, hr]
  dsimp only
  rw [hn]

/-- A read suspends an erase that may still be suspended. -/
theorem dieStart_suspends {ch d remaining : Nat} {s : State} {o r : DieOp} {rest : List DieOp} (hf : (dieOf s ch d).failed = false)
    (hr : (dieOf s ch d).running = some o) (hq : (dieOf s ch d).reads = r :: rest) (hk : o.kind = .erase) (h8 : o.suspends < 8)
    (hu : o.urgent = false) :
    dieStart ch d remaining s = modDie ch d (fun x => { x with
      running := some { r with until_ := s.time + remaining }, reads := rest
      writes := { o with suspended := true, suspends := o.suspends + 1 } :: x.writes }) s := by
  unfold dieStart
  dsimp only
  rw [hf, if_neg Bool.false_ne_true, hr, hq]
  exact if_pos ⟨hk, h8, by rw [hu]; rfl⟩

/-- The state in which a sense has left its die and its superblock's reads are counted. -/
def senseCounted (ch d : Nat) (o : DieOp) (s : State) : State :=
  modDie ch d (fun x => { x with running := none
                                 readCount := tabPut x.readCount 0 o.block (tabGet (dieOf s ch d).readCount 0 o.block + 1) }) s

theorem disturbLimit_ge (st : MapState) : 40000 ≤ disturbLimit st := by
  unfold disturbLimit
  split <;> decide

/-- A superblock below the limits of read disturb is not refreshed for its reads. -/
theorem not_disturbed {n : Nat} (st : MapState) (h : n < 40000) : ¬ n ≥ disturbLimit st := by
  have := disturbLimit_ge st
  omega

/-- A page that decodes at a low level. -/
theorem senseDone_decoded {ch d : Nat} {level : Fin 8} {s : State} {o : DieOp} (hr : (dieOf s ch d).running = some o) (hk : o.kind = .read)
    (hl : level.val < 3) (hc : tabGet (dieOf s ch d).readCount 0 o.block + 1 < 40000) :
    senseDone ch d (.decoded level) s =
      modDie ch d (fun x => { x with stripeFails := 0 }) (bumpFlash (nandPolder s ch) 0x30 level.val (senseCounted ch d o s)) := by
  unfold senseDone
  dsimp only
  rw [hr]
  dsimp only
  rw [if_neg (not_not.mpr hk), if_neg (not_disturbed _ hc)]
  exact if_neg (by omega)

/-- A page that neither decodes nor can be rebuilt. -/
theorem senseDone_lost {ch d : Nat} {s : State} {o : DieOp} (hr : (dieOf s ch d).running = some o) (hk : o.kind = .read)
    (hc : tabGet (dieOf s ch d).readCount 0 o.block + 1 < 40000) (hs : (dieOf s ch d).stripeFails < 2) :
    senseDone ch d .lost s = modDie ch d (fun x => { x with stripeFails := x.stripeFails + 1 })
      ((List.range 64).foldl (fun s i => poisonLine (o.id * 4096 / 64 + i) .uncorrectable s)
        (bumpFlash (nandPolder s ch) 0x40 1 (scheduleRefresh ch d o.block (bumpFlash (nandPolder s ch) 0x30 7 (senseCounted ch d o s))))) := by
  unfold senseDone
  dsimp only
  rw [hr]
  dsimp only
  rw [if_neg (not_not.mpr hk), if_neg (not_disturbed _ hc)]
  exact if_neg (by omega)

theorem mem_refresh_scheduleRefresh (ch d block : Nat) (s : State) : block ∈ (dieOf (scheduleRefresh ch d block s) ch d).refresh := by
  unfold scheduleRefresh
  rw [dieOf_modDie]
  dsimp only
  split
  · next h => exact List.contains_iff_mem.mp h
  · exact List.mem_append_right _ (List.mem_singleton.mpr rfl)

/-- The data of a read that was issued long enough ago. -/
theorem readDeliver_due {serial tpa g t : Nat} {s : State} {c : Cmd} (hr : regionOf tpa = .flash) (hq : readQueued s tpa = false)
    (hsp : (s.tier.spilledReads.any fun e => e.1 = serial && e.2.1 = tpa / 4096) = false)
    (hc : (s.q.cmds.find? fun c => c.serial = serial) = some c) (hi : (c.issued.find? fun e => e.1 = tpa / 4096) = some (g, t))
    (ht : t + 1125 ≤ s.time) :
    readDeliver serial tpa s = deliverFlows (tpa / 4096) (modCmd serial (fun c => { c with
      delivered := if c.delivered.contains (tpa / 4096) then c.delivered else c.delivered ++ [tpa / 4096] }) s) := by
  unfold readDeliver
  dsimp only
  rw [if_neg (by simp [hr, hq]), if_neg (ne_true_of_eq_false hsp), hc]
  dsimp only
  rw [hi]
  exact if_neg (Nat.not_lt.mpr ht)

/-! ### Writes -/

/-- What a write to T3 needs to enter the journal at once. -/
structure JournalTakes (s : State) (t : Tile) (tpa : Nat) (data : List Byte) : Prop where
  write : t.write = true
  flash : regionOf tpa = .flash
  nonempty : data ≠ []
  lines : ((linesOf tpa data.length).all fun l => (t.left.map (·.1)).contains l) = true
  oneUnit : tpa / 16384 = (tpa + data.length - 1) / 16384
  health : (nandOf s (channelOf s tpa)).health = .ok
  loaded : (nandOf s (channelOf s tpa)).mapLoaded = true
  staged : ((nandOf s (channelOf s tpa)).writes.all (·.staged)) = true
  room : journalRoom (nandOf s (channelOf s tpa)) data.length = true
  serving : s.fw.activating = none

/-- A write that the journal has room for enters it. -/
theorem writeArrival_enters {tile tpa : Nat} {data : List Byte} {poison : Bool} {s : State} {t : Tile} (ht : tabFind s.eng.tiles tile = some t)
    (h : JournalTakes s t tpa data) :
    writeArrival tile tpa data poison s = admitWrite (channelOf s tpa)
      { id := (nandOf s (channelOf s tpa)).nextWrite, tpa := tpa, data := data, poison := poison, tile := some tile }
      (modNand (channelOf s tpa) (fun n => { n with nextWrite := n.nextWrite + 1 }) s) := by
  have hwait : writesWait (modNand (channelOf s tpa) (fun n => { n with nextWrite := n.nextWrite + 1 }) s) = false :=
    congrArg Option.isSome h.serving
  have htaken : ¬ ((!t.write) = true ∨ regionOf tpa ≠ .flash ∨ data = [] ∨
      (!((linesOf tpa data.length).all fun l => (t.left.map (·.1)).contains l)) = true ∨ tpa / 16384 ≠ (tpa + data.length - 1) / 16384) := by
    rw [h.write, h.lines]
    rintro (hb | hb | hb | hb | hb)
    · exact Bool.false_ne_true hb
    · exact hb h.flash
    · exact h.nonempty hb
    · exact Bool.false_ne_true hb
    · exact hb h.oneUnit
  unfold writeArrival
  rw [ht]
  dsimp only
  rw [if_neg htaken, if_neg (not_not.mpr h.health), h.loaded, Bool.not_true, if_neg Bool.false_ne_true, h.staged, h.room, hwait]
  rfl

/-- A change of a die leaves its channel's writes alone. -/
theorem nandOf_modDie_writes (ch d : Nat) (f : Die → Die) (s : State) : (nandOf (modDie ch d f s) ch).writes = (nandOf s ch).writes := by
  unfold modDie
  rw [nandOf_modNand]

/-- The first of a write's two mirror programs. -/
theorem programDone_first {ch d : Nat} {s : State} {o : DieOp} {w : FlashWrite} (hr : (dieOf s ch d).running = some o)
    (hk : o.kind = .programSlc) (hw : ((nandOf s ch).writes.find? fun w => w.id = o.id) = some w) (h0 : w.programs = 0) :
    programDone ch d true s = modNand ch (fun n => { n with
        writes := n.writes.map fun v => if v.id = w.id then { v with programs := v.programs + 1 } else v })
      (bumpFlash (nandPolder s ch) 0x08 65536 (modDie ch d (fun x => { x with running := none }) s)) := by
  have hwrites : (nandOf (bumpFlash (nandPolder s ch) 0x08 65536 (modDie ch d (fun x => { x with running := none }) s)) ch).writes
      = (nandOf s ch).writes := by
    rw [nandOf_bumpFlash, nandOf_modDie_writes]
  have hprog : ¬ w.programs ≥ 1 := by omega
  have hpol : nandPolder (modDie ch d (fun x => { x with running := none }) s) ch = nandPolder s ch := rfl
  unfold programDone
  rw [hr]
  dsimp only
  rw [hk, if_neg (by decide), if_neg (by decide), if_pos rfl, if_neg (by decide), hpol, hwrites, hw]
  exact if_neg hprog

/-- A program that fails retires its superblock and is queued again. -/
theorem programDone_fails {ch d : Nat} {s : State} {o : DieOp} (hr : (dieOf s ch d).running = some o)
    (hk : o.kind = .programSlc ∨ o.kind = .programQlc) :
    programDone ch d false s = retireBlock ch d (programBlock (dieOf s ch d) o)
      (modDie ch d (fun x => { x with running := none, writes := o :: x.writes }) s) := by
  unfold programDone
  rw [hr]
  exact (if_neg (by tauto)).trans (if_pos rfl)

/-- The die after an erase below the rated cycles. -/
def erasedDie (o : DieOp) (count : Nat) (x : Die) : Die :=
  { x with
    running := none
    used := x.used.filter (· ≠ o.block), valid := tabErase x.valid o.block, refresh := x.refresh.filter (· ≠ o.block)
    reerase := x.reerase.filter (· ≠ o.block), readCount := tabErase x.readCount o.block
    erases := tabPut x.erases 0 o.block count
    free := x.free + 1 }

theorem erasedDie_count (o : DieOp) (count : Nat) (x : Die) : tabGet (erasedDie o count x).erases 0 o.block = count :=
  tabGet_put_same _ _ _ _

/-- An erase below the rated cycles frees its superblock. -/
theorem eraseDone_frees {ch d : Nat} {s : State} {o : DieOp} (hr : (dieOf s ch d).running = some o) (hk : o.kind = .erase)
    (hc : tabGet (dieOf s ch d).erases 0 o.block + 1 < ratedCycles) :
    eraseDone ch d true s = admitAll ch (bumpFlash (nandPolder s ch) 0x18 1
      (modDie ch d (erasedDie o (tabGet (dieOf s ch d).erases 0 o.block + 1)) s)) := by
  unfold eraseDone
  rw [hr]
  dsimp only
  rw [if_neg (not_not.mpr hk), decide_eq_true hc]
  rfl

/-- The units of the victim are moved and then it is erased. -/
theorem collectStart_moves {ch d b : Nat} {s : State} (hf : (dieOf s ch d).failed = false) (hh : (nandOf s ch).health = .ok)
    (he : ((dieOf s ch d).writes.any fun o => decide (o.kind = .erase)) = false) (hv : victimBlock (dieOf s ch d) = some b) :
    collectStart ch d s = modDie ch d (fun x => { x with writes := x.writes ++
      ((s.ftl.map.filter fun e => decide (e.1 / 2 ^ 30 = ch ∧ e.2.state = .qlc ∧ e.2.die = d ∧ e.2.block = b)).map fun e =>
        { id := 0, kind := .programQlc, unit := e.1, block := b, page := 1, issued := s.time }) ++
      [{ id := 0, kind := .erase, block := b, issued := s.time }] }) s := by
  unfold collectStart
  dsimp only
  rw [if_neg (by rw [hf, he]; simp [hh]), hv]
  dsimp only
  rw [List.map_map]
  rfl

/-! ### Patrol, failed dies, the map -/

/-- A patrolled page that needs a deep re-read. -/
theorem patrolFlash_deep {ch d block level : Nat} {s : State} (hp : (nandOf s ch).present = true) (hf : (dieOf s ch d).failed = false)
    (h3 : 3 ≤ level) (h8 : level < 8) :
    patrolFlash ch d block level s = scheduleRefresh ch d block (bumpFlash (nandPolder s ch) 0x30 (min level 7) s) := by
  unfold patrolFlash
  dsimp only
  rw [hp, hf, if_neg (by simp), if_neg (show ¬ level = 8 by omega), if_pos h3]

/-- The die that has failed. -/
def failedDie (x : Die) : Die := { x with failed := true, running := none, reads := [], writes := [] }

/-- The first die of a channel to fail leaves one failed die. -/
theorem failed_first {ch d : Nat} {s : State} (h : (nandOf s ch).dies = []) :
    (((nandOf (modDie ch d failedDie s) ch).dies).filter fun e => e.2.failed).length = 1 := by
  have hdies : (nandOf (modDie ch d failedDie s) ch).dies = [(d, failedDie {})] := by
    unfold modDie
    rw [nandOf_modNand]
    dsimp only
    rw [h]
    rfl
  rw [hdies]
  rfl

/-- The first die that fails makes its channel read-only. -/
theorem dieTimeout_first {ch d : Nat} {s : State} (hp : (nandOf s ch).present = true) (hd : (nandOf s ch).dies = []) :
    dieTimeout ch d s = nandReadOnly ch false (modDie ch d failedDie s) := by
  have hfailed : (dieOf s ch d).failed = false := by
    unfold dieOf
    rw [hd]
    rfl
  have hone := failed_first (d := d) hd
  unfold dieTimeout dieFail
  rw [if_pos hp, hfailed, if_neg Bool.false_ne_true]
  refine if_neg ?_
  change ¬ (((nandOf (modDie ch d failedDie s) ch).dies).filter fun e => e.2.failed).length ≥ 2
  omega

/-- What one segment's replicas make of the state as the map is loaded (R124). -/
def loadSegment (ch : Nat) (s : State) (r : SegmentReplicas) : State :=
  match r.pair with
  | .same | .oneIntact => s
  | .higher => writeEvent 0x04 ch 0 64 0 r.segment s
  | .conflict | .neither => segmentUnreadable ch r.segment s

theorem loadSegment_intact {ch : Nat} {s : State} {r : SegmentReplicas} (h : r.pair = .same ∨ r.pair = .oneIntact) : loadSegment ch s r = s := by
  unfold loadSegment
  rcases h with h | h <;> rw [h]

theorem loadSegments_intact {ch : Nat} {reps : List SegmentReplicas} (s : State) (h : ∀ r ∈ reps, r.pair = .same ∨ r.pair = .oneIntact) :
    reps.foldl (loadSegment ch) s = s := by
  induction reps with
  | nil => rfl
  | cons r rs ih =>
    rw [List.foldl_cons, loadSegment_intact (h r (List.mem_cons_self ..))]
    exact ih fun x hx => h x (List.mem_cons_of_mem _ hx)

/-- A map whose replicas are all intact loads. -/
theorem mapLoad_intact {ch : Nat} {reps : List SegmentReplicas} {s : State} (hp : (nandOf s ch).present = true)
    (hl : (nandOf s ch).mapLoaded = false) (hh : (tabFind s.tray.mapHome ch).isSome = true) (h : ∀ r ∈ reps, r.pair = .same ∨ r.pair = .oneIntact) :
    mapLoad ch reps s = modNand ch (fun n => { n with mapLoaded := true }) s := by
  have hload : ¬ ((!(nandOf s ch).present) = true ∨ (nandOf s ch).mapLoaded = true ∨ (tabFind s.tray.mapHome ch).isNone = true) := by
    rw [hp, hl, Option.isNone_iff_eq_none]
    rintro (h | h | h)
    · exact Bool.false_ne_true h
    · exact Bool.false_ne_true h
    · rw [h] at hh
      exact Bool.false_ne_true hh
  unfold mapLoad
  dsimp only
  rw [if_neg hload]
  exact congrArg (modNand ch _) (loadSegments_intact s h)

/-- Settles O38, by the event and what its die is at. -/
theorem flashRows : Obligations.FlashRows := by
  unfold Obligations.FlashRows
  refine ⟨?_, ?_, ?_, ?_, ?_, ?_, ?_, ?_, ?_, ?_, ?_, ?_, ?_, ?_, ?_, ?_⟩
  · intro serial tpa s c hr hp hc hi he hs
    exact next_settle (readRequest_issues hr hp hc hi he hs)
  · intro ch d remaining s o x hf hr hn
    exact next_settle (dieStart_next hf hr hn)
  · intro ch d remaining s o r rest hf hr hq hk h8 hu
    exact next_settle (dieStart_suspends hf hr hq hk h8 hu)
  · intro ch d level s o hr hk hl hc
    exact next_settle (senseDone_decoded hr hk hl hc)
  · intro ch d s o hr hk hc hs
    exact ⟨_, next_settle (senseDone_lost hr hk hc hs), mem_refresh_scheduleRefresh .., rfl⟩
  · intro serial tpa s c g t hr hq hsp hc hi ht
    exact next_settle (readDeliver_due hr hq hsp hc hi ht)
  · intro tile tpa data poison s t ht hw hr hd hl hu hh hm hst hj ha
    exact next_settle (writeArrival_enters ht ⟨hw, hr, hd, hl, hu, hh, hm, hst, hj, ha⟩)
  · intro ch d s o w hr hk hw h0
    exact next_settle (programDone_first hr hk hw h0)
  · intro ch d s o hr hk
    exact next_settle (programDone_fails hr hk)
  · intro ch d s o hr hk hc
    have hdie := dieOf_modDie ch.val d.val (erasedDie o (tabGet (dieOf s ch.val d.val).erases 0 o.block + 1)) s
    exact ⟨_, next_settle (eraseDone_frees hr hk hc), congrArg Die.running hdie, congrArg Die.free hdie,
      (congrArg (fun x => tabGet x.erases 0 o.block) hdie).trans (erasedDie_count _ _ _), rfl⟩
  · intro ch d s
    rfl
  · intro ch d s b ha hf hh he hv
    exact next_settle ((whenHere_of ha).trans (collectStart_moves hf hh he hv))
  · intro ch d block level s ha hp hf hl
    exact next_settle ((whenHere_of ha).trans (patrolFlash_deep hp hf hl.1 hl.2))
  · intro ch d s hp hd
    exact next_settle (dieTimeout_first hp hd)
  · intro ch segment s hm
    exact next_settle (if_neg (by simp [hm]))
  · intro ch reps s hp hl hh h
    exact next_settle (congrArg mapsLoaded (mapLoad_intact hp hl hh h))

end Sys2Proof.Machine

/-!
The BMC bus, the tray interlock and the NOR window (chapters 25 and 26).
-/

namespace Sys2Proof.Machine

/-! ### The BMC bus -/

/-- A packet of the FM's API that has no row is answered as not supported. -/
theorem mctpOp_unknown {op : BitVec 16} {s : State} (hb : s.pins.smbus = false) (ha : fmAnswers s = true)
    (hk : fmApiKnown op.toNat = false) : mctpOp (.fmApi op) s = emit (.fmResponse 3 []) s := by
  unfold mctpOp
  exact (if_neg (ne_true_of_eq_false hb)).trans ((if_neg (ne_true_of_eq_false hk)).trans (if_pos ha))

/-- An interrupt refused for the first time is raised once more. -/
theorem ibiRetryOp_again {s : State} {b : BitVec 8} (h : s.regs.ibi = some (b, false)) :
    ibiRetryOp false s = emit (.ibi b) { s with regs := { s.regs with ibi := some (b, true) } } := by
  unfold ibiRetryOp
  rw [h]
  exact if_neg Bool.false_ne_true

/-- An interrupt refused twice is dropped. -/
theorem ibiRetryOp_drops {s : State} {b : BitVec 8} (h : s.regs.ibi = some (b, true)) :
    ibiRetryOp false s = { s with regs := { s.regs with ibi := none } } := by
  unfold ibiRetryOp
  rw [h]
  exact if_pos rfl

/-- Settles O40, by the bus's mode and the transfer. -/
theorem busRows : Obligations.BusRows := by
  unfold Obligations.BusRows
  refine ⟨?_, ?_, ?_, ?_, ?_, ?_, ?_, ?_, ?_, ?_, ?_, ?_⟩
  · intro offset data s hup hb ht hl
    exact next_settle (if_neg (by simp [hup, hb, ht, hl]))
  · intro count s hup hb ht
    exact next_settle (if_neg (by simp [hup, hb, ht]))
  · intro offset data s hup hb ht hl
    exact next_settle (if_neg (by simp [hup, hb, ht, hl.1, hl.2]))
  · intro offset length s hup hb ht hl
    exact next_settle (if_neg (by simp [hup, hb, ht, hl.1, hl.2]))
  · intro offset data s
    exact next_settle (if_pos (by simp))
  · intro op s hb ha hk
    exact next_settle (mctpOp_unknown hb ha hk)
  · intro s hup hb
    exact next_settle (if_pos (by simp [hup, hb]))
  · intro s hup hb
    exact next_settle (if_pos (by simp [hup, hb]))
  · intro s b h
    exact next_settle (ibiRetryOp_again h)
  · intro s b h
    exact next_settle (ibiRetryOp_drops h)
  · intro a s hup hb
    exact next_settle (if_neg (by simp [hup, hb]))
  · intro value s hup hv h0
    exact next_settle (if_pos (by rw [hup, hv, h0]; rfl))

/-! ### The tray interlock -/

/-- Both channels open is the open tray. -/
theorem interlockState_opens {s : State} (ha : s.pins.closedA = false) (hb : s.pins.closedB = false) (ho : s.pins.ilOpen = false) :
    interlockState s = interlockEnters { s with pins := { s.pins with ilOpen := true, disagree := false } } := by
  unfold interlockState
  exact (if_neg (by simp [ha])).trans ((if_pos (by simp [ha, hb])).trans (if_neg (ne_true_of_eq_false ho)))

/-! ### The NOR window -/

/-- A command of the open window is taken where its address is aligned and, unless it reads, outside the record area. -/
theorem norCommand_taken {op : BitVec 2} {s : State} (hop : op ≠ 0) (hup : s.pins.terpUp = true) (ho : norOpen s = true)
    (hb : s.regs.norBusy = none) (harea : op = 1 ∨ s.regs.norAddr.toNat < 0x03010000)
    (halign : s.regs.norAddr.toNat % (if op = 3 then 65536 else 256) = 0) :
    norCommand op s = { s with regs := { s.regs with norBusy := some (op, s.regs.norAddr) } } := by
  have hin : decide (op ≠ 1 ∧ 0x03010000 ≤ s.regs.norAddr.toNat) = false := decide_eq_false (by
    rintro ⟨h1, h2⟩
    rcases harea with h | h
    · exact h1 h
    · omega)
  have haligned : decide (s.regs.norAddr.toNat % (if op = 3 then 65536 else 256) ≠ 0) = false := decide_eq_false (not_not.mpr halign)
  have hbad : (!norOpen s || decide (op ≠ 1 ∧ 0x03010000 ≤ s.regs.norAddr.toNat) ||
      decide (s.regs.norAddr.toNat % (if op = 3 then 65536 else 256) ≠ 0)) = false := by
    rw [hin, haligned, ho]
    rfl
  unfold norCommand
  exact (if_neg (not_or.mpr ⟨hop, by simp [hup]⟩)).trans ((if_neg (by simp [hb])).trans (if_neg (ne_true_of_eq_false hbad)))

/-- A command is refused outside the open window, and one that writes in the record area too. -/
theorem norCommand_refused {op : BitVec 2} {s : State} (hop : op ≠ 0) (hop1 : op ≠ 1) (hup : s.pins.terpUp = true)
    (hb : s.regs.norBusy = none) (hbad : norOpen s = false ∨ 0x03010000 ≤ s.regs.norAddr.toNat) :
    norCommand op s = norRefuse { s with regs := { s.regs with norDenied := true } } := by
  have hrefused : (!norOpen s || decide (op ≠ 1 ∧ 0x03010000 ≤ s.regs.norAddr.toNat)) = true := by
    rcases hbad with h | h
    · rw [h]
      rfl
    · rw [decide_eq_true ⟨hop1, h⟩, Bool.or_true]
  unfold norCommand
  refine (if_neg (not_or.mpr ⟨hop, by simp [hup]⟩)).trans ((if_neg (by simp [hb])).trans (if_pos ?_))
  rw [hrefused, Bool.true_or]

/-- A table filled from a function holds the function's values. -/
theorem tabGet_fill {f : Nat → Byte} {n i : Nat} (hi : i < n) :
    tabGet ((List.range n).foldl (fun m i => tabPut m 0 i (f i)) []) 0 i = f i := by
  induction n with
  | zero => exact absurd hi (Nat.not_lt_zero i)
  | succ n ih =>
    rw [List.range_succ, List.foldl_append, List.foldl_cons, List.foldl_nil]
    by_cases h : i = n
    · rw [h]
      exact tabGet_put_same _ _ _ _
    · rw [tabGet_put_other _ _ _ _ _ h]
      exact ih (by omega)

/-- The state of the NOR's registers once a page has been read. -/
def pageRead (addr : BitVec 26) (s : State) : State :=
  { s with regs := { s.regs with norBusy := none, norError := s.regs.norError || !true
                                 norBuf := (List.range 256).foldl (fun m i => tabPut m 0 i (norByte s (addr.toNat + i))) [] } }

theorem pageRead_buf {addr : BitVec 26} {s : State} {i : Nat} (hi : i < 256) :
    tabGet (pageRead addr s).regs.norBuf 0 i = norByte s (addr.toNat + i) := by
  unfold pageRead
  dsimp only
  exact tabGet_fill (f := fun i => norByte s (addr.toNat + i)) hi

theorem norComplete_read {s : State} {addr : BitVec 26} (h : s.regs.norBusy = some (1, addr)) :
    norComplete true s = raiseIrq 7 (pageRead addr s) := by
  unfold norComplete
  rw [h]
  rfl

/-- Settles O41, by what the channels and the NOR are at. -/
theorem interlockAndNorRows : Obligations.InterlockAndNorRows := by
  unfold Obligations.InterlockAndNorRows
  refine ⟨?_, ?_, ?_, ?_, ?_, ?_, ?_, ?_, ?_, ?_, ?_⟩
  · intro a b s hup
    exact next_settle (if_neg (by simp [hup]))
  · intro s hup
    exact next_settle ((if_neg (by simp [hup])).trans (if_neg Bool.false_ne_true))
  · intro s ha hb ho
    exact interlockState_opens ha hb ho
  · intro s hd hf
    exact next_settle (if_pos (by simp [hd, hf]))
  · intro s hup ha hb
    exact next_settle ((if_neg (by simp [hup])).trans (if_pos (by simp [ha, hb])))
  · intro s hup hb
    exact next_settle ((if_neg (by simp [hup])).trans (if_neg (by simp [hb])))
  · intro s hup ho hb ha
    exact next_settle (norCommand_taken (by decide) hup ho hb (.inl rfl) ha)
  · intro s hup ho hb ha hn
    exact next_settle (norCommand_taken (by decide) hup ho hb (.inr hn) ha)
  · intro s hup ho hb ha hn
    exact next_settle (norCommand_taken (by decide) hup ho hb (.inr hn) ha)
  · intro s hup hb hbad
    exact next_settle (norCommand_refused (by decide) (by decide) hup hb hbad)
  · intro s addr h
    exact ⟨pageRead addr s, next_settle (norComplete_read h), rfl, fun i hi => pageRead_buf hi, rfl, rfl⟩

end Sys2Proof.Machine

/-!
Reads and writes of the direct registers (chapter 26).
-/

namespace Sys2Proof.Machine

/-! ### Values of single registers (Tables 26.2 and 26.4) -/

theorem regValue_timeLo (s : State) : regValue s 0x10018 = bits s.time 31 0 := rfl
theorem regValue_beatLo (s : State) : regValue s 0x10020 = bits s.beat 31 0 := rfl
theorem regValue_supply (s : State) : regValue s 0x10008 = supplyWord s := rfl
theorem regValue_persistentWindow (s : State) : regValue s 0x100A0 = wordAt (windowRecord s true) 0 := rfl
theorem regValue_volatileWindow (s : State) : regValue s 0x09A0 = wordAt (windowRecord s false) 0 := rfl

theorem sluiceValue_orphanCount {s : State} {ix : Nat} {sl : Sluice} (h : findSluice s ix = some sl) :
    sluiceValue s ix 0x10 = sl.orphanCount := by
  unfold sluiceValue
  rw [h]
  rfl

/-! ### Reads -/

theorem readOne_timeLo (s : State) : readOne 0x10018 s = emit (.regRead (BitVec.ofNat 32 (bits s.time 31 0)))
    { s with regs := { s.regs with timeHi := BitVec.ofNat 32 (s.time / 2 ^ 32) } } := by
  unfold readOne
  rw [regValue_timeLo]
  rfl

theorem readOne_beatLo (s : State) : readOne 0x10020 s = emit (.regRead (BitVec.ofNat 32 (bits s.beat 31 0)))
    { s with regs := { s.regs with beatHi := BitVec.ofNat 16 (s.beat / 2 ^ 32) } } := by
  unfold readOne
  rw [regValue_beatLo]
  rfl

theorem readOne_supply (s : State) : readOne 0x10008 s = emit (.regRead (BitVec.ofNat 32 (supplyWord s)))
    { s with pwr := { s.pwr with episodes := 0 } } := by
  unfold readOne
  rw [regValue_supply]
  rfl

/-- A record window answers with its first word and latches its record. -/
theorem recWinLatchOp_latches (prec : Bool) (s : State) :
    recWinLatchOp prec s = emit (.regRead (BitVec.ofNat 32 (wordAt (windowRecord s prec) 0))) (latchWindow prec s) := by
  unfold recWinLatchOp readOne
  cases prec
  · rw [if_neg Bool.false_ne_true, regValue_volatileWindow]
    rfl
  · rw [if_pos rfl, regValue_persistentWindow]
    rfl

/-- ORPHAN_COUNT is read and cleared. -/
theorem rcReadOp_orphanCount {port : Fin 17} {ld : Fin 16} {s : State} {sl : Sluice} (h : findSluice s (sluiceIx port ld) = some sl) :
    rcReadOp (.orphanCount port ld) s = emit (.regRead (BitVec.ofNat 32 sl.orphanCount))
      (modSluice (sluiceIx port ld) (fun _ => { sl with orphanCount := 0 }) s) := by
  unfold rcReadOp
  dsimp only
  rw [sluiceValue_orphanCount h, modSluice_congr (g := fun _ => { sl with orphanCount := 0 }) h rfl]
  rfl

/-! ### Writes -/

/-- Enabling bits whose status is clear raises nothing. -/
theorem irqEnableOp_quiet {v : Nat} {s : State} (h : BitVec.ofNat 8 v &&& s.regs.irqStatus = 0) :
    irqEnableOp v s = { s with regs := { s.regs with irqEnable := BitVec.ofNat 8 v } } := by
  have hfresh : BitVec.ofNat 8 v &&& ~~~s.regs.irqEnable &&& s.regs.irqStatus = 0 := by
    rw [BitVec.and_assoc, BitVec.and_comm (~~~s.regs.irqEnable), ← BitVec.and_assoc, h]
    exact BitVec.zero_and
  unfold irqEnableOp
  exact if_pos hfresh

/-- COH_TIMEOUT takes what lies in its range. -/
theorem mgmtWrite_cohTimeout (v : Nat) (s : State) : mgmtWrite 0x0800 v s =
    if 10 ≤ bits v 13 0 ∧ bits v 13 0 ≤ 10000 then { s with coh := { s.coh with timeout := BitVec.ofNat 14 v } } else s :=
  if_pos rfl

/-- TERP_IRQ_STATUS clears the bits written 1. -/
theorem terpWrite_irqStatus (v : Nat) (s : State) :
    terpWrite 0x00C v s = { s with regs := { s.regs with irqStatus := s.regs.irqStatus &&& ~~~BitVec.ofNat 8 v } } := rfl

/-- Settles O42, register by register. -/
theorem registerRows : Obligations.RegisterRows := by
  unfold Obligations.RegisterRows
  refine ⟨?_, ?_, ?_, ?_, ?_, ?_, ?_, ?_, ?_, ?_⟩
  · intro s
    exact next_settle (readOne_timeLo s)
  · intro s
    exact next_settle (readOne_beatLo s)
  · intro prec s
    exact next_settle (recWinLatchOp_latches prec s)
  · intro s
    exact next_settle (readOne_supply s)
  · intro port ld s sl h
    exact next_settle (rcReadOp_orphanCount h)
  · intro s
    rfl
  · intro value s h
    exact next_settle (irqEnableOp_quiet h)
  · intro v s h
    exact next_settle ((mgmtWrite_cohTimeout _ s).trans (if_pos h))
  · intro v s h
    exact next_settle ((mgmtWrite_cohTimeout _ s).trans (if_neg (by omega)))
  · intro v s
    exact next_settle (terpWrite_irqStatus _ s)

end Sys2Proof.Machine

/-!
The IDE streams of a link (chapter 8).
-/

namespace Sys2Proof.Machine

/-- A request in a live session that succeeds is answered with status 0. -/
theorem ideRequest_done {port : Fin 17} {ld : Fin 16} {session : Nat} {go : State → Option State} {s t : State} {x : Session}
    (ha : secAnswers s = true) (hx : liveSession s (.doe port ld) session = some x) (hgo : go s = some t) :
    ideRequest port ld session go s = ideReply port ld 0 t := by
  unfold ideRequest
  rw [if_neg (by simp [ha]), hx]
  dsimp only
  rw [hgo]

/-- The keys of a direction of a new stream are programmed. -/
theorem keyProgOp_new {port : Fin 17} {ld : Fin 16} {stream : BitVec 8} {transmit : Bool} {session : Nat} {s : State} {x : Session}
    (ha : secAnswers s = true) (hx : liveSession s (.doe port ld) session = some x) (hv : streamOf s (streamKey port ld stream) = none)
    (hr : streamRoom s (streamKey port ld stream) = true) :
    keyProgOp port ld stream transmit session s =
      ideReply port ld 0 (putStream (streamKey port ld stream) (programDir session transmit {}) s) := by
  unfold keyProgOp
  refine ideRequest_done ha hx ?_
  rw [hv]
  exact if_pos hr

/-- The second direction that is programmed makes a stream KEYED. -/
theorem programDir_both {session : Nat} {transmit : Bool} {x : IdeStream} (h : x.programmed ||| dirBit transmit = 3) :
    (programDir session transmit x).state = .keyed ∧ (programDir session transmit x).active = 0 := by
  unfold programDir
  exact ⟨if_pos h, rfl⟩

/-- The second direction that goes makes a stream SECURE. -/
theorem kSetGoOp_both {port : Fin 17} {ld : Fin 16} {stream : BitVec 8} {transmit : Bool} {session : Nat} {s : State} {x : Session}
    {v : IdeStream} (ha : secAnswers s = true) (hx : liveSession s (.doe port ld) session = some x)
    (hv : streamOf s (streamKey port ld stream) = some v) (hk : v.state = .keyed) (hb : v.active ||| dirBit transmit = 3) :
    kSetGoOp port ld stream transmit session s =
      ideReply port ld 0 (putStream (streamKey port ld stream) { v with active := 3, state := .secure } s) := by
  unfold kSetGoOp
  refine ideRequest_done ha hx ?_
  rw [hv, Option.bind_some]
  dsimp only
  rw [hk]
  dsimp only
  rw [hb, if_pos rfl]

/-- A stop erases a SECURE stream. -/
theorem kSetStopOp_secure {port : Fin 17} {ld : Fin 16} {stream : BitVec 8} {session : Nat} {s : State} {x : Session} {v : IdeStream}
    (ha : secAnswers s = true) (hx : liveSession s (.doe port ld) session = some x)
    (hv : streamOf s (streamKey port ld stream) = some v) (hk : v.state = .secure) :
    kSetStopOp port ld stream session s =
      ideReply port ld 0 { s with key := { s.key with streams := tabErase s.key.streams (streamKey port ld stream) } } := by
  unfold kSetStopOp
  refine ideRequest_done ha hx ?_
  rw [hv, Option.map_some]
  dsimp only
  rw [hk]

/-- An integrity failure of a SECURE stream. -/
theorem ideFails_secure {port : Fin 17} {ld : Fin 16} {stream : BitVec 8} {s : State} {v : IdeStream}
    (hv : streamOf s (streamKey port ld stream) = some v) (hk : v.state = .secure) :
    ideFails port ld stream s = notifyFm
      { kind := 0x03, port := port.val, hid := tabGet s.q.bound 0 (sluiceIx port ld), unit := stream.toNat + 256 * ld.val } 0
      (putStream (streamKey port ld stream) { v with state := .insecure, programmed := 0, active := 3, alternate := false } s) := by
  unfold ideFails
  dsimp only
  rw [hv]
  exact if_neg (not_not.mpr hk)

/-- Settles O44, by the state of the stream. -/
theorem ideRows : Obligations.IdeRows := by
  unfold Obligations.IdeRows
  refine ⟨?_, ?_, ?_, ?_, ?_⟩
  · intro port ld stream transmit session s x ha hx hv hr
    exact next_settle (keyProgOp_new ha hx hv hr)
  · intro session transmit x h
    exact programDir_both h
  · intro port ld stream transmit session s x v ha hx hv hk hb
    exact next_settle (kSetGoOp_both ha hx hv hk hb)
  · intro port ld stream session s x v ha hx hv hk
    exact next_settle (kSetStopOp_secure ha hx hv hk)
  · intro port ld stream s v hv hk
    exact next_settle (ideFails_secure hv hk)

end Sys2Proof.Machine

/-!
The fabric manager's commands and JTAG (chapters 2, 17, 20, 23 and 24).
-/

namespace Sys2Proof.Machine

/-- What the FM asks for while the firmware answers it. -/
theorem fmCommand_answers {go : State → State} {s : State} (h : fmAnswers s = true) : fmCommand go s = go s := if_pos h

/-- The division of a port's LDs as it is reported. -/
theorem ldDivision_words (s : State) (port : Nat) : (ldDivision s port).map (BitVec.ofNat 32 ·) =
    (List.range 16).map fun ld => BitVec.ofNat 32 (linkOfLd (portAt s port).width ld) := by
  unfold ldDivision
  rw [List.map_map]
  rfl

/-- The DevLoad of a bound LD. -/
theorem qosStatusOp_bound {port ld hid : Nat} {s : State} (ha : fmAnswers s = true) (hb : tabFind s.q.bound (port * 16 + ld) = some hid) :
    qosStatusOp port ld s = emit (.fmResponse 0 [BitVec.ofNat 32
      ((((List.range 64).filter (polderBit (hitOf s hid))).map fun p => devLoadOf s port hid p).foldl max (devLoadOf s port hid 64))]) s := by
  unfold qosStatusOp
  rw [fmCommand_answers ha, hb]
  rfl

/-- A whole item of the tunnel is taken in. -/
theorem tunnelItemOp_takesIn {ws : List Word} {s : State} (ha : fmAnswers s = true) (hs : s.fw.started = true)
    (hi : intakeShut s ⟨.tunnel, ws, []⟩ = false) (hl : ws.length = 16 * hdrEntries ws) :
    tunnelItemOp ws s = takeIn ⟨.tunnel, ws, []⟩ s := by
  unfold tunnelItemOp
  rw [fmCommand_answers ha]
  exact (if_neg (by rw [hs, hi]; exact Bool.false_ne_true)).trans (if_neg (not_not.mpr hl))

/-- A free HID is bound to a free LD. -/
theorem bindOp_free {b0 b1 b2 : Byte} {s : State} (ha : fmAnswers s = true) (hs : s.fw.started = true) (h0 : b0.toNat ≤ 16)
    (h1 : b1.toNat ≤ 15) (hb : tabFind s.q.bound (b0.toNat * 16 + b1.toNat) = none) (hh : ldOfHid s b2.toNat = none)
    (hl : s.q.bound.length < 256) :
    bindOp b0 b1 b2 0 s = emit (.fmResponse 0 []) { s with q := { s.q with
      bound := tabInsert s.q.bound (b0.toNat * 16 + b1.toNat) b2.toNat
      sluices := tabInsert s.q.sluices (b0.toNat * 16 + b1.toNat) { hid := b2.toNat, ifVersion := s.fw.running.manifest.ifVersion } } } := by
  have hargs : ¬ (b0.toNat > 16 ∨ b1.toNat > 15 ∨ (0 : Byte) ≠ 0) := by
    rintro (h | h | h)
    · omega
    · omega
    · exact h rfl
  have hroom : ¬ ((ldOfHid s b2.toNat).isSome = true ∨ s.q.bound.length ≥ 256) := by
    rw [hh]
    rintro (h | h)
    · exact Bool.false_ne_true h
    · omega
  unfold bindOp
  rw [fmCommand_answers ha]
  dsimp only
  rw [hs, Bool.not_true, if_neg Bool.false_ne_true, if_neg hargs, hb]
  exact if_neg hroom

/-- An LD is unbound. -/
theorem unbindOp_unbinds {b0 b1 : Byte} {s : State} (ha : fmAnswers s = true) (h0 : b0.toNat ≤ 16) (h1 : b1.toNat ≤ 15) :
    unbindOp b0 b1 0 0 s = emit (.fmResponse 0 []) (unbindLd (b0.toNat * 16 + b1.toNat) s) := by
  unfold unbindOp
  rw [fmCommand_answers ha]
  refine if_neg ?_
  rintro (h | h | h | h)
  · omega
  · omega
  · exact h rfl
  · exact h rfl

/-! ### JTAG -/

/-- The state in which the mailbox has shifted out what was captured (R463). -/
def shiftOut (s : State) : State :=
  emit (.jtag (s.dbg.mailbox.headD (List.replicate 16 0))) { s with dbg := { s.dbg with jtagIr := 1, mailbox := s.dbg.mailbox.tail } }

/-- A debug status item that is shifted into the mailbox runs. -/
theorem mailboxOp_status {ws : List Word} {host : List HostByte} {verifies : Bool} {lock : Option (Fin 28 × Nat)} {s : State}
    (hup : s.pins.terpUp = true) (hl : ws.length = 16) (hop : hdrOpcode ws = 0xF0) :
    mailboxOp ws host verifies lock s = runItem 0xF0 ⟨.jtag, ws, host⟩ dbgStatusBody (shiftOut s) := by
  unfold mailboxOp
  dsimp only
  rw [if_neg (by simp [hup]), if_neg (not_not.mpr hl), hop]
  rfl

/-- Settles O45, by the FM's command or the TAP's instruction. -/
theorem fabricRows : Obligations.FabricRows := by
  unfold Obligations.FabricRows
  refine ⟨?_, ?_, ?_, ?_, ?_, ?_, ?_, ?_, ?_, ?_, ?_, ?_⟩
  · intro m s ha
    exact next_settle (fmCommand_answers ha)
  · intro m port s ha
    exact next_settle (fmCommand_answers ha)
  · intro m port s ha
    exact next_settle ((fmCommand_answers ha).trans (congrArg (fun ws => fmReply 0 ws s) (ldDivision_words s port.val)))
  · intro m port division s ha
    exact next_settle (fmCommand_answers ha)
  · intro m port ld s hid ha hb
    exact next_settle (qosStatusOp_bound ha hb)
  · intro words s ha hs hi hl
    exact next_settle (tunnelItemOp_takesIn ha hs hi hl)
  · intro m b0 b1 b2 s ha hs h hb hh hl
    exact next_settle (bindOp_free ha hs h.1 h.2 hb hh hl)
  · intro m b0 b1 s ha h
    exact next_settle (unbindOp_unbinds ha h.1 h.2)
  · intro words host verifies lock s hup hl hop
    exact ⟨shiftOut s, next_settle (mailboxOp_status hup hl hop), rfl, rfl, rfl, rfl⟩
  · intro s hup
    exact next_settle (if_neg (by simp [hup]))
  · intro s hup
    exact next_settle (if_neg (by simp [hup]))
  · intro s
    rfl

end Sys2Proof.Machine
